-- ==== Sys2Proof/Word.lean ====
section
/-! DEFINITION. The word and byte types of the DLM-8740's register and command interfaces. -/
namespace Sys2Proof

/-- A 32-bit register or command-packet word, little-endian in memory ("Registers and access codes"). -/
abbrev Word := BitVec 32

/-- One byte of Dome, LPDDR5X or host memory. -/
abbrev Byte := BitVec 8

end Sys2Proof
end

