-- ==== Sys2Proof/Syntax.lean ====
section
/-! DEFINITION. The commands of the DLM-8740 block: register accesses, bus and protocol operations, pin and timer
events and command packets, one constructor per row of the opcode table. -/
namespace Sys2Proof

/-- Who makes a BAR0 access (R26 class 6). -/
inductive Agent where
  | host | cupola | jtag
  deriving DecidableEq, Repr

/-- The path that carried a command packet (R290): a ring pair, MCTP from an endpoint, or a Tollis link. -/
inductive Path where
  | ring (n : Fin 4)
  | mctp (eid : Fin 256)
  | tollis (l : Fin 2)
  deriving DecidableEq, Repr

/-- The header of a command packet that the opcode's own step needs (R286): where it came from, its IRQ flag, TAG,
SEQUENCE and CONTEXT. -/
structure CmdHead where
  path : Path
  irq : Bool
  tag : Nat
  seq : Nat
  context : Nat
  deriving DecidableEq, Repr

/-- The clock that an Announce offers (IEEE 1588): grandmasterPriority1, clockClass, clockAccuracy,
offsetScaledLogVariance, grandmasterPriority2, grandmasterIdentity, stepsRemoved, and the sender's port identity. -/
structure ClockSet where
  p1 : Nat
  cls : Nat
  accuracy : Nat
  variance : Nat
  p2 : Nat
  gm : Nat
  steps : Nat
  sender : Nat
  deriving DecidableEq, Repr

/-- The content of a received PTP message of IEEE 1588 (R58 to R63): times and corrections in 2⁻¹⁶ ns. -/
inductive PtpBody where
  /-- A Sync: whether a Follow_Up carries its time, its origin time, and its correction. -/
  | sync (twoStep : Bool) (origin correction : Int)
  | followUp (origin correction : Int)
  | announce (clock : ClockSet)
  /-- A request, with its correction, which the Belfry answers. -/
  | pdelayReq (correction : Int)
  | delayReq (correction : Int)
  /-- An end-to-end response: the request's receipt time at the master. -/
  | delayResp (t4 correction : Int)
  /-- A peer response: whether a follow-up carries its departure, and the request's receipt time at the peer. -/
  | pdelayResp (twoStep : Bool) (t2 correction : Int)
  | pdelayRespFollowUp (t3 correction : Int)
  /-- Any other PTP message. -/
  | other
  deriving DecidableEq, Repr

/-- A received PTP message (R59, R60): its domain, its transport as PORT_CFG.TRANSPORT numbers it, the port identity of
its sender, and its content. -/
structure PtpMsg where
  domain : Nat
  transport : Nat
  sender : Nat
  body : PtpBody
  deriving DecidableEq, Repr

/-- The messages the Belfry originates by an interval (R63). -/
inductive PtpTx where
  | sync | announce | pdelayReq | pdelayResp | pdelayRespFollowUp | syncFollowUp | delayReq | delayResp
  deriving DecidableEq, Repr

/-- How a packet begins on an ingress channel (R77, R78, R87, R88). -/
inductive RxStart where
  /-- A CSI-2 long packet: virtual channel, data type, word count, and whether its header ECC was corrected or is
  uncorrectable. -/
  | csi (vc dt wordCount : Nat) (corrected uncorrectable : Bool)
  /-- An Ethernet frame: destination address, EtherType after any VLAN tag, PCP, and the destination port of a UDP
  datagram. -/
  | eth (dest etherType pcp : Nat) (udp : Option Nat)
  /-- A CAN frame: identifier, IDE, FDF, XLF, payload length and acceptance field. -/
  | can (id : Nat) (ide fdf xlf : Bool) (len af : Nat)
  deriving DecidableEq, Repr

/-- What an array item multiplies (R176 to R182): rows of A against K × N of B, byte offsets in the array buffer of
the operands, their block scales, the outputs and the output scales, and the FP32 patterns of the tensor scales. -/
structure ArrayJob where
  rows : Nat
  k : Nat
  n : Nat
  aOff : Nat
  aScale : Nat
  bOff : Nat
  bScale : Nat
  outOff : Nat
  outScale : Nat
  tensorA : Nat
  tensorB : Nat
  deriving DecidableEq, Repr

/-- The functions of a vector core (R186). -/
inductive VecFn where
  | exp | log | recip | rsqrt | sin | cos
  deriving DecidableEq, Repr

/-- What an item of a vector or scalar core leaves at an offset of the local store; a scalar core reaches its two cores'
stores one after the other (R186, R187). -/
inductive CoreResult where
  /-- Bytes. -/
  | bytes (off : Nat) (bs : List Nat)
  /-- FP32 results of lane operations. -/
  | fp32 (off : Nat) (ws : List Nat)
  /-- One of the functions of the FP32 word at src. -/
  | func (f : VecFn) (src dst : Nat)
  deriving DecidableEq, Repr

/-- Who asks for a memory access (R194): a unit by its flat index, Tollis DMA l, or the host through a BAR. -/
inductive Requester where
  | unit (flat : Nat)
  | tollis (l : Fin 2)
  | host
  deriving DecidableEq, Repr

/-- One access of at most 128 bytes to the Dome or LPDDR5X (R190, R198). -/
structure MemReq where
  from_ : Requester
  ddr : Bool
  write : Bool
  addr : Nat
  len : Nat
  /-- Where in the unit's buffer a read lands and a write takes its data. -/
  buf : Nat
  deriving DecidableEq, Repr

/-- How a memory access ends (R193, R199, R200). -/
inductive MemEnd where
  | good
  /-- One bit corrected by the Dome's or the region's check bits. -/
  | corrected
  /-- Uncorrectable by the Dome's or the region's check bits. -/
  | uncorrectable
  /-- A link error corrected. -/
  | linkCorrected
  /-- A link error left after the retries of R199. -/
  | linkFailed
  deriving DecidableEq, Repr

/-- Where a solve stands between its starting inputs and its first iteration (R250, R253, R254): checking, converting or
simulating with or without a saturation so far, classifying, writing the area, or with a number of stages factored and rows
appended. -/
inductive AsmPart where
  | check
  | convert (sat : Bool)
  | simulate (sat : Bool)
  | classify
  | write
  | base (stages : Nat)
  | schur (rows : Nat)
  deriving DecidableEq, Repr

/-- Where the solver is when its deadline acts (R263). -/
inductive SlvPlace where
  /-- Forming the starting inputs. -/
  | forming
  /-- Assembly, base factor or Schur build. -/
  | assembling (part : AsmPart)
  /-- At an iteration boundary, or in a step, ratio test or multiplier test, after a number of commits. -/
  | iterating (commits : Nat)
  /-- Writing a change into the shadow factor after a number of commits. -/
  | shadow (commits : Nat)
  /-- In a refinement round, after a number of committed rounds. -/
  | refining (rounds : Nat)
  deriving DecidableEq, Repr

/-- An SRAM store with a reader (R442): a physical Dome bank, array buffer or vector local store, the VHE table, an
ingress bank pair, the solver scratch, Cupola's SRAM. -/
inductive SramStore where
  | dome (p : Fin 68)
  | arrayBuf (p : Fin 34)
  | vecStore (p : Fin 136)
  | vheTable
  | bankPair (n : Fin 32)
  | solver
  | cupola
  deriving DecidableEq, Repr

/-- What an IJTAG shift reads (R442): the freeze status, the state chain of a unit by its flat index, or a 64-bit word of
a store. -/
inductive Instrument where
  | status
  | chain (flat : Nat)
  | sram (store : SramStore) (word : Nat)
  deriving DecidableEq, Repr

/-- The commands of the block: one constructor per row of spec/opcode_table.json. -/
inductive Instr where
  /-- REGISTER_WRITE (R7): wide: the high word of a 64-bit write; cross: the W1C bits of the register that the device sets in the same grant (R8). -/
  | registerWrite (agent : Agent) (addr : Nat) (value : Word) (wide : Option Word) (cross : Word)
  /-- RC_READ (R7): wide: a read of 64 bits; cross: the increment of the counter that meets the read in the same grant (R9). -/
  | rcRead (agent : Agent) (addr : Nat) (wide : Bool) (cross : Nat)
  /-- BAD_SIZE_ACCESS (R4): an access of size bytes; a write carries the two words. -/
  | badSizeAccess (agent : Agent) (addr size : Nat) (write : Bool) (value high : Word)
  /-- UNMAPPED_ACCESS (R5). -/
  | unmappedAccess (agent : Agent) (addr : Nat) (write : Bool) (value : Word)
  /-- LOW_WORD_READ (R10). -/
  | lowWordRead (agent : Agent) (addr : Nat)
  /-- LOW_WORD_WRITE (R10). -/
  | lowWordWrite (agent : Agent) (addr : Nat) (value : Word)
  /-- HIGH_WORD_WRITE (R10). -/
  | highWordWrite (agent : Agent) (addr : Nat) (value : Word)
  /-- BROADCAST_WRITE (R29). -/
  | broadcastWrite (agent : Agent) (addr : Nat) (value : Word)
  /-- GROUP_WRITE (R34). -/
  | groupWrite (agent : Agent) (addr : Nat) (value : Word)
  /-- BAR_MEMORY_ACCESS (R277): BAR2 or BAR4; a read of len bytes, or a write of bytes. -/
  | barMemoryAccess (bar4 write : Bool) (addr len : Nat) (bytes : List Nat) (how : MemEnd)
  /-- RATE_UPDATE (R17): the completed handshakes of the 64 canaries over the 10 µs window. -/
  | rateUpdate (counts : List Nat)
  /-- PHASE_ADJUST (R42): a write of BLF_ADJ_HI, which commits with the held low word. -/
  | phaseAdjust (agent : Agent) (high : Word)
  /-- BLF_RATE_WRITE (R40): a write of BLF_RATE_HI, which commits with the held low word. -/
  | blfRateWrite (agent : Agent) (high : Word)
  /-- XTS_CAPTURE (R72): a write of BLF_XTS_CTRL. -/
  | xtsCapture (agent : Agent) (value : Word)
  /-- SLICE_BOUNDARY (R45). -/
  | sliceBoundary
  /-- SLICE_CLOSE (R106). -/
  | sliceClose
  /-- CMP_FIRE (R47). -/
  | cmpFire (n : Fin 16)
  /-- CMP_ARM (R48): a write of BLF_CMPn_CTRL. -/
  | cmpArm (agent : Agent) (n : Fin 16) (ctrl : Word)
  /-- TRIG_MODE_WRITE (R52): a write of the word at +0x00 of generator n. -/
  | trigModeWrite (agent : Agent) (n : Fin 16) (word : Word)
  /-- TRIG_EDGE (R49). -/
  | trigEdge (n : Fin 16)
  /-- TRIG_PULSE_END (R50). -/
  | trigPulseEnd (n : Fin 16)
  /-- CAP_EDGE (R56): an edge delay units of 2⁻¹⁶ ns after the present time, of a pulse of width ns. -/
  | capEdge (n : Fin 32) (falling : Bool) (delay width : Nat)
  /-- CAP_POP (R56): a read of BLF_CAPn_POP0. -/
  | capPop (agent : Agent) (n : Fin 32)
  /-- TX_STAMP (R64): the oldest pending host frame of the port departs or is dropped. -/
  | txStamp (port : Fin 8) (sent : Bool)
  /-- TXQ_POP (R64): a read of BLF_TXQ_POP0. -/
  | txqPop (agent : Agent)
  /-- PTP_FRAME_RX (R60): a frame of a length in bytes, stamped at the pad, pad in 2⁻¹⁶ ns; got: the last bytes of a packet that its start ends. -/
  | ptpFrameRx (port : Fin 10) (pad bytes : Nat) (msg : PtpMsg) (frame : List Word) (got : List Nat)
  /-- ANNOUNCE_RECEIPT_TIMEOUT (R66): of the last Announce on the port. -/
  | announceReceiptTimeout (port : Fin 10)
  /-- SYNC_RECEIPT_TIMEOUT (R66). -/
  | syncReceiptTimeout
  /-- HOST_HOLDOVER_TIMEOUT (R69). -/
  | hostHoldoverTimeout
  /-- PPS_EDGE_MISSING (R70). -/
  | ppsEdgeMissing
  /-- PAUSE_FRAME_RX (R96): got: the last bytes of a packet that its start ends; the priorities it names; Annex 31B names all eight; a time of 0 ends the pause. -/
  | pauseFrameRx (port : Fin 8) (classes : List (Fin 8)) (time : Nat) (got : List Nat)
  /-- TIME_GET (R73). -/
  | timeGet (h : CmdHead) (ps : List Word)
  /-- TIME_SET (R73). -/
  | timeSet (h : CmdHead) (ps : List Word)
  /-- TIME_ADJUST (R73). -/
  | timeAdjust (h : CmdHead) (ps : List Word)
  /-- TIME_SET_RATE (R73). -/
  | timeSetRate (h : CmdHead) (ps : List Word)
  /-- PTP_CONFIG (R73). -/
  | ptpConfig (h : CmdHead) (ps : List Word)
  /-- PTP_PORT_CONFIG (R73). -/
  | ptpPortConfig (h : CmdHead) (ps : List Word)
  /-- PTP_STATUS (R73). -/
  | ptpStatus (h : CmdHead) (ps : List Word)
  /-- TRIG_CONFIG (R471). -/
  | trigConfig (h : CmdHead) (ps : List Word)
  /-- CAP_CONFIG (R73). -/
  | capConfig (h : CmdHead) (ps : List Word)
  /-- CMP_CONFIG (R73). -/
  | cmpConfig (h : CmdHead) (ps : List Word)
  /-- TXQ_READ (R73). -/
  | txqRead (h : CmdHead) (ps : List Word)
  /-- PTP_TX_FRAME (R73). -/
  | ptpTxFrame (h : CmdHead) (ps : List Word)
  /-- PTP_RX_FRAME (R74). -/
  | ptpRxFrame (h : CmdHead) (ps : List Word)
  /-- PACKET_START (R78): stamp: the pad time in 2⁻¹⁶ ns; got: the last bytes of a packet that this start ends; early: the bytes of this one that follow at once. -/
  | packetStart (ch : Fin 32) (stamp : Nat) (start : RxStart) (got early : List Nat)
  /-- PACKET_END (R77): the payload bytes that arrived last, and whether its CRC, FCS or form failed. -/
  | packetEnd (ch : Fin 32) (bytes : List Nat) (err : Bool)
  /-- PACKET_TIMEOUT (R85). -/
  | packetTimeout (ch : Fin 32) (got : List Nat)
  /-- LINK_LOSS (R85). -/
  | linkLoss (ch : Fin 32) (got : List Nat)
  /-- CONSUMER_PACKET_DONE (R80): more: the bytes of the packet in progress that have arrived since. -/
  | consumerPacketDone (ch : Fin 32) (more : List Nat)
  /-- PFC_REFRESH (R95). -/
  | pfcRefresh (ch : Fin 32)
  /-- BANK_IN_FLIGHT_TIMEOUT (R99). -/
  | bankInFlightTimeout (ch : Fin 32)
  /-- FLUSH_REQUEST (R89). -/
  | flushRequest (agent : Agent) (ch : Fin 32)
  /-- FLUSH_TAKE_EFFECT (R89). -/
  | flushTakeEffect (ch : Fin 32)
  /-- RECEIVER_STOP (R90). -/
  | receiverStop (ch : Fin 32)
  /-- ENCODER_EDGE (R55): channel ING30 + ch, an edge delay units of 2⁻¹⁶ ns after the present time, of a pulse of width ns. -/
  | encoderEdge (ch : Fin 2) (input : Fin 8) (forward illegal index : Bool) (delay width : Nat)
  /-- ENCODER_REPORT (R100). -/
  | encoderReport (ch : Fin 2)
  /-- SPI_SAMPLE_READ (R100): channel ING28 + ch. -/
  | spiSampleRead (ch : Fin 2)
  /-- ING_CONFIG (R101). -/
  | ingConfig (h : CmdHead) (ps : List Word)
  /-- ING_SOURCE_CONFIG (R101). -/
  | ingSourceConfig (h : CmdHead) (ps : List Word)
  /-- ING_ENABLE (R101). -/
  | ingEnable (h : CmdHead) (ps : List Word)
  /-- ING_FLUSH (R101). -/
  | ingFlush (h : CmdHead) (ps : List Word)
  /-- ING_STATUS (R101). -/
  | ingStatus (h : CmdHead) (ps : List Word)
  /-- ING_LEDGER (R101). -/
  | ingLedger (h : CmdHead) (ps : List Word)
  /-- ING_GROUP_MASK (R101). -/
  | ingGroupMask (h : CmdHead) (ps : List Word)
  /-- SYNC_WINDOW_END (R113). -/
  | syncWindowEnd
  /-- SILENT_TIMEOUT (R112). -/
  | silentTimeout (ch : Fin 32)
  /-- KNOT_DUE (R120). -/
  | knotDue
  /-- KNOT_WAIT_EXPIRY (R120). -/
  | knotWaitExpiry
  /-- INIT_END (R118). -/
  | initEnd
  /-- WHEEL_ABSENT_TIMEOUT (R118). -/
  | wheelAbsentTimeout
  /-- IMU_ABSENT_TIMEOUT (R118). -/
  | imuAbsentTimeout
  /-- IMU_ONLY_MAX_EXPIRY (R118). -/
  | imuOnlyMaxExpiry
  /-- EXTRAP_MAX_EXPIRY (R118). -/
  | extrapMaxExpiry
  /-- IMU_PRIMARY_RETURN (R118). -/
  | imuPrimaryReturn
  /-- ZUPT_DETECT (R117). -/
  | zuptDetect
  /-- SLC_CH_CONFIG (R127). -/
  | slcChConfig (h : CmdHead) (ps : List Word)
  /-- SLC_CH_STATUS (R127). -/
  | slcChStatus (h : CmdHead) (ps : List Word)
  /-- SLC_LIMITS (R127). -/
  | slcLimits (h : CmdHead) (ps : List Word)
  /-- SLC_SET_TOFF (R127). -/
  | slcSetToff (h : CmdHead) (ps : List Word)
  /-- EGO_CONFIG (R127). -/
  | egoConfig (h : CmdHead) (ps : List Word)
  /-- EGO_GET (R127). -/
  | egoGet (h : CmdHead) (ps : List Word)
  /-- EGO_RESET (R127). -/
  | egoReset (h : CmdHead) (ps : List Word)
  /-- ALIGN_END (R19). -/
  | alignEnd
  /-- VOXEL_START (R132). -/
  | voxelStart
  /-- POINT_INSERT (R143): a lane of the VHE inserts the next point. -/
  | pointInsert (lane : Fin 8)
  /-- VOXEL_END (R148). -/
  | voxelEnd
  /-- VHE_CLEAR_DONE (R155). -/
  | vheClearDone
  /-- FRAME_LINE_TIMEOUT (R159). -/
  | frameLineTimeout (ch : Fin 16)
  /-- MESH_BUILD_DONE (R158): built: whether the mesh reproduces the model to within 0.05 px. -/
  | meshBuildDone (ch : Fin 16) (built : Bool)
  /-- CAMERA_START (R161). -/
  | cameraStart
  /-- FRAME_REPORT (R161). -/
  | frameReport (ch : Fin 16)
  /-- CAMERA_END (R343). -/
  | cameraEnd
  /-- FUSE_START (R165). -/
  | fuseStart
  /-- FUSE_END (R344): the check values of the golden items that ran in it. -/
  | fuseEnd (values : List Nat)
  /-- CAL_SOLVE (R171). -/
  | calSolve
  /-- CAL_REPLY (R170). -/
  | calReply
  /-- CAL_NOREPLY (R170). -/
  | calNoreply
  /-- ITEM_START (R197): the item of a number in its variant's table, on a logical unit (an engine's INDEX); an array item carries its job. -/
  | itemStart (stage : Fin 8) (item unit : Nat) (job : ArrayJob)
  /-- ITEM_COMPLETE (R197): unit: flat index, or 400 + l for Tollis DMA l; errors of its store; what a vector or scalar item leaves in the local store, and the spans it read there. -/
  | itemComplete (unit : Nat) (corr : Nat) (uncorr : Bool) (results : List CoreResult) (reads : List (Nat × Nat))
  /-- ITEM_BUDGET_EXPIRY (R188): unit: flat index. -/
  | itemBudgetExpiry (unit : Nat)
  /-- TAG_GRANT (R194). -/
  | tagGrant (req : MemReq)
  /-- MEMORY_ACCESS_COMPLETE (R193): tag: its place in the order of grants. -/
  | memoryAccessComplete (tag : Nat) (how : MemEnd)
  /-- ECC_REWRITE (R193): bank: logical. -/
  | eccRewrite (bank : Fin 64)
  /-- TAG_RETURNING_TIMEOUT (R196). -/
  | tagReturningTimeout
  /-- MODEL_LOAD (R207). -/
  | modelLoad (h : CmdHead) (ps : List Word)
  /-- MODEL_UNLOAD (R207). -/
  | modelUnload (h : CmdHead) (ps : List Word)
  /-- WL_LOAD (R206). -/
  | wlLoad (h : CmdHead) (ps : List Word)
  /-- WL_ACTIVATE (R205). -/
  | wlActivate (h : CmdHead) (ps : List Word)
  /-- WL_DISCARD (R207). -/
  | wlDiscard (h : CmdHead) (ps : List Word)
  /-- WL_INFO (R207). -/
  | wlInfo (h : CmdHead) (ps : List Word)
  /-- TRACK_START (R233). -/
  | trackStart
  /-- ATTEND (R226). -/
  | attend
  /-- KV_APPEND (R231). -/
  | kvAppend
  /-- KV_OPEN (R230). -/
  | kvOpen
  /-- KV_RESET (R230). -/
  | kvReset
  /-- KV_CLOSE (R230). -/
  | kvClose
  /-- TRACK_COMMIT (R236). -/
  | trackCommit
  /-- TRACK_END (R238). -/
  | trackEnd
  /-- MIGRATE (R220): a write of ATN_MIGRATE. -/
  | migrate (agent : Agent) (value : Word)
  /-- MIGRATION_COPY_DONE (R220). -/
  | migrationCopyDone
  /-- MIGRATION_SOURCE_RELEASE (R220). -/
  | migrationSourceRelease
  /-- MIGRATION_TIMEOUT (R222). -/
  | migrationTimeout
  /-- POOL_CONFIG_WRITE (R210): a write of a word of ATN_POOL_BASE, ATN_POOL_PAGES or ATN_KVFMT. -/
  | poolConfigWrite (agent : Agent) (addr : Nat) (value : Word)
  /-- PAGE_LEDGER_REBUILD (R223). -/
  | pageLedgerRebuild
  /-- SOLVE_START (R250). -/
  | solveStart
  /-- SOLVE_DEADLINE (R263). -/
  | solveDeadline (place : SlvPlace)
  /-- SOLVE_RETURN (R265). -/
  | solveReturn
  /-- COLD_REQ (R257). -/
  | coldReq (agent : Agent)
  /-- SLV_MODEL_LOAD (R273). -/
  | slvModelLoad (h : CmdHead) (ps : List Word)
  /-- SLV_MODEL_ACTIVATE (R274). -/
  | slvModelActivate (h : CmdHead) (ps : List Word)
  /-- SLV_MODEL_DISCARD (R274). -/
  | slvModelDiscard (h : CmdHead) (ps : List Word)
  /-- SLV_CONFIG (R274). -/
  | slvConfig (h : CmdHead) (ps : List Word)
  /-- SLV_STATUS (R274). -/
  | slvStatus (h : CmdHead) (ps : List Word)
  /-- SLV_TEST_SOLVE (R274). -/
  | slvTestSolve (h : CmdHead) (ps : List Word)
  /-- PUBLICATION (R308). -/
  | publication
  /-- VERDICT_ARRIVAL (R308). -/
  | verdictArrival
  /-- VERDICT_TIMEOUT (R309). -/
  | verdictTimeout
  /-- MIRROR_COPY_START (R311). -/
  | mirrorCopyStart
  /-- MIRROR_COPY_DONE (R312): whether the copy met a PCIe error. -/
  | mirrorCopyDone (err : Bool)
  /-- MIR_IDX_HEAD_WRITE (R312). -/
  | mirIdxHeadWrite (agent : Agent) (value : Word)
  /-- RING_ENABLE (R279): a write of CMD_CFG. -/
  | ringEnable (agent : Agent) (n : Fin 4) (value : Word)
  /-- RING_DISABLE (R279). -/
  | ringDisable (agent : Agent) (n : Fin 4)
  /-- SQ_TAIL_WRITE (R280). -/
  | sqTailWrite (agent : Agent) (n : Fin 4) (value : Word)
  /-- CQ_HEAD_WRITE (R280). -/
  | cqHeadWrite (agent : Agent) (n : Fin 4) (value : Word)
  /-- COMMAND_FETCH (R281): the words of the SQ slot as the DMA read returned them, or a PCIe error. -/
  | commandFetch (n : Fin 4) (packet : List Word) (err : Bool)
  /-- REPLY_POST (R282): whether a PCIe error meets the reply write. -/
  | replyPost (p : Path) (err : Bool)
  /-- REPLY_SENT (R284). -/
  | replySent (n : Fin 4)
  /-- POSTING_TIMEOUT (R284). -/
  | postingTimeout (n : Fin 4)
  /-- COMMAND_TIMEOUT (R292). -/
  | commandTimeout (p : Path)
  /-- MCTP_MESSAGE (R293): the sender's endpoint and its command packet. -/
  | mctpMessage (eid : Fin 256) (packet : List Word)
  /-- SET_ENDPOINT_ID (R293): the sender's endpoint and the ID it assigns. -/
  | setEndpointId (src eid : Fin 256)
  /-- GET_ENDPOINT_ID (R293). -/
  | getEndpointId (src : Fin 256)
  /-- GET_MCTP_VERSION_SUPPORT (R293). -/
  | getMctpVersionSupport (src : Fin 256)
  /-- GET_MESSAGE_TYPE_SUPPORT (R293). -/
  | getMessageTypeSupport (src : Fin 256)
  /-- GET_VENDOR_DEFINED_MSG_SUPPORT (R293). -/
  | getVendorDefinedMsgSupport (src : Fin 256)
  /-- TOLLIS_MGMT_PACKET (R294). -/
  | tollisMgmtPacket (l : Fin 2) (packet : List Word)
  /-- DEV_INFO (R298). -/
  | devInfo (h : CmdHead) (ps : List Word)
  /-- DEV_STATE (R298). -/
  | devState (h : CmdHead) (ps : List Word)
  /-- DEV_ERRORS (R298). -/
  | devErrors (h : CmdHead) (ps : List Word)
  /-- ECHO (R298). -/
  | echo (h : CmdHead) (ps : List Word)
  /-- REG_READ (R299). -/
  | regRead (h : CmdHead) (ps : List Word)
  /-- REG_WRITE (R299). -/
  | regWrite (h : CmdHead) (ps : List Word)
  /-- RESULT_CONFIG (R299). -/
  | resultConfig (h : CmdHead) (ps : List Word)
  /-- RESULT_STATUS (R299). -/
  | resultStatus (h : CmdHead) (ps : List Word)
  /-- START (R301). -/
  | start (h : CmdHead) (ps : List Word)
  /-- STOP (R302). -/
  | stop (h : CmdHead) (ps : List Word)
  /-- SLICE_MODE (R303). -/
  | sliceMode (h : CmdHead) (ps : List Word)
  /-- VP_READ (R315): Spire cycles since the Spire's last event, and VP_A. -/
  | vpRead (dt : Nat) (addr : Fin 64)
  /-- VP_HEARTBEAT (R314). -/
  | vpHeartbeat
  /-- SLICE_TICK (R323): Spire cycles since the Spire's last event; whether the bridge message's count and CRC are right. -/
  | sliceTick (dt : Nat) (intact : Bool)
  /-- TICK_MISSING (R323). -/
  | tickMissing
  /-- HEADER_COPY_RX (R324). -/
  | headerCopyRx (dt : Nat) (intact goldIntact : Bool)
  /-- JUDGE (R326). -/
  | judge (dt : Nat)
  /-- TAP_TASK (R328). -/
  | tapTask (dt : Nat)
  /-- CAL_JUDGE (R333). -/
  | calJudge (dt : Nat) (intact : Bool)
  /-- SPIRE_STATUS_TASK (R352). -/
  | spireStatusTask (dt : Nat)
  /-- SELFTEST_QUANTUM (R346): whether the quantum passes and its read-back finds both CRCs right. -/
  | selftestQuantum (dt : Nat) (pass readback : Bool)
  /-- SPIRE_IMU_SAMPLE (R328). -/
  | spireImuSample (dt : Nat) (bytes : List Nat)
  /-- SPIRE_WHEEL_FRAME (R328). -/
  | spireWheelFrame (dt ident : Nat) (data : List Nat)
  /-- TAP_IMU_TIMEOUT (R328). -/
  | tapImuTimeout
  /-- TAP_WHEEL_DISAGREE (R328). -/
  | tapWheelDisagree
  /-- TAP_POINT_RX (R329). -/
  | tapPointRx (dt : Nat) (intact : Bool)
  /-- STAGE_KICK (R338). -/
  | stageKick (dt : Nat) (intact : Bool)
  /-- WWD_CLOSE_EXPIRY (R338). -/
  | wwdCloseExpiry
  /-- WWD_RESET_TIMEOUT (R339). -/
  | wwdResetTimeout
  /-- FAULT_REPORT (R336). -/
  | faultReport (dt : Nat) (intact : Bool)
  /-- VALID_HOLD_EXPIRY (R334). -/
  | validHoldExpiry
  /-- ABANDON_NOTICE (R373). -/
  | abandonNotice (dt : Nat) (intact : Bool)
  /-- RESET_NOTICE (R365). -/
  | resetNotice (dt : Nat) (intact : Bool)
  /-- RECOVERY_COMPLETE_REPORT (R337). -/
  | recoveryCompleteReport (dt : Nat) (intact : Bool)
  /-- SCOPE_REPORT (R438). -/
  | scopeReport (dt : Nat) (intact : Bool)
  /-- SPIRE_RESET (R357). -/
  | spireReset
  /-- SAFE_STATUS (R354). -/
  | safeStatus (h : CmdHead) (ps : List Word)
  /-- SAFE_CONFIG (R353). -/
  | safeConfig (h : CmdHead) (ps : List Word)
  /-- GOLD_LOAD (R354). -/
  | goldLoad (h : CmdHead) (ps : List Word)
  /-- SAFE_CLEAR (R354). -/
  | safeClear (h : CmdHead) (ps : List Word)
  /-- SAFE_PIN_TEST (R354). -/
  | safePinTest (h : CmdHead) (ps : List Word)
  /-- SAFE_INJECT (R354). -/
  | safeInject (h : CmdHead) (ps : List Word)
  /-- POR (R359). -/
  | por
  /-- RST_IN (R359). -/
  | rstIn
  /-- SPIRE_RESET_REQUEST (R361). -/
  | spireResetRequest
  /-- DRAIN_END (R370). -/
  | drainEnd
  /-- DRAIN_TIMEOUT (R370). -/
  | drainTimeout
  /-- CAPTURE_DONE (R375). -/
  | captureDone
  /-- RESET_RELEASE (R362): spares whose self-test fails, 0x100 × kind + slot: kind 0 an array, 1 a vector core, 2 a Dome bank. -/
  | resetRelease (badSpares : List Nat)
  /-- REBUILD_DONE (R379): whether a self-test that runs in the rebuild passes. -/
  | rebuildDone (pass : Bool)
  /-- REPLAY_SUSPECT_DONE (R377). -/
  | replaySuspectDone (guilty : Bool)
  /-- REPLAY_LIMIT_EXPIRY (R377). -/
  | replayLimitExpiry
  /-- BOOT_COMPLETE (R367). -/
  | bootComplete
  /-- BOOT_ROM (R423). -/
  | bootRom
  /-- AUDIT_REQUEST (R388). -/
  | auditRequest (agent : Agent)
  /-- RCV_RESET (R398). -/
  | rcvReset (h : CmdHead) (ps : List Word)
  /-- RCV_STATUS (R398). -/
  | rcvStatus (h : CmdHead) (ps : List Word)
  /-- RCV_CAPTURE (R398). -/
  | rcvCapture (h : CmdHead) (ps : List Word)
  /-- RCV_UNREFUSE (R398). -/
  | rcvUnrefuse (h : CmdHead) (ps : List Word)
  /-- RCV_AUDIT (R398). -/
  | rcvAudit (h : CmdHead) (ps : List Word)
  /-- TOL_JOB (R398). -/
  | tolJob (h : CmdHead) (ps : List Word)
  /-- TOL_ABORT (R398). -/
  | tolAbort (h : CmdHead) (ps : List Word)
  /-- FLIT_RX (R390): whether its CRC is right; FEC codewords corrected, and symbols corrected on a lane. -/
  | flitRx (l : Fin 2) (vc : Fin 5) (good : Bool) (codewords : Nat) (lane : Fin 5) (symbols : Nat)
  /-- LINK_LOCK_LOSS (R390). -/
  | linkLockLoss (l : Fin 2) (lane : Fin 5)
  /-- LINK_RETRAIN_DONE (R390): the credits the peer advertises for VC 1 to 4. -/
  | linkRetrainDone (l : Fin 2) (adverts : List Nat)
  /-- CREDIT_RETURN (R391): toPeer: a credit this module freed has reached the peer. -/
  | creditReturn (l : Fin 2) (vc : Fin 5) (toPeer : Bool)
  /-- CREDIT_RETURNING_TIMEOUT (R391). -/
  | creditReturningTimeout (l : Fin 2) (vc : Fin 5)
  /-- RXWIN_WRITE (R392). -/
  | rxwinWrite (l : Fin 2) (vc : Fin 5) (offset : Nat) (bytes : List Nat)
  /-- ABORT_TOKEN_RX (R396). -/
  | abortTokenRx (l : Fin 2) (job origin hops seq : Nat)
  /-- MONITOR_TASK (R402): 24 temperatures in 0.1 °C, 16 voltages in mV, six rail powers in 10 mW. -/
  | monitorTask (temps : List Int) (volts powers : List Nat)
  /-- VCORE_TASK (R407). -/
  | vcoreTask
  /-- AVS_TARGET_ACK (R407). -/
  | avsTargetAck
  /-- BUTTRESS_STEP (R416): whether a Dome bank's self-test that ends here passes. -/
  | buttressStep (pass : Bool)
  /-- DOME_BANK_COPY_DONE (R416). -/
  | domeBankCopyDone
  /-- LOG_TASK (R410). -/
  | logTask
  /-- TASK_BUDGET_OVERRUN (R403): a task in the order of R402. -/
  | taskBudgetOverrun (t : Fin 7)
  /-- GET_VERSION (R426). -/
  | getVersion
  /-- GET_CAPABILITIES (R426). -/
  | getCapabilities
  /-- NEGOTIATE_ALGORITHMS (R426): the requester's masks. -/
  | negotiateAlgorithms (asym hash measHash : Nat)
  /-- GET_DIGESTS (R426). -/
  | getDigests
  /-- GET_CERTIFICATE (R426). -/
  | getCertificate (slot offset length : Nat)
  /-- CHALLENGE (R426). -/
  | challenge (slot : Nat) (nonce : List Nat)
  /-- GET_MEASUREMENTS (R427). -/
  | getMeasurements (index : Nat) (sign : Bool) (nonce : List Nat)
  /-- CUP_SENSORS (R429). -/
  | cupSensors (h : CmdHead) (ps : List Word)
  /-- LOG_READ (R411). -/
  | logRead (h : CmdHead) (ps : List Word)
  /-- FW_STATUS (R429). -/
  | fwStatus (h : CmdHead) (ps : List Word)
  /-- FW_DATA (R424). -/
  | fwData (h : CmdHead) (ps : List Word)
  /-- FW_STAGE (R424). -/
  | fwStage (h : CmdHead) (ps : List Word)
  /-- FW_VERIFY (R421). -/
  | fwVerify (h : CmdHead) (ps : List Word)
  /-- FW_COMMIT (R424). -/
  | fwCommit (h : CmdHead) (ps : List Word)
  /-- FW_ACTIVATE (R424). -/
  | fwActivate (h : CmdHead) (ps : List Word)
  /-- FW_CONFIRM (R424). -/
  | fwConfirm (h : CmdHead) (ps : List Word)
  /-- SPARE_STATUS (R429). -/
  | spareStatus (h : CmdHead) (ps : List Word)
  /-- SPARE_TEST (R415). -/
  | spareTest (h : CmdHead) (ps : List Word)
  /-- VCORE_CONFIG (R408). -/
  | vcoreConfig (h : CmdHead) (ps : List Word)
  /-- CERT_SET (R426). -/
  | certSet (h : CmdHead) (ps : List Word)
  /-- DBG_CHALLENGE (R433). -/
  | dbgChallenge (h : CmdHead) (ps : List Word)
  /-- DBG_UNLOCK (R433). -/
  | dbgUnlock (h : CmdHead) (ps : List Word)
  /-- DBG_LOCK (R443). -/
  | dbgLock (h : CmdHead) (ps : List Word)
  /-- LNT_SELECT (R443). -/
  | lntSelect (h : CmdHead) (ps : List Word)
  /-- DBG_STATUS (R443). -/
  | dbgStatus (h : CmdHead) (ps : List Word)
  /-- DBG_CATALOG (R443). -/
  | dbgCatalog (h : CmdHead) (ps : List Word)
  /-- FREEZE_ENTRY (R437): FREEZE_n has been low for 10 ns. -/
  | freezeEntry
  /-- FREEZE_EXIT (R440): FREEZE_n has been high for 10 ns. -/
  | freezeExit
  /-- EXTEST (R441). -/
  | extest
  /-- SAMPLE_PRELOAD (R441). -/
  | samplePreload
  /-- CLAMP (R441). -/
  | clamp
  /-- SYSRESET (R441). -/
  | sysreset
  /-- IJTAG (R442). -/
  | ijtag
  /-- BYPASS (R441). -/
  | bypass
  /-- INSTRUMENT_SHIFT (R442). -/
  | instrumentShift (what : Instrument)
  /-- PERST (R448). -/
  | perst
  /-- POWER_LOSS (R454): which dies lose their supply. -/
  | powerLoss (main spire : Bool)
  /-- FRAME_START (R159): the frame number, and the time of the LP-to-HS transition on data lane 0 before the short packet, in 2⁻¹⁶ ns (R55). -/
  | frameStart (ch : Fin 16) (vc : Fin 4) (number stamp : Nat)
  /-- LINK_UP (R100). -/
  | linkUp (ch : Fin 32)
  /-- PAUSE_EXPIRY (R96). -/
  | pauseExpiry (port : Fin 8) (classes : List (Fin 8))
  /-- SLEW_ABSORBED (R43). -/
  | slewAbsorbed
  /-- PTP_MESSAGE_INTERVAL_EXPIRY (R63). -/
  | ptpMessageIntervalExpiry (port : Fin 10) (kind : PtpTx)
  /-- BANK_PASSAGE_COMPLETE (R98). -/
  | bankPassageComplete (ch : Fin 32)
  /-- TAG_RELEASE_CROSSING (R196). -/
  | tagReleaseCrossing
  /-- CQ_HEAD_RELEASE_CROSSING (R284). -/
  | cqHeadReleaseCrossing (n : Fin 4)
  /-- SPIRE_HARDWARE_FAULT (R336): bits 0, 1, 3 and 4; bit 2 is a self-test failure. -/
  | spireHardwareFault (dt : Nat) (bit : Fin 5)
  /-- RST_IN_RELEASE (R362). -/
  | rstInRelease
  /-- PERST_RELEASE (R448). -/
  | perstRelease
  deriving DecidableEq, Repr

end Sys2Proof
end

