-- ==== Sys2Proof/WellFormed.lean ====
section
/-! DEFINITION. Well-formed commands: every operand lies in the range its row's rules give it. Operands whose type is
already their range need no check. -/
namespace Sys2Proof

/-- An address of BAR0, the 64 MiB register space (R3). -/
def inBar0 (a : Nat) : Bool := decide (a < 0x04000000)

/-- Every number is a byte. -/
def bytesOk (bs : List Nat) : Bool := bs.all (fun b => decide (b < 256))

/-- A packet header's fields fit their bits, and LENGTH is at most 4,094 (R286). -/
def commandOk (h : CmdHead) (ps : List Word) : Bool :=
  decide (h.tag < 2 ^ 16 ∧ h.seq < 2 ^ 16 ∧ h.context < 2 ^ 16 ∧ ps.length ≤ 4094)

/-- Well-formed commands. -/
def Instr.wf (i : Instr) : Bool :=
  match i with
  | .registerWrite _ addr _ _ _ => inBar0 addr
  | .rcRead _ addr _ cross => inBar0 addr && decide (cross < 2 ^ 32)
  | .badSizeAccess _ addr size _ _ _ => inBar0 addr && decide (1 ≤ size)
  | .barMemoryAccess bar4 write addr len bytes _ => decide (addr + len ≤ (if bar4 then 2 ^ 34 else 2 ^ 27)) && bytesOk bytes && (!write || bytes.length == len)
  | .rateUpdate counts => counts.length == 64
  | .ptpFrameRx _ _ bytes _ frame got => decide (frame.length * 4 ≤ bytes + 3) && bytesOk got
  | .pauseFrameRx _ _ time got => decide (time < 2 ^ 16) && bytesOk got
  | .packetStart _ _ _ got early => bytesOk got && bytesOk early
  | .packetEnd _ bytes _ => bytesOk bytes
  | .packetTimeout _ got => bytesOk got
  | .linkLoss _ got => bytesOk got
  | .consumerPacketDone _ more => bytesOk more
  | .fuseEnd values => values.all (fun v => decide (v < 2 ^ 32))
  | .itemStart _ _ unit _ => decide (unit < 2 ^ 8)
  | .tagGrant req => decide (1 ≤ req.len ∧ req.len ≤ 128 ∧ req.addr < 2 ^ 34)
  | .commandFetch _ packet _ => decide (packet.length ≤ 8192)
  | .mctpMessage _ packet => decide (packet.length ≤ 1024)
  | .tollisMgmtPacket _ packet => decide (packet.length ≤ 1024)
  | .spireImuSample _ bytes => bytesOk bytes
  | .spireWheelFrame _ ident data => decide (ident < 2 ^ 29) && decide (data.length ≤ 8) && bytesOk data
  | .resetRelease badSpares => badSpares.all (fun x => decide (x < 0x300))
  | .linkRetrainDone _ adverts => adverts.length == 4
  | .rxwinWrite _ _ _ bytes => bytesOk bytes
  | .monitorTask temps volts powers => temps.length == 24 && volts.length == 16 && powers.length == 6
  | .getCertificate _ offset length => decide (offset < 2 ^ 16 ∧ length < 2 ^ 16)
  | .challenge _ nonce => nonce.length == 32 && bytesOk nonce
  | .getMeasurements _ _ nonce => nonce.length == 32 && bytesOk nonce
  | .frameStart _ _ number _ => decide (number < 2 ^ 16)
  | .unmappedAccess _ addr _ _ | .lowWordRead _ addr | .lowWordWrite _ addr _ | .highWordWrite _ addr _
  | .broadcastWrite _ addr _ | .groupWrite _ addr _ | .poolConfigWrite _ addr _ => inBar0 addr
  | .timeGet h ps | .timeSet h ps | .timeAdjust h ps | .timeSetRate h ps | .ptpConfig h ps | .ptpPortConfig h ps
  | .ptpStatus h ps | .trigConfig h ps | .capConfig h ps | .cmpConfig h ps | .txqRead h ps | .ptpTxFrame h ps
  | .ptpRxFrame h ps | .ingConfig h ps | .ingSourceConfig h ps | .ingEnable h ps | .ingFlush h ps | .ingStatus h ps
  | .ingLedger h ps | .ingGroupMask h ps | .slcChConfig h ps | .slcChStatus h ps | .slcLimits h ps | .slcSetToff h ps
  | .egoConfig h ps | .egoGet h ps | .egoReset h ps | .modelLoad h ps | .modelUnload h ps | .wlLoad h ps
  | .wlActivate h ps | .wlDiscard h ps | .wlInfo h ps | .slvModelLoad h ps | .slvModelActivate h ps
  | .slvModelDiscard h ps | .slvConfig h ps | .slvStatus h ps | .slvTestSolve h ps | .devInfo h ps | .devState h ps
  | .devErrors h ps | .echo h ps | .regRead h ps | .regWrite h ps | .resultConfig h ps | .resultStatus h ps
  | .start h ps | .stop h ps | .sliceMode h ps | .safeStatus h ps | .safeConfig h ps | .goldLoad h ps
  | .safeClear h ps | .safePinTest h ps | .safeInject h ps | .rcvReset h ps | .rcvStatus h ps | .rcvCapture h ps
  | .rcvUnrefuse h ps | .rcvAudit h ps | .tolJob h ps | .tolAbort h ps | .cupSensors h ps | .logRead h ps
  | .fwStatus h ps | .fwData h ps | .fwStage h ps | .fwVerify h ps | .fwCommit h ps | .fwActivate h ps
  | .fwConfirm h ps | .spareStatus h ps | .spareTest h ps | .vcoreConfig h ps | .certSet h ps | .dbgChallenge h ps
  | .dbgUnlock h ps | .dbgLock h ps | .lntSelect h ps | .dbgStatus h ps | .dbgCatalog h ps => commandOk h ps
  | .phaseAdjust .. | .blfRateWrite .. | .xtsCapture .. | .sliceBoundary | .sliceClose | .cmpFire .. | .cmpArm ..
  | .trigModeWrite .. | .trigEdge .. | .trigPulseEnd .. | .capEdge .. | .capPop .. | .txStamp .. | .txqPop ..
  | .announceReceiptTimeout .. | .syncReceiptTimeout | .hostHoldoverTimeout | .ppsEdgeMissing | .pfcRefresh ..
  | .bankInFlightTimeout .. | .flushRequest .. | .flushTakeEffect .. | .receiverStop .. | .encoderEdge ..
  | .encoderReport .. | .spiSampleRead .. | .syncWindowEnd | .silentTimeout .. | .knotDue | .knotWaitExpiry
  | .initEnd | .wheelAbsentTimeout | .imuAbsentTimeout | .imuOnlyMaxExpiry | .extrapMaxExpiry | .imuPrimaryReturn
  | .zuptDetect | .alignEnd | .voxelStart | .pointInsert .. | .voxelEnd | .vheClearDone | .frameLineTimeout ..
  | .meshBuildDone .. | .cameraStart | .frameReport .. | .cameraEnd | .fuseStart | .calSolve | .calReply
  | .calNoreply | .itemComplete .. | .itemBudgetExpiry .. | .memoryAccessComplete .. | .eccRewrite ..
  | .tagReturningTimeout | .trackStart | .attend | .kvAppend | .kvOpen | .kvReset | .kvClose | .trackCommit
  | .trackEnd | .migrate .. | .migrationCopyDone | .migrationSourceRelease | .migrationTimeout | .pageLedgerRebuild
  | .solveStart | .solveDeadline .. | .solveReturn | .coldReq .. | .publication | .verdictArrival | .verdictTimeout
  | .mirrorCopyStart | .mirrorCopyDone .. | .mirIdxHeadWrite .. | .ringEnable .. | .ringDisable .. | .sqTailWrite ..
  | .cqHeadWrite .. | .replyPost .. | .replySent .. | .postingTimeout .. | .commandTimeout .. | .setEndpointId ..
  | .getEndpointId .. | .getMctpVersionSupport .. | .getMessageTypeSupport .. | .getVendorDefinedMsgSupport ..
  | .vpRead .. | .vpHeartbeat | .sliceTick .. | .tickMissing | .headerCopyRx .. | .judge .. | .tapTask ..
  | .calJudge .. | .spireStatusTask .. | .selftestQuantum .. | .tapImuTimeout | .tapWheelDisagree | .tapPointRx ..
  | .stageKick .. | .wwdCloseExpiry | .wwdResetTimeout | .faultReport .. | .validHoldExpiry | .abandonNotice ..
  | .resetNotice .. | .recoveryCompleteReport .. | .scopeReport .. | .spireReset | .por | .rstIn | .spireResetRequest
  | .drainEnd | .drainTimeout | .captureDone | .rebuildDone .. | .replaySuspectDone .. | .replayLimitExpiry
  | .bootComplete | .bootRom | .auditRequest .. | .flitRx .. | .linkLockLoss .. | .creditReturn ..
  | .creditReturningTimeout .. | .abortTokenRx .. | .vcoreTask | .avsTargetAck | .buttressStep .. | .domeBankCopyDone
  | .logTask | .taskBudgetOverrun .. | .getVersion | .getCapabilities | .negotiateAlgorithms .. | .getDigests
  | .freezeEntry | .freezeExit | .extest | .samplePreload | .clamp | .sysreset | .ijtag | .bypass
  | .instrumentShift .. | .perst | .powerLoss .. | .linkUp .. | .pauseExpiry .. | .slewAbsorbed
  | .ptpMessageIntervalExpiry .. | .bankPassageComplete .. | .tagReleaseCrossing | .cqHeadReleaseCrossing ..
  | .spireHardwareFault .. | .rstInRelease | .perstRelease => true

end Sys2Proof
end

