-- ==== Sys2Proof/Decode.lean ====
section
/-! DEFINITION. The command that a word spells. The rows of spec/opcode_table.json give no bits: commands reach this block
as accesses, packets and events, and none of them is spelled by an instruction word. -/
namespace Sys2Proof

/-- The command that the table's bits spell in a word: no row gives bits, so no word spells a command (DEDUCED, log entry 1). -/
def decodeTableWord (_nbits _w : Nat) : Option Instr := none

end Sys2Proof
end

