-- ==== Sys2Proof/Config.lean ====
section
/-! DEFINITION. What one implementation fixes and the manual leaves open: opaque constants, so that no proof can
rest on a value of them. Every one is named in the assumption log. -/
namespace Sys2Proof.Config

/-- The free values of the model: the n-th value the manual leaves open along a run (DESIGN CHOICE, log entry 4). -/
opaque free : Nat → Nat

/-- A free real result, for outputs the manual gives no arithmetic for (DESIGN CHOICE, log entry 4). -/
opaque freeRat : Nat → Rat

/-- The fused 64-bit serial number (DEV_SERIAL, R318). -/
opaque serial : Nat

/-- The fused reset-level map (RST_FUSE_MAP, R399): two bits a source. -/
opaque fuseMap : Nat

/-- Whether the per-cycle slew step, SLEW_PPM × 10⁻⁶ ns, is rounded up to a unit of 2⁻⁴⁸ ns (R39 gives no rounding). -/
opaque slewRoundsUp : Nat → Bool

/-- The clockIdentity of the Belfry and its offsetScaledLogVariance, which PTP_CONFIG does not set (R59, R73). -/
opaque clockIdentity : Nat
opaque clockVariance : Nat

/-- The severity of an event log entry by its code: R409 names the field and gives no severity for a code. -/
opaque logSeverity : Nat → Nat

/-- The number that stands for an agent in an event log argument (R409 gives none). -/
opaque agentCode : Nat → Nat

/-- Whether a quotient for which the manual gives no rounding is rounded up when it is not whole. -/
opaque roundsUp : Int → Nat → Bool

/-- The square root of a non-negative number, as the hardware's arithmetic gives it: no accuracy is stated. -/
opaque root : Rat → Rat

/-- The quaternion exp(½ ω Δ) of a rotation vector ω Δ (R117): four numbers w, x, y, z. -/
opaque rotExp : List Rat → List Rat

/-- A quaternion renormalised (R117). -/
opaque renormalise : List Rat → List Rat

/-- The attitude that levels a mean specific force, with yaw 0 (R118 INIT). -/
opaque levelAttitude : List Rat → List Rat

/-- The spherical interpolation of two attitudes at a fraction (R121). -/
opaque slerp : List Rat → List Rat → Rat → List Rat

/-- The integrator's pose at a knot time between two integration steps: the manual gives no rule (R120). -/
opaque knotBetween : List Rat → List Rat → Rat → List Rat

/-- The edge-directed interpolation of a component that a pixel does not measure (R157): the colour it measures, the
component, and the 5 × 5 window about it. -/
opaque demosaic : Nat → Nat → List Nat → Nat

/-- How far a mesh point may lie from the lens model, of which R158 bounds the size: lens settings, mesh row, column. -/
opaque meshDev : List Nat → Nat → Nat → Rat × Rat

/-- The FP32 pattern nearest a vector core's function of a pattern, by the function's number (R186): mathematics gives the
real functions, which the model does not compute; for NaNs, infinities and points outside a domain nothing gives one. -/
opaque vecReal : Nat → Nat → Nat

/-- How many ulp a vector core's function lies off, of which R186 bounds the size. -/
opaque vecUlp : Nat → Nat → Int

/-- The angle of a tangent, as the firmware computes it (R158). -/
opaque arctan : Rat → Rat

/-- The feature maps that the work list's camera phase makes of a frame (R161, R164): the stride in pixels, an element by
camera, frame time, row and column, and the weight of a contribution by camera and camera-frame point. -/
opaque featureStride : Nat
opaque featureMap : Nat → Nat → Nat → Nat → Rat
opaque liftWeight : Nat → List Rat → Rat

/-- The value the fusion head gives a block of cells (R165): draw, tile x, tile y, cell i, cell j; OCC, CLASS and
HEIGHT. -/
opaque fusionHead : Nat → Int → Int → Nat → Nat → Nat × Nat × Nat

/-- The residual that a point of a scanner, or a level P voxel seen by a camera, gives a calibration update, if it gives
one (R169 names its kind and not its arithmetic): draw, number; its gradient in B and its value. -/
opaque calResidual : Nat → Nat → Option (List Rat × Rat)

/-- The rotation vector of a composed correction, log(R(a) R(b)), in the unit of its arguments (R170): degrees. -/
opaque rotLog : List Rat → List Rat → List Rat

/-- Degrees of a rotation given in nrad, and nrad of one given in degrees (R170, R175). -/
opaque nradToDeg : Rat → Rat
opaque degToNrad : Rat → Rat

/-- The ingress tap's LFSR after one point, and whether the point it stood at is selected (R329): the manual gives
neither the polynomial nor the compare. -/
opaque tapNext : Nat → Nat
opaque tapPick : Nat → Bool

/-- A VHE lane's generator after one draw, and whether a draw replaces with probability 1 / n (R144): the manual gives
no generator. -/
opaque laneNext : Nat → Nat
opaque laneHit : Nat → Nat → Bool

/-- The order in which the n values of a sum reach it, by a draw (R208). -/
opaque arrival : Nat → Nat → List Nat

/-- How the sequencer forms its outputs, where R226 gives the sum and the quotient and no order of roundings: 0, the value
sums of a block start from the running output; 1, the division is by a reciprocal. -/
opaque attnForm : Nat → Bool

/-- The order in which the factorisation pipe adds the n products of a sum: fixed for given sizes, active set and place in
its sequence, and not given (R251). -/
opaque pipeOrder : List Nat → Nat → List Nat

/-- How many ulp a RSQRT lies off, of which R252 bounds the size: operand. -/
opaque rsqrtUlp : Nat → Int

/-- Word 3 of a control section whose solve computed no residual: the same for the same inputs (R266, R270). -/
opaque slvNoResidual : List Nat → Nat

/-- A byte of the stored solution in the Dome, whose layout the manual does not give (R271): its contents, offset. -/
opaque slvStoreByte : List Int → Nat → Nat

/-- A byte of the assembled area, whose layout the manual does not give (R250 step 6): draw, offset. -/
opaque slvArea : Nat → Nat → Nat

/-- How many check values a rotation of a golden image has, and the expected value, ABS and REL of each as FP32 (R344):
the CRC of the image, rotation, index. -/
opaque goldCount : Nat → Nat → Nat
opaque goldBand : Nat → Nat → Nat → Nat × Nat × Nat

/-- A unit's state in its own layout within a capture record, as bytes (R375 gives no layout): draw. -/
opaque unitState : Nat → List Nat

/-- The row of an SRAM store in which a word lies, and the macro of a row (R417 gives no geometry): store, address. -/
opaque sramRow : Nat → Nat → Nat
opaque sramMacro : Nat → Nat

/-- A canary's baseline rate in MHz for a VDD_CORE target in mV and the temperatures, and the unit next to it (R404,
R415). -/
opaque canaryBase : Nat → Nat → List Nat → Nat
opaque canaryUnit : Nat → Nat

/-- SHA-384 and SHA-256 of bytes, and the verification of ECDSA P-384 and LMS signatures: public key, signature, message
(R420, R427, R432). -/
opaque sha384 : List Nat → List Nat
opaque sha256 : List Nat → List Nat
opaque ecdsaGood : List Nat → List Nat → List Nat → Bool
opaque lmsGood : List Nat → List Nat → List Nat → Bool

/-- The signature of a message by the device identity key (R426). -/
opaque identitySign : List Nat → List Nat

/-- The fused key hashes by slot and whether a slot is revoked: ECDSA and LMS firmware keys, debug keys (R420, R433). -/
opaque ecdsaKeyHash : Nat → List Nat
opaque ecdsaRevoked : Nat → Bool
opaque lmsKeyHash : Nat → List Nat
opaque lmsRevoked : Nat → Bool
opaque debugKeyHash : Nat → List Nat
opaque debugRevoked : Nat → Bool

/-- The anti-rollback bits blown at manufacture and by earlier updates (R422). -/
opaque rollback : Nat

/-- The firmware bytes that the integrator programmed in a bank (R412), and their version word where the running image
came from there. -/
opaque flashBank : Nat → List Nat

/-- The device identity chain of slot 0, and whether a chain ends in a certificate for the same key (R426). -/
opaque certChain : List Nat
opaque certFits : List Nat → Bool

/-- The boot ROM's digest and the Spire ROM's version (R427). -/
opaque romDigest : List Nat
opaque spireRom : Nat

/-- The value of a Lantern signal: signal, draw (R434, R435). -/
opaque signal : Nat → Nat → Bool

/-- Whether a Lantern signal was 1 at a moment of the sample interval other than its sample: signal, draw (R436). -/
opaque signalEver : Nat → Nat → Bool

/-- What DBG_CATALOG tells of a signal: kind, domain, and six words of name (R443). -/
opaque signalKind : Nat → Nat
opaque signalDomain : Nat → Nat
opaque signalName : Nat → List Nat

/-- A state chain's bits, by unit and draw, and the check bits of a 64-bit word (R442). -/
opaque chainBits : Nat → Nat → List Nat
opaque checkBits : Nat → Nat

end Sys2Proof.Config
end

