-- ==== Sys2Proof/Machine/Cells.lean ====
section
/-! DEFINITION. The canonical sparse store: a list of key and value pairs with strictly rising keys and no entry
equal to what its unlisted key reads as, so that equal contents are equal data. -/
namespace Sys2Proof.Machine

/-- A sparse store: key and value pairs. -/
abbrev Cells (β : Type) := List (Nat × β)

/-- What key a reads as: its entry, or the default of an unlisted key. -/
def cellsGet {β : Type} (d : Nat → β) : Cells β → Nat → β
  | [], a => d a
  | (k, v) :: r, a => if a = k then v else if a < k then d a else cellsGet d r a

/-- An entry put at the head of the rest, left out when it equals the default of its key. -/
def cellsCons {β : Type} [DecidableEq β] (d : Nat → β) (a : Nat) (v : β) (r : Cells β) : Cells β :=
  if v = d a then r else (a, v) :: r

/-- Write v at key a, keeping the canonical form. -/
def cellsSet {β : Type} [DecidableEq β] (d : Nat → β) : Cells β → Nat → β → Cells β
  | [], a, v => cellsCons d a v []
  | (k, w) :: r, a, v =>
    if a = k then cellsCons d a v r
    else if a < k then cellsCons d a v ((k, w) :: r)
    else (k, w) :: cellsSet d r a v

/-- Every key of the store lies above n, keys rise strictly and no entry equals its default. -/
def cellsAbove {β : Type} [DecidableEq β] (d : Nat → β) (n : Option Nat) : Cells β → Bool
  | [] => true
  | (k, v) :: r =>
    (match n with | none => true | some m => decide (m < k)) && !decide (v = d k) && cellsAbove d (some k) r

/-- The canonical form of a store. -/
def cellsWf {β : Type} [DecidableEq β] (d : Nat → β) (m : Cells β) : Bool := cellsAbove d none m

/-- Drop every entry whose key satisfies p: those keys read as their default again. -/
def cellsClear {β : Type} (p : Nat → Bool) (m : Cells β) : Cells β := m.filter (fun e => !p e.1)

end Sys2Proof.Machine
end

