-- ==== Sys2Proof/Machine/Bits.lean ====
section
/-! DEFINITION. Bit fields, two's complement, byte order and the CRC-32C of the packets and images. -/
namespace Sys2Proof.Machine

/-- A bit field [hi:lo] of a word. -/
structure Bits where
  hi : Nat
  lo : Nat
  deriving DecidableEq, Repr

/-- How many bits a field has. -/
def bitsWidth (f : Bits) : Nat := f.hi + 1 - f.lo

/-- The mask of a field within a natural number. -/
def bitsMask (f : Bits) : Nat := (2 ^ bitsWidth f - 1) * 2 ^ f.lo

/-- The value of field [hi:lo] of a natural number. -/
def natField (hi lo w : Nat) : Nat := w / 2 ^ lo % 2 ^ (hi + 1 - lo)

/-- The value of a field of a register word. -/
def getBits (f : Bits) (w : Word) : Nat := natField f.hi f.lo w.toNat

/-- A register word with a field replaced; a value too wide for the field keeps its low bits. -/
def setBits (f : Bits) (w : Word) (v : Nat) : Word :=
  BitVec.ofNat 32 (w.toNat - getBits f w * 2 ^ f.lo + v % 2 ^ bitsWidth f * 2 ^ f.lo)

/-- Bit n of a natural number. -/
def bitOf (n w : Nat) : Bool := w / 2 ^ n % 2 == 1

/-- One or zero. -/
def b2n (b : Bool) : Nat := if b then 1 else 0

/-- An n-bit two's complement pattern read as an integer. -/
def signed (n w : Nat) : Int :=
  if w % 2 ^ n < 2 ^ (n - 1) then (w % 2 ^ n : Nat) else ((w % 2 ^ n : Nat) : Int) - (2 ^ n : Nat)

/-- An integer as an n-bit two's complement pattern, modulo 2^n. -/
def unsigned (n : Nat) (i : Int) : Nat := (i % (2 ^ n : Nat)).toNat

/-- An integer clamped to a range. -/
def clampInt (lo hi i : Int) : Int := if i < lo then lo else if i > hi then hi else i

/-- A natural number clamped above. -/
def clampNat (hi n : Nat) : Nat := if n > hi then hi else n

/-- The n low bytes of a number, lowest first (little-endian). -/
def toBytes : Nat → Nat → List Nat
  | 0, _ => []
  | n + 1, v => v % 256 :: toBytes n (v / 256)

/-- The number that little-endian bytes spell. -/
def ofBytes : List Nat → Nat
  | [] => 0
  | b :: bs => b % 256 + 256 * ofBytes bs

/-- Words of four little-endian bytes; a short tail is padded with zero bytes. -/
def wordsOfBytes : List Nat → List Nat
  | [] => []
  | a :: b :: c :: d :: r => ofBytes [a, b, c, d] :: wordsOfBytes r
  | r => [ofBytes r]

/-- The bytes of words, four to a word, little-endian. -/
def bytesOfWords (ws : List Nat) : List Nat := ws.flatMap (toBytes 4)

/-- Bytes lo … of a list, n of them. -/
def slice {α : Type} (lo n : Nat) (l : List α) : List α := (l.drop lo).take n

/-- One bit step of CRC-32C (R287), reflected: polynomial 0x82F6_3B78. -/
def crcBit (c : Nat) : Nat := if c % 2 == 1 then (c / 2) ^^^ 0x82F63B78 else c / 2

/-- One byte of CRC-32C. -/
def crcByte (c b : Nat) : Nat :=
  crcBit (crcBit (crcBit (crcBit (crcBit (crcBit (crcBit (crcBit (c ^^^ (b % 256)))))))))

/-- CRC-32C over bytes: reflected, all ones at the start, complemented at the end (R287). -/
def crc32c (bs : List Nat) : Nat := (bs.foldl crcByte 0xFFFFFFFF) ^^^ 0xFFFFFFFF

/-- Split a list into runs of n (n positive), with fuel. -/
def chunksAux {α : Type} (n : Nat) : Nat → List α → List (List α)
  | 0, _ => []
  | k + 1, l => if l.isEmpty then [] else l.take n :: chunksAux n k (l.drop n)

/-- A list cut into runs of n; the last may be short. -/
def chunks {α : Type} (n : Nat) (l : List α) : List (List α) := chunksAux n l.length l

/-- A list with element n replaced; unchanged when n is out of range. -/
def setNth {α : Type} (l : List α) (n : Nat) (a : α) : List α := l.set n a

/-- Element n of a list, or the default given. -/
def nth {α : Type} (l : List α) (n : Nat) (d : α) : α := (l[n]?).getD d

/-- The numbers 0 … 31 whose bit is set in a mask. -/
def maskBits (width m : Nat) : List Nat := (List.range width).filter (fun n => bitOf n m)

end Sys2Proof.Machine
end

