-- ==== Sys2Proof/Machine/Fp.lean ====
section
/-! DEFINITION. Binary floating-point formats as exact rationals, with rounding to nearest, ties to even. -/
namespace Sys2Proof.Machine

/-- The magnitude of a rational. -/
def ratAbs (r : Rat) : Rat := if r < 0 then -r else r

/-- 2 to an integer power. -/
def pow2 (i : Int) : Rat := if 0 ≤ i then ((2 ^ i.toNat : Nat) : Rat) else 1 / ((2 ^ (-i).toNat : Nat) : Rat)

/-- The value of a pattern: a number, an infinity (negative?), or a NaN. -/
inductive FpVal where
  | num (r : Rat)
  | inf (neg : Bool)
  | nan
  deriving DecidableEq, Repr

/-- A binary format: exponent and fraction bits, and whether the top exponent holds infinities and NaNs. -/
structure FpFmt where
  ebits : Nat
  mbits : Nat
  special : Bool
  deriving DecidableEq, Repr

/-- The exponent bias of a format. -/
def fpBias (f : FpFmt) : Int := (2 ^ (f.ebits - 1) : Nat) - 1

def fp32 : FpFmt := ⟨8, 23, true⟩
def bf16 : FpFmt := ⟨8, 7, true⟩
def fp16 : FpFmt := ⟨5, 10, true⟩

/-- The value of a finite pattern's magnitude. -/
def fpMag (f : FpFmt) (e m : Nat) : Rat :=
  if e = 0 then (m : Rat) * pow2 (1 - fpBias f - f.mbits)
  else ((2 ^ f.mbits + m : Nat) : Rat) * pow2 ((e : Int) - fpBias f - f.mbits)

/-- Decode a pattern of an IEEE-style format. -/
def fpDecode (f : FpFmt) (w : Nat) : FpVal :=
  let m := w % 2 ^ f.mbits
  let e := w / 2 ^ f.mbits % 2 ^ f.ebits
  let neg := bitOf (f.mbits + f.ebits) w
  if f.special && e == 2 ^ f.ebits - 1 then (if m = 0 then .inf neg else .nan)
  else .num (if neg then -(fpMag f e m) else fpMag f e m)

/-- Whether a pattern is a NaN. -/
def fpIsNan (f : FpFmt) (w : Nat) : Bool := fpDecode f w == .nan

/-- The number of a pattern; 0 for an infinity or a NaN. -/
def fpRat (f : FpFmt) (w : Nat) : Rat := match fpDecode f w with | .num r => r | _ => 0

/-- Whether a pattern is a finite number. -/
def fpFinite (f : FpFmt) (w : Nat) : Bool := match fpDecode f w with | .num _ => true | _ => false

/-- The floor of the base-2 logarithm of a positive rational. -/
def ratLog2 (r : Rat) : Int :=
  let g : Int := (Nat.log2 r.num.natAbs : Int) - Nat.log2 r.den
  if pow2 g ≤ r then (if pow2 (g + 1) ≤ r then g + 1 else g) else g - 1

/-- Round a non-negative rational to a whole number, ties to even. -/
def rneNat (r : Rat) : Nat :=
  let n := r.num.natAbs
  let d := r.den
  let q := n / d
  let rem := n % d
  if 2 * rem < d then q else if 2 * rem > d then q + 1 else if q % 2 = 0 then q else q + 1

/-- Round a rational to a whole number, ties to even. -/
def rneInt (r : Rat) : Int := if r < 0 then -(rneNat (-r) : Int) else rneNat r

/-- Round a rational to a whole number, ties away from zero. -/
def roundAway (r : Rat) : Int := if r < 0 then -((-r + 1 / 2).floor) else (r + 1 / 2).floor

/-- The largest finite magnitude pattern of a format, without its sign. -/
def fpMaxPat (f : FpFmt) : Nat := if f.special then (2 ^ f.ebits - 1) * 2 ^ f.mbits - 1 else 2 ^ (f.ebits + f.mbits) - 1

/-- A magnitude rounded to a format's pattern, to nearest, ties to even; past the largest finite value it gives the
pattern that follows it. -/
def fpRoundMag (f : FpFmt) (r : Rat) : Nat :=
  if r = 0 then 0
  else
    let e := ratLog2 r
    let emin := 1 - fpBias f
    let e1 := if e < emin then emin else e
    let q := rneNat (r * pow2 (f.mbits - e1))
    let pat : Int := (e1 - emin) * (2 ^ f.mbits : Nat) + q
    if pat > (fpMaxPat f : Int) then fpMaxPat f + 1 else pat.toNat

/-- Encode a rational: to nearest, ties to even; overflow gives an infinity. -/
def fpEncode (f : FpFmt) (r : Rat) : Nat :=
  (if r < 0 then 2 ^ (f.ebits + f.mbits) else 0) + fpRoundMag f (if r < 0 then -r else r)

/-- The FP32 value nearest a rational. -/
def toFp32 (r : Rat) : Nat := fpEncode fp32 r

/-- The number an FP32 pattern holds. -/
def ofFp32 (w : Nat) : Rat := fpRat fp32 w

/-- A rational rounded to FP32, as a rational; a magnitude past the range keeps its value. -/
def round32Fp (r : Rat) : Rat := if fpFinite fp32 (toFp32 r) then ofFp32 (toFp32 r) else r

/-- A rational whose rounding to whole units the manual does not give: one of the two nearest whole numbers. -/
def ratFree (r : Rat) : Int := r.num / r.den + (if r.den = 1 then 0 else if Config.roundsUp r.num r.den then 1 else 0)

/-- A magnitude taken to one of the two FP32 patterns beside it: the manual gives no rounding for the value. -/
def fp32FreeMag (r : Rat) : Nat :=
  if r = 0 then 0
  else
    let e := ratLog2 r
    let e1 := if e < -126 then -126 else e
    let pat : Int := (e1 + 126) * (2 ^ 23 : Nat) + ratFree (r * pow2 (23 - e1))
    if pat > 0x7F7FFFFF then 0x7F800000 else pat.toNat

/-- A rational as FP32 where the manual gives no rounding. -/
def fp32Free (r : Rat) : Nat := (if r < 0 then 2 ^ 31 else 0) + fp32FreeMag (if r < 0 then -r else r)

end Sys2Proof.Machine
end

