-- ==== Sys2Proof/Machine/Geom.lean ====
section
/-! DEFINITION. Vectors, quaternions and poses over exact rationals (R117, R121, R123). -/
namespace Sys2Proof.Machine

/-- Element i of a vector. -/
def vget (v : List Rat) (i : Nat) : Rat := nth v i 0
/-- The sum of two vectors. -/
def vadd (a b : List Rat) : List Rat := List.zipWith (· + ·) a b
/-- The difference of two vectors. -/
def vsub (a b : List Rat) : List Rat := List.zipWith (· - ·) a b
/-- A scaled vector. -/
def vscale (k : Rat) (a : List Rat) : List Rat := a.map (k * ·)
/-- The inner product. -/
def vdot (a b : List Rat) : Rat := (List.zipWith (· * ·) a b).sum
/-- The vector product. -/
def vcross (a b : List Rat) : List Rat :=
  [vget a 1 * vget b 2 - vget a 2 * vget b 1, vget a 2 * vget b 0 - vget a 0 * vget b 2,
   vget a 0 * vget b 1 - vget a 1 * vget b 0]
/-- The zero vector. -/
def vzero : List Rat := [0, 0, 0]
/-- The identity quaternion. -/
def qone : List Rat := [1, 0, 0, 0]

/-- The quaternion product a ⊗ b. -/
def qmul (a b : List Rat) : List Rat :=
  let w := vget a 0 * vget b 0 - vdot (a.drop 1) (b.drop 1)
  w :: vadd (vadd (vscale (vget a 0) (b.drop 1)) (vscale (vget b 0) (a.drop 1))) (vcross (a.drop 1) (b.drop 1))

/-- The conjugate of a quaternion. -/
def qconj (a : List Rat) : List Rat := vget a 0 :: vscale (-1) (a.drop 1)

/-- A vector rotated by a unit quaternion. -/
def qrot (q v : List Rat) : List Rat := (qmul (qmul q (0 :: v)) (qconj q)).drop 1

/-- A pose of B in L with its motion: position, attitude, velocity in L, and rate in B (R120). -/
structure Pose where
  p : List Rat
  q : List Rat
  v : List Rat
  w : List Rat
  deriving DecidableEq, Repr

/-- The identity pose at rest. -/
def Pose.still : Pose := ⟨vzero, qone, vzero, vzero⟩

/-- A pose as 13 numbers, for the functions the manual gives no arithmetic for. -/
def poseList (a : Pose) : List Rat := a.p ++ a.q ++ a.v ++ a.w

/-- The pose 13 numbers give. -/
def poseOf (l : List Rat) : Pose := ⟨slice 0 3 l, slice 3 4 l, slice 7 3 l, slice 10 3 l⟩

/-- The cubic Hermite curve through two positions and velocities over d seconds, at a fraction u (R121). -/
def hermite (p0 v0 p1 v1 : List Rat) (d u : Rat) : List Rat :=
  vadd (vadd (vscale (2 * u ^ 3 - 3 * u ^ 2 + 1) p0) (vscale ((u ^ 3 - 2 * u ^ 2 + u) * d) v0))
    (vadd (vscale (-2 * u ^ 3 + 3 * u ^ 2) p1) (vscale ((u ^ 3 - u ^ 2) * d) v1))

/-- The linear interpolation of two vectors. -/
def lerp (a b : List Rat) (u : Rat) : List Rat := vadd (vscale (1 - u) a) (vscale u b)

/-- The pose between two knots d seconds apart, at a fraction u (R121). -/
def poseBetween (a b : Pose) (d u : Rat) : Pose :=
  ⟨hermite a.p a.v b.p b.v d u, Config.slerp a.q b.q u, lerp a.v b.v u, lerp a.w b.w u⟩

/-- A pose extrapolated for d seconds at its own velocity and rate (R121). -/
def poseAhead (a : Pose) (d : Rat) : Pose :=
  ⟨vadd a.p (vscale d a.v), Config.renormalise (qmul a.q (Config.rotExp (vscale d a.w))), a.v, a.w⟩

/-- The point x of B at one pose, seen in B at another: T(b)⁻¹ T(a) x (R123). -/
def carry (a b : Pose) (x : List Rat) : List Rat := qrot (qconj b.q) (vsub (vadd (qrot a.q x) a.p) b.p)

/-- A pose in the plane after it has gone on for dt seconds at forward speed v and yaw rate w: R121's extrapolation, which
R330 and R331 are taken to integrate with (DEDUCED, log entry 35). -/
def planeAhead (a : Pose) (v w dt : Rat) : Pose := poseAhead ⟨a.p, a.q, qrot a.q [v, 0, 0], [0, 0, w]⟩ dt

/-- Where a point of the plane lies for a machine that has gone on so (R330). -/
def planeCarry (x y v w dt : Rat) : Rat × Rat :=
  let p := carry Pose.still (planeAhead Pose.still v w dt) [x, y, 0]
  (vget p 0, vget p 1)

/-- The poses at 0, dt, 2 dt, … of a machine whose speeds and yaw rates at those instants are given; the last pair ends
the run. -/
def planePoses (dt : Rat) : Pose → List (Rat × Rat) → List Pose
  | _, [] => []
  | a, [_] => [a]
  | a, u :: us => a :: planePoses dt (planeAhead a u.1 u.2 dt) us

/-- Whether two closed intervals meet. -/
def meets (a b : Rat × Rat) : Bool := decide (a.1 ≤ b.2 ∧ b.1 ≤ a.2)

/-- The interval that a box of centre c and half-sides h fills along an axis. -/
def shadow (c axis : Rat × Rat) (h : Rat × Rat) : Rat × Rat :=
  let m := c.1 * axis.1 + c.2 * axis.2
  let r := h.1 * ratAbs axis.1 + h.2 * ratAbs axis.2
  (m - r, m + r)

/-- Whether a rectangle at a pose, reaching `front` ahead, `back` behind and `side` to each side, meets the square of a
side of `2 h` at a centre: no axis of either separates them. A touch is a meeting (DESIGN CHOICE, log entry 35). -/
def rectMeets (a : Pose) (front back side h : Rat) (c : Rat × Rat) : Bool :=
  let u := qrot a.q [1, 0, 0]
  let f : Rat × Rat := (vget u 0, vget u 1)
  let n : Rat × Rat := (-f.2, f.1)
  let o : Rat × Rat := (vget a.p 0, vget a.p 1)
  let along (e : Rat × Rat) : Rat := o.1 * e.1 + o.2 * e.2
  let mid : Rat := (front - back) / 2
  let half : Rat := (front + back) / 2
  let box (e : Rat × Rat) : Rat × Rat :=
    let m := along e + mid * (f.1 * e.1 + f.2 * e.2)
    let r := half * ratAbs (f.1 * e.1 + f.2 * e.2) + side * ratAbs (n.1 * e.1 + n.2 * e.2)
    (m - r, m + r)
  meets (along f - back, along f + front) (shadow c f (h, h)) && meets (along n - side, along n + side) (shadow c n (h, h))
    && meets (box (1, 0)) (c.1 - h, c.1 + h) && meets (box (0, 1)) (c.2 - h, c.2 + h)

end Sys2Proof.Machine
end

