-- ==== Sys2Proof/Machine/Regs.lean ====
section
/-! DEFINITION. The BAR0 register map: every register of the manual's tables with its address, fields, access codes
and reset values (R12, R72, R100, R126, R156, R175, R209, R243, R272, R318, R355, R399, R400, R430, R444), and the
names of the registers and fields that the meanings use. -/
namespace Sys2Proof.Machine

/-- The access codes of R7. -/
inductive Acc where
  | ro | rw | w1c | w1s | rc | wo
  deriving DecidableEq, Repr

/-- One field of a register: its bits, access code and reset value as a function of the unit and entry index. -/
structure RegField where
  hi : Nat
  lo : Nat
  acc : Acc
  rst : Nat → Nat → Nat

/-- One register or array of like registers: address base + n × stride + m × stride2. -/
structure RegRow where
  name : String
  base : Nat
  stride : Nat
  count : Nat
  stride2 : Nat
  count2 : Nat
  fields : List RegField

/-- A constant reset value. -/
def rk (v : Nat) : Nat → Nat → Nat := fun _ _ => v
/-- A field with a constant reset value. -/
def fk (hi lo : Nat) (a : Acc) (v : Nat) : RegField := ⟨hi, lo, a, rk v⟩
/-- A register with one instance. -/
def r1 (name : String) (base : Nat) (fs : List RegField) : RegRow := ⟨name, base, 0, 1, 0, 1, fs⟩
/-- A register repeated for n units. -/
def rn (name : String) (base stride count : Nat) (fs : List RegField) : RegRow := ⟨name, base, stride, count, 0, 1, fs⟩

/-- Fused serial number, low and high word, and the fused reset-level map. -/
def fusedSerialLo : Nat → Nat → Nat := fun _ _ => Config.serial % 2 ^ 32
/-- The high word of the fused serial number. -/
def fusedSerialHi : Nat → Nat → Nat := fun _ _ => Config.serial / 2 ^ 32 % 2 ^ 32
/-- The fused reset-level map. -/
def fusedMap : Nat → Nat → Nat := fun _ _ => Config.fuseMap % 2 ^ 18
/-- CMP0 aims at the first boundary, CMP2 at the first close (R45, R46, R106). -/
def rstCmpVal (n _m : Nat) : Nat := if n = 0 then 1000000 else if n = 2 then 20000 else 0
/-- CMP0 and CMP2 reload by the slice length. -/
def rstCmpReload (n _m : Nat) : Nat := if n = 0 ∨ n = 2 then 1000000 else 0
/-- CMP0 and CMP2 are armed by the device. -/
def rstCmpArm (n _m : Nat) : Nat := if n = 0 ∨ n = 2 then 1 else 0
/-- SPI and encoder channels have no link to lose (R100). -/
def rstIngLink (n _m : Nat) : Nat := if 28 ≤ n then 1 else 0
/-- The source kind of a channel (R100). -/
def rstIngKind (n _m : Nat) : Nat := if n < 16 then 0 else if n < 24 then 1 else if n < 28 then 2 else if n < 30 then 3 else 4
/-- Four consecutive channels a group (R34). -/
def rstGrpMask (n _m : Nat) : Nat := 15 * 2 ^ (4 * n)
/-- Cameras defer by default (R126). -/
def rstSlcDefer (n _m : Nat) : Nat := if n < 16 then 1 else 0
/-- The identity colour matrix, low coefficient of word m (R175). -/
def rstCamMatLo (_n m : Nat) : Nat := if m = 0 ∨ m = 2 ∨ m = 4 then 0x1000 else 0
/-- The identity colour matrix, high coefficient of word m (R175). -/
def rstCamMatHi (_n _m : Nat) : Nat := 0
/-- Four tone-curve knots a word: knot i is 8i, knot 32 is 255 (R175). -/
def rstCamKnot (_n m : Nat) : Nat :=
  if m = 8 then 255 else 32 * m + 256 * (32 * m + 8) + 65536 * (32 * m + 16) + 16777216 * (32 * m + 24)
/-- The logical number of a physical array, 0x3F for a spare in reserve (R209). -/
def rstMxaLogical (n _m : Nat) : Nat := if n < 32 then n else 0x3F
/-- The logical number of a physical vector core. -/
def rstVecLogical (n _m : Nat) : Nat := if n < 128 then n else 0x7F
/-- The logical number of a physical Dome bank. -/
def rstDomeLogical (n _m : Nat) : Nat := if n < 64 then n else 0x3F
/-- Spares follow the units in service. -/
def rstMxaSpare (n _m : Nat) : Nat := if n < 32 then 0 else 1
/-- Spares follow the units in service. -/
def rstVecSpare (n _m : Nat) : Nat := if n < 128 then 0 else 1
/-- Spares follow the units in service. -/
def rstDomeSpare (n _m : Nat) : Nat := if n < 64 then 0 else 1
/-- The first units are in service. -/
def rstMxaInSvc (n _m : Nat) : Nat := if n < 32 then 1 else 0
/-- The first units are in service. -/
def rstVecInSvc (n _m : Nat) : Nat := if n < 128 then 1 else 0
/-- The first units are in service. -/
def rstDomeInSvc (n _m : Nat) : Nat := if n < 64 then 1 else 0
/-- Regions of package 0 carry inline ECC (R200). -/
def rstRegionIecc (n _m : Nat) : Nat := if n < 16 then 1 else 0
/-- The package code of a region (R200). -/
def rstRegionPkg (n _m : Nat) : Nat := if n < 16 then 0 else 3
/-- The receive buffer credits of virtual channels 1 to 4 (R391). -/
def rstTolBuf (_n m : Nat) : Nat := nth [32, 512, 1024, 4096] m 0
/-- The index itself: logical units map to like-numbered physical units (R430). -/
def rstIdx (n _m : Nat) : Nat := n

def DEV_ID : Nat := 0x00000000
def DEV_SERIAL_LO : Nat := 0x00000008
def DEV_SERIAL_HI : Nat := 0x0000000C
def DEV_RUN : Nat := 0x00000010
def DEV_RUN_STATE : Bits := ⟨2, 0⟩
def DEV_RUN_HALF : Bits := ⟨3, 3⟩
def DEV_RUN_HALF_PENDING : Bits := ⟨4, 4⟩
def DEV_ACCESS_ERR : Nat := 0x00000020
def CMD_SQ_BASE_LO (n : Nat) : Nat := 0x00101000 + 0x40 * n
def CMD_SQ_BASE_HI (n : Nat) : Nat := 0x00101004 + 0x40 * n
def CMD_CQ_BASE_LO (n : Nat) : Nat := 0x00101008 + 0x40 * n
def CMD_CQ_BASE_HI (n : Nat) : Nat := 0x0010100C + 0x40 * n
def CMD_CFG (n : Nat) : Nat := 0x00101010 + 0x40 * n
def CMD_CFG_EN : Bits := ⟨0, 0⟩
def CMD_CFG_SQ_LOG2 : Bits := ⟨4, 1⟩
def CMD_CFG_CQ_LOG2 : Bits := ⟨8, 5⟩
def CMD_CFG_SQ_SLOT_LOG2 : Bits := ⟨12, 9⟩
def CMD_CFG_CQ_SLOT_LOG2 : Bits := ⟨16, 13⟩
def CMD_CFG_IRQ_ALL : Bits := ⟨17, 17⟩
def CMD_SQ_TAIL (n : Nat) : Nat := 0x00101014 + 0x40 * n
def CMD_SQ_TAIL_SQ_TAIL : Bits := ⟨11, 0⟩
def CMD_SQ_HEAD (n : Nat) : Nat := 0x00101018 + 0x40 * n
def CMD_CQ_HEAD (n : Nat) : Nat := 0x0010101C + 0x40 * n
def CMD_CQ_HEAD_CQ_HEAD : Bits := ⟨11, 0⟩
def CMD_CQ_TAIL (n : Nat) : Nat := 0x00101020 + 0x40 * n
def CMD_ST (n : Nat) : Nat := 0x00101024 + 0x40 * n
def CMD_ST_ACTIVE : Bits := ⟨0, 0⟩
def CMD_ST_BAD_DOORBELL : Bits := ⟨1, 1⟩
def CMD_ST_SEQ_ERR : Bits := ⟨2, 2⟩
def CMD_ST_CFG_REJECT : Bits := ⟨3, 3⟩
def CMD_ST_DMA_ERR : Bits := ⟨4, 4⟩
def CMD_EXPECT_SEQ (n : Nat) : Nat := 0x00101028 + 0x40 * n
def CMD_LEDGER (n : Nat) : Nat := 0x0010102C + 0x40 * n
def CMD_LEDGER_ERR : Bits := ⟨31, 31⟩
def CMD_CMDS (n : Nat) : Nat := 0x00101030 + 0x40 * n
def CMD_REJECTS (n : Nat) : Nat := 0x00101034 + 0x40 * n
def CMD_RES_BASE_LO : Nat := 0x00102000
def CMD_RES_BASE_HI : Nat := 0x00102004
def CMD_RES_SLOTS : Nat := 0x00102008
def CMD_RES_SLOTS_SLOTS : Bits := ⟨8, 0⟩
def CMD_RES_SLOTS_SLOT_MIB : Bits := ⟨22, 16⟩
def CMD_RES_CTRL : Nat := 0x0010200C
def CMD_RES_CTRL_VALID : Bits := ⟨0, 0⟩
def CMD_RES_CTRL_MIRROR_EN : Bits := ⟨1, 1⟩
def CMD_RES_CTRL_CFG_REJECT : Bits := ⟨8, 8⟩
def CMD_RES_CTRL_MIR_ERR : Bits := ⟨9, 9⟩
def CMD_MIR_BASE_LO : Nat := 0x00102010
def CMD_MIR_BASE_HI : Nat := 0x00102014
def CMD_MIR_IDX_LO : Nat := 0x00102018
def CMD_MIR_IDX_HI : Nat := 0x0010201C
def CMD_MIR_CFG : Nat := 0x00102020
def CMD_MIR_CFG_MIR_SLOTS : Bits := ⟨8, 0⟩
def CMD_MIR_CFG_MIR_SLOT_MIB : Bits := ⟨22, 16⟩
def CMD_MIR_CFG_MIR_MASK : Bits := ⟨28, 24⟩
def CMD_MIR_IDX_HEAD : Nat := 0x00102024
def CMD_MIR_IDX_HEAD_HEAD : Bits := ⟨8, 0⟩
def CMD_MIR_IDX_TAIL : Nat := 0x00102028
def CMD_MIR_IDX_TAIL_TAIL : Bits := ⟨8, 0⟩
def CMD_LAST_SEQ_LO : Nat := 0x0010202C
def CMD_LAST_SEQ_HI : Nat := 0x00102030
def CMD_UNPUBLISHED : Nat := 0x00102034
def CMD_MIRROR_SKIP : Nat := 0x00102038
def CMD_NO_VERDICT : Nat := 0x0010203C
def MSIX_ADDR_LO (n : Nat) : Nat := 0x0010F000 + 0x10 * n
def MSIX_CTRL (n : Nat) : Nat := 0x0010F00C + 0x10 * n
def MSIX_CTRL_MASK : Bits := ⟨0, 0⟩
def MSIX_PBA : Nat := 0x0010F800
def MSIX_PBA_HI : Nat := 0x0010F804
def CMD_MCTP : Nat := 0x00103000
def CMD_MCTP_EID : Bits := ⟨7, 0⟩
def CMD_MCTP_EN : Bits := ⟨8, 8⟩
def CMD_MCTP_TU : Bits := ⟨18, 16⟩
def BLF_CTRL : Nat := 0x00200000
def BLF_CTRL_PTP_MODE : Bits := ⟨1, 0⟩
def BLF_CTRL_ROLE : Bits := ⟨3, 2⟩
def BLF_CTRL_PROFILE : Bits := ⟨4, 4⟩
def BLF_CTRL_DOMAIN : Bits := ⟨11, 5⟩
def BLF_CTRL_SLEW_PPM : Bits := ⟨18, 12⟩
def BLF_CTRL_PPS_EN : Bits := ⟨19, 19⟩
def BLF_CTRL_PPS_PIN : Bits := ⟨24, 20⟩
def BLF_CTRL_HOST_HOLDOVER : Bits := ⟨25, 25⟩
def BLF_STATUS : Nat := 0x00200004
def BLF_STATUS_HOLDOVER : Bits := ⟨0, 0⟩
def BLF_STATUS_LOCKED : Bits := ⟨1, 1⟩
def BLF_STATUS_OFFSET_LARGE : Bits := ⟨2, 2⟩
def BLF_STATUS_SLEWING : Bits := ⟨3, 3⟩
def BLF_STATUS_PPS_LOST : Bits := ⟨4, 4⟩
def BLF_STATUS_RATE_CLAMP : Bits := ⟨8, 8⟩
def BLF_STATUS_CFG_REJECT : Bits := ⟨9, 9⟩
def BLF_STATUS_SLAVE_PORT : Bits := ⟨19, 16⟩
def BLF_STEP_LIMIT : Nat := 0x00200008
def BLF_LOCK : Nat := 0x0020000C
def BLF_LOCK_THRESH : Bits := ⟨15, 0⟩
def BLF_LOCK_COUNT : Bits := ⟨23, 16⟩
def BLF_NOW_FRAC : Nat := 0x00200010
def BLF_NOW_NS : Nat := 0x00200014
def BLF_NOW_SEC_LO : Nat := 0x00200018
def BLF_NOW_SEC_HI : Nat := 0x0020001C
def BLF_NOW_LIN : Nat := 0x00200020
def BLF_RATE_LO : Nat := 0x00200030
def BLF_RATE_HI : Nat := 0x00200034
def BLF_ADJ_LO : Nat := 0x00200038
def BLF_ADJ_HI : Nat := 0x0020003C
def BLF_SLEW_LO : Nat := 0x00200040
def BLF_SLEW_HI : Nat := 0x00200044
def BLF_XTS_CTRL : Nat := 0x00200050
def BLF_XTS_FRAC : Nat := 0x00200054
def BLF_XTS_NS : Nat := 0x00200058
def BLF_XTS_SEC_LO : Nat := 0x0020005C
def BLF_XTS_SEC_HI : Nat := 0x00200060
def BLF_CMP_VAL (n : Nat) : Nat := 0x00201000 + 0x10 * n
def BLF_CMP_RELOAD (n : Nat) : Nat := 0x00201004 + 0x10 * n
def BLF_CMP_CTRL (n : Nat) : Nat := 0x00201008 + 0x10 * n
def BLF_CMP_CTRL_ARM : Bits := ⟨0, 0⟩
def BLF_CMP_CTRL_IRQ_EN : Bits := ⟨1, 1⟩
def BLF_CMP_STATUS (n : Nat) : Nat := 0x0020100C + 0x10 * n
def BLF_CMP_STATUS_FIRED : Bits := ⟨0, 0⟩
def BLF_CMP_STATUS_LATE : Bits := ⟨1, 1⟩
def BLF_TRIG_MODE (n : Nat) : Nat := 0x00202000 + 0x20 * n
def BLF_TRIG_MODE_MODE : Bits := ⟨1, 0⟩
def BLF_TRIG_MODE_POL : Bits := ⟨2, 2⟩
def BLF_TRIG_MODE_DIV : Bits := ⟨15, 8⟩
def BLF_TRIG_START (n : Nat) : Nat := 0x00202004 + 0x20 * n
def BLF_TRIG_START_FRAC (n : Nat) : Nat := 0x00202008 + 0x20 * n
def BLF_TRIG_START_FRAC_START_FRAC : Bits := ⟨15, 0⟩
def BLF_TRIG_PERIOD (n : Nat) : Nat := 0x0020200C + 0x20 * n
def BLF_TRIG_PERIOD_FRAC (n : Nat) : Nat := 0x00202010 + 0x20 * n
def BLF_TRIG_PERIOD_FRAC_PERIOD_FRAC : Bits := ⟨15, 0⟩
def BLF_TRIG_WIDTH (n : Nat) : Nat := 0x00202014 + 0x20 * n
def BLF_TRIG_WIDTH_WIDTH : Bits := ⟨15, 0⟩
def BLF_TRIG_PHASE (n : Nat) : Nat := 0x00202018 + 0x20 * n
def BLF_TRIG_PHASE_PHASE : Bits := ⟨19, 0⟩
def BLF_TRIG_STATUS (n : Nat) : Nat := 0x0020201C + 0x20 * n
def BLF_TRIG_STATUS_LATE_START : Bits := ⟨0, 0⟩
def BLF_TRIG_STATUS_SKIPPED : Bits := ⟨1, 1⟩
def BLF_TRIG_STATUS_EDGES : Bits := ⟨31, 16⟩
def BLF_CAP_CFG (n : Nat) : Nat := 0x00203000 + 0x20 * n
def BLF_CAP_CFG_EDGE : Bits := ⟨1, 0⟩
def BLF_CAP_CFG_FILTER : Bits := ⟨3, 2⟩
def BLF_CAP_CFG_BIND_EN : Bits := ⟨4, 4⟩
def BLF_CAP_CFG_BIND_CH : Bits := ⟨9, 5⟩
def BLF_CAP_CFG_COPY : Bits := ⟨10, 10⟩
def BLF_CAP_STATUS (n : Nat) : Nat := 0x00203004 + 0x20 * n
def BLF_CAP_STATUS_LEVEL : Bits := ⟨4, 0⟩
def BLF_CAP_STATUS_OVF : Bits := ⟨8, 8⟩
def BLF_CAP_STATUS_MISSED : Bits := ⟨9, 9⟩
def BLF_CAP_STATUS_LOST : Bits := ⟨31, 16⟩
def BLF_CAP_POP0 (n : Nat) : Nat := 0x00203008 + 0x20 * n
def BLF_CAP_NS (n : Nat) : Nat := 0x0020300C + 0x20 * n
def BLF_CAP_SEC_LO (n : Nat) : Nat := 0x00203010 + 0x20 * n
def BLF_CAP_SEC_HI (n : Nat) : Nat := 0x00203014 + 0x20 * n
def BLF_PORT_CFG (n : Nat) : Nat := 0x00204000 + 0x40 * n
def BLF_PORT_CFG_EN : Bits := ⟨0, 0⟩
def BLF_PORT_CFG_DELAY_MECH : Bits := ⟨1, 1⟩
def BLF_PORT_CFG_TRANSPORT : Bits := ⟨3, 2⟩
def BLF_PORT_CFG_FORCE_ROLE : Bits := ⟨5, 4⟩
def BLF_PORT_CFG_SYNC_2STEP : Bits := ⟨6, 6⟩
def BLF_PORT_STATE (n : Nat) : Nat := 0x00204004 + 0x40 * n
def BLF_PORT_STATE_STATE : Bits := ⟨3, 0⟩
def BLF_PORT_INGRESS_LAT (n : Nat) : Nat := 0x00204008 + 0x40 * n
def BLF_PORT_EGRESS_LAT (n : Nat) : Nat := 0x0020400C + 0x40 * n
def BLF_PORT_ASYM (n : Nat) : Nat := 0x00204010 + 0x40 * n
def BLF_PORT_PATH_DELAY (n : Nat) : Nat := 0x00204014 + 0x40 * n
def BLF_PORT_OFFSET (n : Nat) : Nat := 0x00204018 + 0x40 * n
def BLF_PORT_RX_EVENTS (n : Nat) : Nat := 0x0020401C + 0x40 * n
def BLF_PORT_TX_EVENTS (n : Nat) : Nat := 0x00204020 + 0x40 * n
def BLF_TXQ_STATUS : Nat := 0x00205000
def BLF_TXQ_STATUS_COUNT : Bits := ⟨5, 0⟩
def BLF_TXQ_STATUS_OVF : Bits := ⟨8, 8⟩
def BLF_TXQ_STATUS_LOST : Bits := ⟨31, 16⟩
def BLF_TXQ_POP0 : Nat := 0x00205004
def BLF_TXQ_FRAC : Nat := 0x00205008
def BLF_TXQ_NS : Nat := 0x0020500C
def BLF_TXQ_SEC_LO : Nat := 0x00205010
def BLF_TXQ_SEC_HI : Nat := 0x00205014
def ING_CTRL (n : Nat) : Nat := 0x00300000 + 0x1000 * n
def ING_CTRL_EN : Bits := ⟨0, 0⟩
def ING_CTRL_FLUSH : Bits := ⟨1, 1⟩
def ING_CTRL_XOFF_EN : Bits := ⟨2, 2⟩
def ING_CTRL_PFC_EN : Bits := ⟨3, 3⟩
def ING_STATUS (n : Nat) : Nat := 0x00300004 + 0x1000 * n
def ING_STATUS_XOFF : Bits := ⟨2, 2⟩
def ING_STATUS_LINK : Bits := ⟨3, 3⟩
def ING_STATUS_OVR : Bits := ⟨8, 8⟩
def ING_STATUS_CFG_REJECT : Bits := ⟨9, 9⟩
def ING_STATUS_ECC_CORR : Bits := ⟨10, 10⟩
def ING_OCC (n : Nat) : Nat := 0x0030000C + 0x1000 * n
def ING_CUT (n : Nat) : Nat := 0x00300010 + 0x1000 * n
def ING_CUT_CUT : Bits := ⟨16, 0⟩
def ING_WM (n : Nat) : Nat := 0x00300014 + 0x1000 * n
def ING_WM_LOW : Bits := ⟨12, 0⟩
def ING_WM_HIGH : Bits := ⟨28, 16⟩
def ING_MAXFRAME (n : Nat) : Nat := 0x00300018 + 0x1000 * n
def ING_MAXFRAME_MAXFRAME : Bits := ⟨16, 0⟩
def ING_PKT_TMO (n : Nat) : Nat := 0x0030001C + 0x1000 * n
def ING_PKT_TMO_TMO : Bits := ⟨15, 0⟩
def ING_PFC (n : Nat) : Nat := 0x00300020 + 0x1000 * n
def ING_PFC_PFC_PRIO : Bits := ⟨7, 0⟩
def ING_PFC_QUANTA : Bits := ⟨31, 16⟩
def ING_PFC_REFRESH (n : Nat) : Nat := 0x00300024 + 0x1000 * n
def ING_PFC_REFRESH_REFRESH : Bits := ⟨15, 0⟩
def ING_BANKS (n : Nat) : Nat := 0x00300028 + 0x1000 * n
def ING_RX_PKTS (n : Nat) : Nat := 0x00300040 + 0x1000 * n
def ING_OVR_PKTS (n : Nat) : Nat := 0x00300044 + 0x1000 * n
def ING_TRUNC_PKTS (n : Nat) : Nat := 0x00300048 + 0x1000 * n
def ING_BAD_PKTS (n : Nat) : Nat := 0x0030004C + 0x1000 * n
def ING_MALF_PKTS (n : Nat) : Nat := 0x00300050 + 0x1000 * n
def ING_ABORT_PKTS (n : Nat) : Nat := 0x00300054 + 0x1000 * n
def ING_FLUSH_PKTS (n : Nat) : Nat := 0x00300058 + 0x1000 * n
def ING_CSI_CFG (n : Nat) : Nat := 0x00300100 + 0x1000 * n
def ING_CSI_CFG_VC_MASK : Bits := ⟨7, 4⟩
def ING_CSI_CFG_EMB_EN : Bits := ⟨8, 8⟩
def ING_CSI_DT (n : Nat) : Nat := 0x00300104 + 0x1000 * n
def ING_CSI_DT_DT : Bits := ⟨5, 0⟩
def ING_CSI_FRAMES (n : Nat) : Nat := 0x00300108 + 0x1000 * n
def ING_CSI_FRAMES_FRAMES : Bits := ⟨15, 0⟩
def ING_ETH_CFG (n : Nat) : Nat := 0x00310100 + 0x1000 * n
def ING_ETH_CFG_PROMISC : Bits := ⟨2, 2⟩
def ING_ETH_CFG_MULTI_EN : Bits := ⟨3, 3⟩
def ING_ETH_MAC_LO (n : Nat) : Nat := 0x00310104 + 0x1000 * n
def ING_ETH_MAC_HI (n : Nat) : Nat := 0x00310108 + 0x1000 * n
def ING_ETH_MAC_HI_MAC_HI : Bits := ⟨15, 0⟩
def ING_CAN_CFG (n : Nat) : Nat := 0x00318100 + 0x1000 * n
def ING_CAN_CFG_FD_EN : Bits := ⟨0, 0⟩
def ING_CAN_CFG_XL_EN : Bits := ⟨1, 1⟩
def ING_CAN_FILTER_EN (n : Nat) : Nat := 0x00318110 + 0x1000 * n
def ING_CAN_ID (n m : Nat) : Nat := 0x00318200 + 0x1000 * n + 0x8 * m
def ING_CAN_MASK (n m : Nat) : Nat := 0x00318204 + 0x1000 * n + 0x8 * m
def ING_SPI_CFG (n : Nat) : Nat := 0x0031C100 + 0x1000 * n
def ING_SPI_CFG_LEN : Bits := ⟨22, 16⟩
def ING_SPI_CFG_PERIODIC : Bits := ⟨24, 24⟩
def ING_SPI_CMD (n m : Nat) : Nat := 0x0031C108 + 0x1000 * n + 0x4 * m
def ING_SPI_CMD_LEN (n : Nat) : Nat := 0x0031C118 + 0x1000 * n
def ING_SPI_CMD_LEN_CMD_LEN : Bits := ⟨4, 0⟩
def ING_ENC_CFG (n : Nat) : Nat := 0x0031E100 + 0x1000 * n
def ING_ENC_CFG_EN : Bits := ⟨7, 0⟩
def ING_ENC_CFG_INDEX_EN : Bits := ⟨15, 8⟩
def ING_ENC_CFG_FILTER : Bits := ⟨17, 16⟩
def ING_ENC_COUNT (n m : Nat) : Nat := 0x0031E120 + 0x1000 * n + 0x4 * m
def ING_LEDGER : Nat := 0x003DE000
def ING_LEDGER_ERR : Bits := ⟨31, 31⟩
def ING_GRP_MASK (n : Nat) : Nat := 0x003DF000 + 0x4 * n
def SLC_CH_CFG (n : Nat) : Nat := 0x00400000 + 0x100 * n
def SLC_CH_CFG_EN : Bits := ⟨0, 0⟩
def SLC_CH_CFG_ROLE : Bits := ⟨2, 1⟩
def SLC_CH_CFG_DEFER : Bits := ⟨3, 3⟩
def SLC_CH_CFG_TIME_SRC : Bits := ⟨4, 4⟩
def SLC_CH_CFG_POINTS : Bits := ⟨5, 5⟩
def SLC_CH_CFG_ZERO_INVALID : Bits := ⟨6, 6⟩
def SLC_CH_TOFF (n : Nat) : Nat := 0x00400004 + 0x100 * n
def SLC_CH_TOFF_CAL (n : Nat) : Nat := 0x00400008 + 0x100 * n
def SLC_CH_NOMLAT (n : Nat) : Nat := 0x0040000C + 0x100 * n
def SLC_CH_NOMLAT_NOMLAT : Bits := ⟨23, 0⟩
def SLC_CH_FRAME_PERIOD (n : Nat) : Nat := 0x00400010 + 0x100 * n
def SLC_CH_FRAME_PERIOD_FRAME_PERIOD : Bits := ⟨19, 0⟩
def SLC_CH_POINT (n : Nat) : Nat := 0x00400014 + 0x100 * n
def SLC_CH_POINT_FIRST : Bits := ⟨15, 0⟩
def SLC_CH_POINT_STRIDE : Bits := ⟨23, 16⟩
def SLC_CH_OFFS (n : Nat) : Nat := 0x00400018 + 0x100 * n
def SLC_CH_OFFS_X_OFF : Bits := ⟨7, 0⟩
def SLC_CH_OFFS_Y_OFF : Bits := ⟨15, 8⟩
def SLC_CH_OFFS_Z_OFF : Bits := ⟨23, 16⟩
def SLC_CH_OFFS_T_OFF : Bits := ⟨31, 24⟩
def SLC_CH_FMT (n : Nat) : Nat := 0x0040001C + 0x100 * n
def SLC_CH_FMT_COORD : Bits := ⟨0, 0⟩
def SLC_CH_FMT_T_ABS : Bits := ⟨1, 1⟩
def SLC_CH_FMT_T_SIZE : Bits := ⟨2, 2⟩
def SLC_CH_FMT_T_UNIT : Bits := ⟨4, 3⟩
def SLC_CH_FMT_BIG_ENDIAN : Bits := ⟨5, 5⟩
def SLC_CH_FMT_SCALE : Bits := ⟨31, 16⟩
def SLC_CH_HDR_T_OFF (n : Nat) : Nat := 0x00400020 + 0x100 * n
def SLC_CH_HDR_T_OFF_HDR_T_OFF : Bits := ⟨15, 0⟩
def SLC_CH_STATUS (n : Nat) : Nat := 0x00400040 + 0x100 * n
def SLC_CH_STATUS_STATE : Bits := ⟨1, 0⟩
def SLC_CH_STATUS_LO_ONLY : Bits := ⟨2, 2⟩
def SLC_CH_STATUS_UNSYNC_SEEN : Bits := ⟨8, 8⟩
def SLC_CH_STATUS_CFG_REJECT : Bits := ⟨9, 9⟩
def SLC_CH_STATUS_TIME_BAD : Bits := ⟨10, 10⟩
def SLC_CH_OFFSET_EST (n : Nat) : Nat := 0x00400044 + 0x100 * n
def SLC_CH_LATE_ADMITTED (n : Nat) : Nat := 0x00400048 + 0x100 * n
def SLC_CH_LATE_DROPPED (n : Nat) : Nat := 0x0040004C + 0x100 * n
def SLC_CH_FUTURE_DROPPED (n : Nat) : Nat := 0x00400050 + 0x100 * n
def SLC_CH_DEFERRED (n : Nat) : Nat := 0x00400054 + 0x100 * n
def SLC_CH_SAMPLES (n : Nat) : Nat := 0x00400058 + 0x100 * n
def SLC_CH_LAST_LIN (n : Nat) : Nat := 0x0040005C + 0x100 * n
def SLC_CLOSE : Nat := 0x00410000
def SLC_CLOSE_CLOSE : Bits := ⟨5, 0⟩
def SLC_LATE_LIMIT : Nat := 0x00410004
def SLC_LATE_LIMIT_LATE_LIMIT : Bits := ⟨9, 0⟩
def SLC_SYNC : Nat := 0x00410008
def SLC_SYNC_WIN : Bits := ⟨15, 0⟩
def SLC_SYNC_CNT : Bits := ⟨23, 16⟩
def SLC_VOBJ : Nat := 0x0041000C
def SLC_VOBJ_VOBJ : Bits := ⟨23, 0⟩
def SLC_STATUS : Nat := 0x00410010
def SLC_STATUS_CFG_REJECT : Bits := ⟨0, 0⟩
def SLC_STATUS_HALF : Bits := ⟨1, 1⟩
def SLC_EGO_CFG : Nat := 0x00411000
def SLC_EGO_CFG_EN : Bits := ⟨0, 0⟩
def SLC_EGO_CFG_IMU_PRI : Bits := ⟨1, 1⟩
def SLC_EGO_CFG_IMU_BACKUP : Bits := ⟨2, 2⟩
def SLC_EGO_CFG_ZUPT_EN : Bits := ⟨3, 3⟩
def SLC_EGO_CFG_NHC_EN : Bits := ⟨4, 4⟩
def SLC_EGO_TAU : Nat := 0x00411004
def SLC_EGO_TAU_TAU_WHEEL : Bits := ⟨15, 0⟩
def SLC_EGO_TAU_TAU_NHC : Bits := ⟨31, 16⟩
def SLC_EGO_TIMES : Nat := 0x00411008
def SLC_EGO_EXTRAP : Nat := 0x0041100C
def SLC_EGO_EXTRAP_EXTRAP_MAX : Bits := ⟨15, 0⟩
def SLC_EGO_EXTRAP_EGO_WAIT : Bits := ⟨31, 16⟩
def SLC_EGO_IMU_ONLY : Nat := 0x00411010
def SLC_EGO_TRACK : Nat := 0x00411014
def SLC_EGO_TRACK_TRACK : Bits := ⟨23, 0⟩
def SLC_EGO_STATUS : Nat := 0x00411018
def SLC_EGO_LATE : Nat := 0x0041101C
def SLC_IMU_GYRO (n : Nat) : Nat := 0x00411100 + 0x20 * n
def SLC_IMU_GYRO_GX : Bits := ⟨7, 0⟩
def SLC_IMU_GYRO_GY : Bits := ⟨15, 8⟩
def SLC_IMU_GYRO_GZ : Bits := ⟨23, 16⟩
def SLC_IMU_GYRO_WIDTH : Bits := ⟨24, 24⟩
def SLC_IMU_GYRO_BIG_ENDIAN : Bits := ⟨25, 25⟩
def SLC_IMU_ACC (n : Nat) : Nat := 0x00411104 + 0x20 * n
def SLC_IMU_ACC_AX : Bits := ⟨7, 0⟩
def SLC_IMU_ACC_AY : Bits := ⟨15, 8⟩
def SLC_IMU_ACC_AZ : Bits := ⟨23, 16⟩
def SLC_IMU_GYRO_SCALE (n : Nat) : Nat := 0x00411108 + 0x20 * n
def SLC_IMU_ACC_SCALE (n : Nat) : Nat := 0x0041110C + 0x20 * n
def SLC_IMU_AXIS_MAP (n : Nat) : Nat := 0x00411110 + 0x20 * n
def SLC_IMU_AXIS_MAP_AXIS_MAP : Bits := ⟨10, 0⟩
def SLC_WHEEL (n : Nat) : Nat := 0x00411200 + 0x4 * n
def SLC_WHEEL_SCALE : Bits := ⟨23, 0⟩
def SLC_WHEEL_SIDE : Bits := ⟨25, 24⟩
def SLC_WHEEL_INVERT : Bits := ⟨26, 26⟩
def SLC_GOV_CTRL : Nat := 0x004E0000
def SLC_GOV_CTRL_MAX_LEVEL : Bits := ⟨1, 0⟩
def SLC_GOV_RATE : Nat := 0x004E0004
def SLC_GOV_RATE_RATE : Bits := ⟨15, 0⟩
def SLC_GOV_RATE_SLOWEST : Bits := ⟨21, 16⟩
def SLC_GOV_DEADLINE : Nat := 0x004E0008
def SLC_GOV_DEADLINE_DEADLINE : Bits := ⟨15, 0⟩
def SLC_GOV_MARGIN : Nat := 0x004E000C
def SLC_GOV_MARGIN_MARGIN : Bits := ⟨15, 0⟩
def SLC_GOV_MARGIN_RELAX : Bits := ⟨31, 16⟩
def SLC_GOV_RELAX_CNT : Nat := 0x004E0010
def SLC_GOV_RELAX_CNT_COUNT : Bits := ⟨7, 0⟩
def SLC_GOV_LEVEL : Nat := 0x004E0014
def SLC_GOV_LEVEL_LEVEL : Bits := ⟨1, 0⟩
def SLC_GOV_LEVEL_LAST_MAX : Bits := ⟨3, 2⟩
def SLC_GOV_LEVEL_CALM : Bits := ⟨11, 4⟩
def SLC_GOV_SLACK : Nat := 0x004E0018
def SLC_GOV_RAISES : Nat := 0x004E001C
def SLC_GOV_MISSES : Nat := 0x004E0020
def VHE_CTRL : Nat := 0x00500000
def VHE_CTRL_EN : Bits := ⟨0, 0⟩
def VHE_CTRL_MODE : Bits := ⟨1, 1⟩
def VHE_CTRL_COMPAT_FIRST : Bits := ⟨2, 2⟩
def VHE_CTRL_AUTO : Bits := ⟨3, 3⟩
def VHE_GRID : Nat := 0x00500004
def VHE_GRID_Z_BELOW : Bits := ⟨9, 0⟩
def VHE_GRID_Z_HYST : Bits := ⟨24, 16⟩
def VHE_EPOCH : Nat := 0x00500008
def VHE_EPOCH_EPOCH_MS : Bits := ⟨6, 0⟩
def VHE_EPOCH_RETAIN : Bits := ⟨12, 8⟩
def VHE_EPOCH_NOW : Bits := ⟨29, 24⟩
def VHE_CAP : Nat := 0x0050000C
def VHE_CAP_MAX_POINTS : Bits := ⟨16, 0⟩
def VHE_STASH : Nat := 0x00500010
def VHE_STASH_WM : Bits := ⟨12, 0⟩
def VHE_STASH_LOW : Bits := ⟨28, 16⟩
def VHE_TILE_LIMIT : Nat := 0x00500014
def VHE_TILE_LIMIT_LIMIT : Bits := ⟨20, 0⟩
def VHE_TILE_RELAX : Nat := 0x00500018
def VHE_TILE_RELAX_RELAX : Bits := ⟨20, 0⟩
def VHE_COARSEN : Nat := 0x0050001C
def VHE_COARSEN_RAISE_N : Bits := ⟨2, 0⟩
def VHE_COARSEN_CALM_SLICES : Bits := ⟨31, 16⟩
def VHE_SEED : Nat := 0x00500020
def VHE_STATUS : Nat := 0x00500040
def VHE_STATUS_STASH_VALID : Bits := ⟨12, 0⟩
def VHE_STATUS_STASH_WM_HIT : Bits := ⟨16, 16⟩
def VHE_STATUS_HASH_LOST : Bits := ⟨17, 17⟩
def VHE_STATUS_LOG_OVF : Bits := ⟨18, 18⟩
def VHE_STATUS_CFG_REJECT : Bits := ⟨19, 19⟩
def VHE_STATUS_ZREBASE : Bits := ⟨20, 20⟩
def VHE_STATUS_CLEARING : Bits := ⟨21, 21⟩
def VHE_ZBASE : Nat := 0x00500044
def VHE_CX : Nat := 0x00500048
def VHE_CY : Nat := 0x0050004C
def VHE_HELD : Nat := 0x00500050
def VHE_PTS_IN : Nat := 0x00500060
def VHE_DROPPED_CAP : Nat := 0x00500064
def VHE_OUT_OF_GRID : Nat := 0x00500068
def VHE_STALE : Nat := 0x0050006C
def VHE_NO_POSE : Nat := 0x00500070
def VHE_HASH_LOST : Nat := 0x00500074
def VHE_KICKS : Nat := 0x00500078
def VHE_STASHED : Nat := 0x0050007C
def VHE_TILE0 (n : Nat) : Nat := 0x00501000 + 0x10 * n
def VHE_TILE0_LEVEL : Bits := ⟨1, 0⟩
def VHE_TILE0_ANCIENT : Bits := ⟨2, 2⟩
def VHE_TILE0_REASON : Bits := ⟨5, 3⟩
def VHE_TILE0_FLOOR : Bits := ⟨13, 8⟩
def VHE_TILE_COUNT (n : Nat) : Nat := 0x00501004 + 0x10 * n
def VHE_TILE_CUR (n : Nat) : Nat := 0x00501008 + 0x10 * n
def VHE_TILE_CALM (n : Nat) : Nat := 0x0050100C + 0x10 * n
def VHE_TILE_CALM_CALM : Bits := ⟨15, 0⟩
def CAM_CFG (n : Nat) : Nat := 0x00600000 + 0x200 * n
def CAM_CFG_EN : Bits := ⟨0, 0⟩
def CAM_CFG_BAYER : Bits := ⟨2, 1⟩
def CAM_CFG_MODEL : Bits := ⟨3, 3⟩
def CAM_SIZE (n : Nat) : Nat := 0x00600004 + 0x200 * n
def CAM_SIZE_WIDTH : Bits := ⟨12, 0⟩
def CAM_SIZE_HEIGHT : Bits := ⟨28, 16⟩
def CAM_BLACK (n : Nat) : Nat := 0x00600008 + 0x200 * n
def CAM_BLACK_BLACK : Bits := ⟨11, 0⟩
def CAM_GAIN_RG (n : Nat) : Nat := 0x0060000C + 0x200 * n
def CAM_GAIN_RG_GAIN_R : Bits := ⟨15, 0⟩
def CAM_GAIN_RG_GAIN_G : Bits := ⟨31, 16⟩
def CAM_GAIN_B (n : Nat) : Nat := 0x00600010 + 0x200 * n
def CAM_GAIN_B_GAIN_B : Bits := ⟨15, 0⟩
def CAM_MATRIX (n m : Nat) : Nat := 0x00600014 + 0x200 * n + 0x4 * m
def CAM_C22 (n : Nat) : Nat := 0x00600024 + 0x200 * n
def CAM_C22_C22 : Bits := ⟨15, 0⟩
def CAM_KNOT (n m : Nat) : Nat := 0x00600028 + 0x200 * n + 0x4 * m
def CAM_OUT (n : Nat) : Nat := 0x00600050 + 0x200 * n
def CAM_OUT_OUT_W : Bits := ⟨12, 0⟩
def CAM_OUT_OUT_H : Bits := ⟨28, 16⟩
def CAM_RECT (n m : Nat) : Nat := 0x00600054 + 0x200 * n + 0x4 * m
def CAM_LENS (n m : Nat) : Nat := 0x00600064 + 0x200 * n + 0x4 * m
def CAM_ROW_TIME (n : Nat) : Nat := 0x0060008C + 0x200 * n
def CAM_ROW_TIME_ROW_TIME : Bits := ⟨23, 0⟩
def CAM_STATUS (n : Nat) : Nat := 0x00600090 + 0x200 * n
def CAM_STATUS_READY : Bits := ⟨0, 0⟩
def CAM_STATUS_MESH_ERR : Bits := ⟨1, 1⟩
def CAM_STATUS_CFG_REJECT : Bits := ⟨8, 8⟩
def CAM_FRAMES_OK (n : Nat) : Nat := 0x006000A0 + 0x200 * n
def CAM_LOST_SHAPE (n : Nat) : Nat := 0x006000A4 + 0x200 * n
def CAM_LOST_LINE (n : Nat) : Nat := 0x006000A8 + 0x200 * n
def CAM_LOST_SHORT (n : Nat) : Nat := 0x006000AC + 0x200 * n
def CAM_LOST_TMO (n : Nat) : Nat := 0x006000B0 + 0x200 * n
def CAM_LOST_NOBUF (n : Nat) : Nat := 0x006000B4 + 0x200 * n
def CAM_RECT_OOB (n : Nat) : Nat := 0x006000B8 + 0x200 * n
def CAM_NOM_QW (n : Nat) : Nat := 0x00604000 + 0x40 * n
def CAM_NOM_Q (n m : Nat) : Nat := 0x00604004 + 0x40 * n + 0x4 * m
def CAM_NOM_T (n m : Nat) : Nat := 0x00604010 + 0x40 * n + 0x4 * m
def CAM_EXT_CAL (n : Nat) : Nat := 0x0060401C + 0x40 * n
def CAM_EXT_CAL_CAL_EN : Bits := ⟨0, 0⟩
def CAM_EXT_CAL_PENDING : Bits := ⟨1, 1⟩
def CAM_EXT_CAL_AT_BOUND : Bits := ⟨2, 2⟩
def CAM_EXT_CAL_CONVERGED : Bits := ⟨3, 3⟩
def CAM_DTHETA (n m : Nat) : Nat := 0x00604020 + 0x40 * n + 0x4 * m
def CAM_DT (n m : Nat) : Nat := 0x0060402C + 0x40 * n + 0x4 * m
def CAM_EXT_CNT (n : Nat) : Nat := 0x00604038 + 0x40 * n
def CAM_EXT_CNT_ACCEPTED : Bits := ⟨15, 0⟩
def CAM_EXT_CNT_REJECTED : Bits := ⟨31, 16⟩
def CAM_EXT_LAST (n : Nat) : Nat := 0x0060403C + 0x40 * n
def CAM_EXT_LAST_LAST : Bits := ⟨2, 0⟩
def CAM_EXT_LAST_RESIDUALS : Bits := ⟨28, 16⟩
def CAM_CAL_CTRL : Nat := 0x00605000
def CAM_CAL_CTRL_EN : Bits := ⟨0, 0⟩
def CAM_CAL_CTRL_REF : Bits := ⟨5, 1⟩
def CAM_CAL_CTRL_CFG_REJECT : Bits := ⟨8, 8⟩
def CAM_CAL_STEP : Nat := 0x00605004
def CAM_CAL_STEP_STEP_ROT : Bits := ⟨15, 0⟩
def CAM_CAL_STEP_STEP_TRANS : Bits := ⟨31, 16⟩
def CAM_CAL_STEP_T : Nat := 0x00605008
def CAM_CAL_STEP_T_STEP_T : Bits := ⟨15, 0⟩
def CAM_CAL_MIN_RES : Nat := 0x0060500C
def CAM_CAL_MIN_RES_MIN_RES : Bits := ⟨12, 0⟩
def CAM_CAL_PIVOT : Nat := 0x00605010
def CAM_CAL_BOUND : Nat := 0x00605014
def CAM_CAL_BOUND_BOUND_ROT : Bits := ⟨15, 0⟩
def CAM_CAL_BOUND_BOUND_TRANS : Bits := ⟨31, 16⟩
def CAM_CAL_BOUND_T : Nat := 0x00605018
def CAM_CAL_BOUND_T_BOUND_T : Bits := ⟨9, 0⟩
def CAM_CAL_SKIP : Nat := 0x0060501C
def CAM_CAL_NOREPLY : Nat := 0x00605020
def CAM_GRID_CFG : Nat := 0x00606000
def CAM_GRID_CFG_EN : Bits := ⟨0, 0⟩
def CAM_GRID_CFG_NZ : Bits := ⟨3, 1⟩
def CAM_GRID_CFG_CFG_REJECT : Bits := ⟨8, 8⟩
def CAM_GRID_Z : Nat := 0x00606004
def CAM_GRID_Z_Z0 : Bits := ⟨15, 0⟩
def CAM_GRID_Z_DZ : Bits := ⟨31, 16⟩
def CAM_GRID_ZNF : Nat := 0x00606008
def CAM_GRID_ZNF_ZNEAR : Bits := ⟨15, 0⟩
def CAM_GRID_ZNF_ZFAR : Bits := ⟨31, 16⟩
def CAM_GRID_DELTA : Nat := 0x0060600C
def CAM_GRID_DELTA_OCC_DELTA : Bits := ⟨7, 0⟩
def CAM_GRID_DELTA_HGT_DELTA : Bits := ⟨15, 8⟩
def CAM_GX0 : Nat := 0x00606010
def CAM_GY0 : Nat := 0x00606014
def CAM_GRID_ST : Nat := 0x00606018
def CAM_GRID_ST_LEVEL : Bits := ⟨1, 0⟩
def CAM_GRID_ST_SHIFT : Bits := ⟨2, 2⟩
def CAM_TILES_SENT : Nat := 0x0060601C
def MXA_ID (n : Nat) : Nat := 0x00700000 + 0x4000 * n
def MXA_ID_LOGICAL : Bits := ⟨5, 0⟩
def MXA_ID_SPARE : Bits := ⟨8, 8⟩
def MXA_ID_RETIRED : Bits := ⟨9, 9⟩
def MXA_ID_IN_SERVICE : Bits := ⟨10, 10⟩
def MXA_STATUS (n : Nat) : Nat := 0x00700008 + 0x4000 * n
def MXA_STATUS_BUSY : Bits := ⟨0, 0⟩
def MXA_STATUS_ECC_CORR : Bits := ⟨8, 8⟩
def MXA_STATUS_ECC_UNCORR : Bits := ⟨9, 9⟩
def MXA_STATUS_NAN_SEEN : Bits := ⟨10, 10⟩
def MXA_HS (n : Nat) : Nat := 0x00700010 + 0x4000 * n
def MXA_ITEMS (n : Nat) : Nat := 0x00700014 + 0x4000 * n
def MXA_ECC_CNT (n : Nat) : Nat := 0x00700018 + 0x4000 * n
def VEC_ID (n : Nat) : Nat := 0x00800000 + 0x1000 * n
def VEC_ID_LOGICAL : Bits := ⟨6, 0⟩
def VEC_ID_SPARE : Bits := ⟨8, 8⟩
def VEC_ID_RETIRED : Bits := ⟨9, 9⟩
def VEC_ID_IN_SERVICE : Bits := ⟨10, 10⟩
def VEC_CFG (n : Nat) : Nat := 0x00800004 + 0x1000 * n
def VEC_CFG_FTZ : Bits := ⟨0, 0⟩
def VEC_WRB (n : Nat) : Nat := 0x00800008 + 0x1000 * n
def VEC_WRB_LIMIT : Bits := ⟨7, 0⟩
def VEC_WRB_USED : Bits := ⟨23, 16⟩
def VEC_WRB_OVER : Bits := ⟨24, 24⟩
def VEC_STATUS (n : Nat) : Nat := 0x0080000C + 0x1000 * n
def VEC_STATUS_BUSY : Bits := ⟨0, 0⟩
def VEC_STATUS_ECC_CORR : Bits := ⟨8, 8⟩
def VEC_STATUS_ECC_UNCORR : Bits := ⟨9, 9⟩
def VEC_STATUS_CFG_REJECT : Bits := ⟨10, 10⟩
def VEC_BUDGET_OVR (n : Nat) : Nat := 0x00800010 + 0x1000 * n
def VEC_ITEMS (n : Nat) : Nat := 0x00800014 + 0x1000 * n
def VEC_SC_STATUS (n : Nat) : Nat := 0x008A0000 + 0x100 * n
def VEC_SC_STATUS_BUSY : Bits := ⟨0, 0⟩
def VEC_SC_STATUS_ECC_CORR : Bits := ⟨8, 8⟩
def VEC_SC_STATUS_ECC_UNCORR : Bits := ⟨9, 9⟩
def VEC_SC_BUDGET_OVR (n : Nat) : Nat := 0x008A0004 + 0x100 * n
def VEC_SC_ITEMS (n : Nat) : Nat := 0x008A0008 + 0x100 * n
def DOME_BANK_ID (n : Nat) : Nat := 0x00900000 + 0x40 * n
def DOME_BANK_ID_LOGICAL : Bits := ⟨5, 0⟩
def DOME_BANK_ID_SPARE : Bits := ⟨8, 8⟩
def DOME_BANK_ID_RETIRED : Bits := ⟨9, 9⟩
def DOME_BANK_ID_IN_SERVICE : Bits := ⟨10, 10⟩
def DOME_BANK_CORR (n : Nat) : Nat := 0x00900004 + 0x40 * n
def DOME_BANK_UNCORR (n : Nat) : Nat := 0x00900008 + 0x40 * n
def DOME_CFG : Nat := 0x00902000
def DOME_CFG_STARVE : Bits := ⟨7, 0⟩
def DOME_CFG_CFG_REJECT : Bits := ⟨8, 8⟩
def DOME_BOUNDS : Nat := 0x00902004
def DOME_POISONED : Nat := 0x00902008
def DOME_IMG_WR : Nat := 0x0090200C
def DOME_IECC_RANGE : Nat := 0x00902010
def DOME_TAG_LEDGER0 : Nat := 0x00910000
def DOME_TAG_LEDGER1 : Nat := 0x00910004
def DOME_TAG_LEDGER1_RETURNING : Bits := ⟨15, 0⟩
def DOME_TAG_LEDGER1_ERR : Bits := ⟨31, 31⟩
def DOME_TAG_HWM : Nat := 0x00910008
def DOME_TAG_HWM_HWM : Bits := ⟨15, 0⟩
def DOME_TAG_WAITS : Nat := 0x0091000C
def DOME_MEMGRP_ST (n : Nat) : Nat := 0x00910020 + 0x10 * n
def DOME_MEMGRP_ST_SELF_REFRESH : Bits := ⟨16, 16⟩
def DOME_MEMGRP_LINK_CORR (n : Nat) : Nat := 0x00910024 + 0x10 * n
def DOME_MEMGRP_LINK_UNCORR (n : Nat) : Nat := 0x00910028 + 0x10 * n
def DOME_MEMGRP_IECC (n : Nat) : Nat := 0x0091002C + 0x10 * n
def DOME_MEMGRP_IECC_IECC_CORR : Bits := ⟨15, 0⟩
def DOME_MEMGRP_IECC_IECC_UNCORR : Bits := ⟨31, 16⟩
def DOME_REGION (n : Nat) : Nat := 0x00920000 + 0x4 * n
def DOME_REGION_IECC : Bits := ⟨0, 0⟩
def DOME_REGION_IMAGE : Bits := ⟨1, 1⟩
def DOME_SYNC (n : Nat) : Nat := 0x00930000 + 0x4 * n
def ATN_CTRL : Nat := 0x00A00000
def ATN_CTRL_EN : Bits := ⟨0, 0⟩
def ATN_CTRL_TRACK_EN : Bits := ⟨1, 1⟩
def ATN_POOL_BASE_LO : Nat := 0x00A00008
def ATN_POOL_BASE_HI : Nat := 0x00A0000C
def ATN_POOL_PAGES : Nat := 0x00A00010
def ATN_POOL_PAGES_PAGES : Bits := ⟨18, 0⟩
def ATN_KVFMT : Nat := 0x00A00014
def ATN_KVFMT_H_KV : Bits := ⟨6, 0⟩
def ATN_KVFMT_D128 : Bits := ⟨8, 8⟩
def ATN_KVFMT_FMT : Bits := ⟨15, 12⟩
def ATN_KVFMT_T : Bits := ⟨25, 16⟩
def ATN_DESC_BASE_LO : Nat := 0x00A00018
def ATN_DESC_BASE_HI : Nat := 0x00A0001C
def ATN_XCHG : Nat := 0x00A00020
def ATN_XCHG_OFF : Bits := ⟨13, 0⟩
def ATN_TRACK_CFG : Nat := 0x00A00024
def ATN_TRACK_CFG_MAX_TRACKS : Bits := ⟨12, 0⟩
def ATN_TRACK_CFG_TRACK_TOKENS : Bits := ⟨22, 16⟩
def ATN_TRACK_RULES : Nat := 0x00A00028
def ATN_TRACK_RULES_BIRTH_CONF : Bits := ⟨7, 0⟩
def ATN_TRACK_RULES_EVICT_AGE : Bits := ⟨15, 8⟩
def ATN_TRACK_RULES_CONFIRM_HITS : Bits := ⟨23, 16⟩
def ATN_TRACK_RULES_TENT_MISS : Bits := ⟨31, 24⟩
def ATN_TRACK_RULES2 : Nat := 0x00A0002C
def ATN_TRACK_RULES2_EXPIRE_AGE : Bits := ⟨15, 0⟩
def ATN_TRACK_RULES2_BIRTH_MAX : Bits := ⟨24, 16⟩
def ATN_STATUS : Nat := 0x00A00040
def ATN_STATUS_BUSY : Bits := ⟨0, 0⟩
def ATN_STATUS_MIG_BUSY : Bits := ⟨1, 1⟩
def ATN_STATUS_REBUILDING : Bits := ⟨2, 2⟩
def ATN_STATUS_XCHG_BAD : Bits := ⟨3, 3⟩
def ATN_STATUS_CFG_REJECT : Bits := ⟨8, 8⟩
def ATN_STATUS_NO_PAGES : Bits := ⟨9, 9⟩
def ATN_STATUS_PAGE_FAULT : Bits := ⟨10, 10⟩
def ATN_STATUS_SEQ_FAULT : Bits := ⟨11, 11⟩
def ATN_STATUS_APPEND_OVF : Bits := ⟨12, 12⟩
def ATN_STATUS_LO_OVF : Bits := ⟨13, 13⟩
def ATN_RESERVE : Nat := 0x00A00044
def ATN_LIVE : Nat := 0x00A00048
def ATN_PAGE_FREE : Nat := 0x00A00050
def ATN_PAGE_ALLOC : Nat := 0x00A00054
def ATN_PAGE_QUAR : Nat := 0x00A00058
def ATN_PAGE_MIG : Nat := 0x00A0005C
def ATN_PAGE_MIG_MIGRATING : Bits := ⟨0, 0⟩
def ATN_PAGE_MIG_ERR : Bits := ⟨31, 31⟩
def ATN_MIGRATE : Nat := 0x00A00060
def ATN_MIGRATE_PAGE : Bits := ⟨17, 0⟩
def ATN_MIGRATE_QUARANTINE : Bits := ⟨31, 31⟩
def ATN_MIG_STATUS : Nat := 0x00A00064
def ATN_MIG_STATUS_DEST : Bits := ⟨17, 0⟩
def ATN_MIG_STATUS_LAST : Bits := ⟨29, 28⟩
def ATN_ATTENDS : Nat := 0x00A00080
def ATN_APPENDS : Nat := 0x00A00084
def ATN_EMPTY_ROWS : Nat := 0x00A00088
def ATN_PAGE_FAULTS : Nat := 0x00A0008C
def ATN_SEQ_FAULTS : Nat := 0x00A00090
def ATN_APPEND_OVF : Nat := 0x00A00094
def ATN_BIRTHS : Nat := 0x00A00098
def ATN_BIRTH_REFUSED : Nat := 0x00A0009C
def ATN_LO_REFUSED : Nat := 0x00A000A0
def ATN_EVICTIONS : Nat := 0x00A000A4
def ATN_EXPIRIES : Nat := 0x00A000A8
def ATN_MIGRATIONS : Nat := 0x00A000AC
def ATN_LO_DROPPED : Nat := 0x00A000B0
def SLV_CTRL : Nat := 0x00B00000
def SLV_CTRL_EN : Bits := ⟨0, 0⟩
def SLV_CTRL_COLD_REQ : Bits := ⟨1, 1⟩
def SLV_DEADLINE : Nat := 0x00B00004
def SLV_DEADLINE_US : Bits := ⟨9, 0⟩
def SLV_LIMITS : Nat := 0x00B00008
def SLV_LIMITS_MAX_ITER : Bits := ⟨11, 0⟩
def SLV_LIMITS_SPIRE_STAGES : Bits := ⟨19, 16⟩
def SLV_PIVOT_TAU : Nat := 0x00B0000C
def SLV_REG_DELTA : Nat := 0x00B00010
def SLV_STEP_TOL : Nat := 0x00B00014
def SLV_MULT_TOL : Nat := 0x00B00018
def SLV_REFINE_TOL : Nat := 0x00B0001C
def SLV_WORK : Nat := 0x00B00020
def SLV_WORK_OFF : Bits := ⟨13, 0⟩
def SLV_STATUS : Nat := 0x00B00040
def SLV_STATUS_BUSY : Bits := ⟨0, 0⟩
def SLV_STATUS_MODEL_ACTIVE : Bits := ⟨1, 1⟩
def SLV_STATUS_MODEL_STANDBY : Bits := ⟨2, 2⟩
def SLV_STATUS_WORK_BAD : Bits := ⟨3, 3⟩
def SLV_STATUS_ACTIVATE_PENDING : Bits := ⟨4, 4⟩
def SLV_STATUS_CFG_REJECT : Bits := ⟨8, 8⟩
def SLV_LAST_WORD0 : Nat := 0x00B00044
def SLV_LAST_WORD2 : Nat := 0x00B00048
def SLV_LAST_RESIDUAL : Nat := 0x00B0004C
def SLV_LAST_TIME : Nat := 0x00B00050
def SLV_SOLVES : Nat := 0x00B00060
def SLV_OPTIMAL : Nat := 0x00B00064
def SLV_TRUNCATED : Nat := 0x00B00068
def SLV_ITER_LIMITS : Nat := 0x00B0006C
def SLV_ACTIVE_LIMITS : Nat := 0x00B00070
def SLV_BAD_INPUTS : Nat := 0x00B00074
def SLV_REGULARISED : Nat := 0x00B00078
def SLV_SATURATED : Nat := 0x00B0007C
def SLV_ABORTED_UPDATES : Nat := 0x00B00080
def SLV_COLD_STARTS : Nat := 0x00B00084
def SLV_MODEL_ADDR_LO : Nat := 0x00B00100
def SLV_MODEL_ADDR_HI : Nat := 0x00B00104
def SLV_MODEL_DIM : Nat := 0x00B00108
def SLV_MODEL_N : Nat := 0x00B0010C
def SLV_MODEL_CRC : Nat := 0x00B00110
def SPR_STATE : Nat := 0x00C00000
def SPR_STATE_STATE : Bits := ⟨2, 0⟩
def SPR_STATE_READY : Bits := ⟨3, 3⟩
def SPR_STATE_VALID_PIN : Bits := ⟨4, 4⟩
def SPR_STATE_FAULT_PIN : Bits := ⟨5, 5⟩
def SPR_STATE_DEFERRALS : Bits := ⟨7, 6⟩
def SPR_STATE_LAST_REASON : Bits := ⟨15, 8⟩
def SPR_VERDICT : Nat := 0x00C00004
def SPR_VERDICT_VERDICT : Bits := ⟨15, 0⟩
def SPR_VERDICT_COUNT : Bits := ⟨31, 16⟩
def SPR_SEQ : Nat := 0x00C00008
def SPR_TOV : Nat := 0x00C0000C
def SPR_FAULT_LO : Nat := 0x00C00010
def SPR_FAULT_HI : Nat := 0x00C00014
def SPR_GOLD : Nat := 0x00C00020
def SPR_GOLD_LOADED : Bits := ⟨0, 0⟩
def SPR_GOLD_ROTATION : Bits := ⟨3, 1⟩
def SPR_GOLD_PENDING : Bits := ⟨4, 4⟩
def SPR_GOLD_RECHECK : Bits := ⟨5, 5⟩
def SPR_GOLD_PASSED : Bits := ⟨31, 16⟩
def SPR_GOLD_CNT : Nat := 0x00C00024
def SPR_GOLD_CNT_DEFERRED : Bits := ⟨15, 0⟩
def SPR_GOLD_CNT_FORCED : Bits := ⟨31, 16⟩
def SPR_SELFTEST : Nat := 0x00C00028
def SPR_SELFTEST_PASSES : Bits := ⟨15, 0⟩
def SPR_SELFTEST_EXCESS : Bits := ⟨23, 16⟩
def SPR_SELFTEST_MAX_MS : Bits := ⟨31, 24⟩
def SPR_CFG_CRC : Nat := 0x00C0002C
def SPR_GOLD_CRC : Nat := 0x00C00030
def SPR_WWD_WIN (n : Nat) : Nat := 0x00C00100 + 0x8 * n
def SPR_WWD_WIN_OPEN : Bits := ⟨15, 0⟩
def SPR_WWD_WIN_CLOSE : Bits := ⟨31, 16⟩
def SPR_WWD_FIRED (n : Nat) : Nat := 0x00C00104 + 0x8 * n
def SPR_REASON (n : Nat) : Nat := 0x00C00200 + 0x4 * n
def RST_CAUSE : Nat := 0x00D00000
def RST_CAUSE_CAUSE : Bits := ⟨8, 0⟩
def RST_FUSE_MAP : Nat := 0x00D00004
def RST_FUSE_ESC : Nat := 0x00D00008
def RST_FUSE_ESC_RETIRE_N : Bits := ⟨3, 0⟩
def RST_FUSE_ESC_RETIRE_WIN : Bits := ⟨11, 4⟩
def RST_FUSE_ESC_OOS_N : Bits := ⟨17, 12⟩
def RST_FUSE_ESC_OOS_WIN : Bits := ⟨25, 18⟩
def RST_CFG : Nat := 0x00D0000C
def RST_CFG_OUT_MASK : Bits := ⟨3, 0⟩
def RST_CFG_REPLAY_EN : Bits := ⟨4, 4⟩
def RST_STATE : Nat := 0x00D00010
def RST_STATE_PHASE : Bits := ⟨2, 0⟩
def RST_STATE_LEVEL : Bits := ⟨4, 3⟩
def RST_STATE_PARTITION : Bits := ⟨11, 8⟩
def RST_STATE_UNIT : Bits := ⟨31, 16⟩
def RST_LAST : Nat := 0x00D00014
def RST_LAST_LEVEL : Bits := ⟨1, 0⟩
def RST_LAST_SOURCE : Bits := ⟨7, 4⟩
def RST_LAST_PARTITION : Bits := ⟨11, 8⟩
def RST_LAST_UNIT : Bits := ⟨31, 16⟩
def RST_LAST_TIME : Nat := 0x00D00018
def RST_LAST_DURATION : Nat := 0x00D0001C
def RST_FENCE : Nat := 0x00D00020
def RST_FENCE_PARTITIONS : Bits := ⟨11, 0⟩
def RST_FENCE_UNITS : Bits := ⟨31, 16⟩
def RST_ESC : Nat := 0x00D00024
def RST_ESC_IN_WINDOW : Bits := ⟨5, 0⟩
def RST_ESC_OOS : Bits := ⟨8, 8⟩
def RST_ESC_TOTAL : Bits := ⟨31, 16⟩
def RST_PM : Nat := 0x00D00028
def RST_PM_NEXT : Bits := ⟨4, 0⟩
def RST_PM_CAPTURES : Bits := ⟨31, 16⟩
def RST_AUDIT : Nat := 0x00D0002C
def RST_AUDIT_RUN : Bits := ⟨0, 0⟩
def RST_AUDIT_BALANCED : Bits := ⟨5, 1⟩
def RST_DRAIN_ERR : Nat := 0x00D00040
def RST_REPLAYS : Nat := 0x00D00044
def RST_GUILTY : Nat := 0x00D00048
def RST_UNTESTED : Nat := 0x00D0004C
def RST_ABANDONED : Nat := 0x00D00050
def RST_ABSORBED : Nat := 0x00D00054
def RST_REFUSED (n : Nat) : Nat := 0x00D00080 + 0x4 * n
def RST_REFUSED_CONTEXT : Bits := ⟨15, 0⟩
def RST_REFUSED_VALID : Bits := ⟨31, 31⟩
def RST_UNIT (n : Nat) : Nat := 0x00D01000 + 0x4 * n
def RST_UNIT_FENCED : Bits := ⟨0, 0⟩
def RST_UNIT_RECOVERING : Bits := ⟨1, 1⟩
def RST_UNIT_RETIRED : Bits := ⟨2, 2⟩
def RST_UNIT_IN_WINDOW : Bits := ⟨7, 4⟩
def RST_UNIT_TOTAL : Bits := ⟨31, 16⟩
def CUP_STATUS : Nat := 0x00E00000
def CUP_STATUS_BELOW_FLOOR : Bits := ⟨0, 0⟩
def CUP_STATUS_THERM_WARN : Bits := ⟨1, 1⟩
def CUP_STATUS_ROM_RECOVERY : Bits := ⟨2, 2⟩
def CUP_STATUS_CFG_REJECT : Bits := ⟨8, 8⟩
def CUP_FW : Nat := 0x00E00004
def CUP_FW_BANK : Bits := ⟨0, 0⟩
def CUP_FW_TRIAL : Bits := ⟨1, 1⟩
def CUP_FW_FALLBACK : Bits := ⟨2, 2⟩
def CUP_FW_SVN : Bits := ⟨14, 8⟩
def CUP_FW_COUNT : Bits := ⟨22, 16⟩
def CUP_VCORE : Nat := 0x00E00010
def CUP_VCORE_TARGET : Bits := ⟨9, 0⟩
def CUP_VCORE_VMIN : Bits := ⟨19, 10⟩
def CUP_VCORE_VMAX : Bits := ⟨29, 20⟩
def CUP_VCORE_FIXED : Bits := ⟨30, 30⟩
def CUP_PCAP : Nat := 0x00E00014
def CUP_PCAP_CAP : Bits := ⟨7, 0⟩
def CUP_THERM : Nat := 0x00E00018
def CUP_THERM_WARN : Bits := ⟨7, 0⟩
def CUP_THERM_TRIP : Bits := ⟨15, 8⟩
def CUP_TEMP (n : Nat) : Nat := 0x00E00100 + 0x4 * n
def CUP_TEMP_TEMP : Bits := ⟨15, 0⟩
def CUP_VMON (n : Nat) : Nat := 0x00E00200 + 0x4 * n
def CUP_VMON_MV : Bits := ⟨11, 0⟩
def CUP_VMON_OUT : Bits := ⟨16, 16⟩
def CUP_POWER (n : Nat) : Nat := 0x00E00280 + 0x4 * n
def CUP_POWER_MW : Bits := ⟨15, 0⟩
def CUP_CANARY (n : Nat) : Nat := 0x00E00300 + 0x4 * n
def CUP_CANARY_RATE : Bits := ⟨15, 0⟩
def CUP_CANARY_DRIFT : Bits := ⟨31, 16⟩
def CUP_LOG_NEXT : Nat := 0x00E00400
def CUP_LOG_PERSISTED : Nat := 0x00E00404
def CUP_LOG_OVERWRITES : Nat := 0x00E00408
def CUP_BUDGET (n : Nat) : Nat := 0x00E00420 + 0x4 * n
def CUP_MAP_MXA (n : Nat) : Nat := 0x00E01000 + 0x4 * n
def CUP_MAP_MXA_PHYSICAL : Bits := ⟨7, 0⟩
def CUP_MAP_MXA_NONE : Bits := ⟨31, 31⟩
def CUP_MAP_VEC (n : Nat) : Nat := 0x00E01100 + 0x4 * n
def CUP_MAP_VEC_PHYSICAL : Bits := ⟨7, 0⟩
def CUP_MAP_VEC_NONE : Bits := ⟨31, 31⟩
def CUP_MAP_DOME (n : Nat) : Nat := 0x00E01400 + 0x4 * n
def CUP_MAP_DOME_PHYSICAL : Bits := ⟨7, 0⟩
def CUP_MAP_DOME_NONE : Bits := ⟨31, 31⟩
def CUP_SPARE : Nat := 0x00E01600
def CUP_SPARE_MXA_LEFT : Bits := ⟨1, 0⟩
def CUP_SPARE_VEC_LEFT : Bits := ⟨11, 8⟩
def CUP_SPARE_DOME_LEFT : Bits := ⟨18, 16⟩
def CUP_SPARE_BUSY : Bits := ⟨24, 24⟩
def CUP_SPARE_QUEUED : Bits := ⟨31, 27⟩
def TOL_CTRL (n : Nat) : Nat := 0x00F00000 + 0x1000 * n
def TOL_CTRL_EN : Bits := ⟨0, 0⟩
def TOL_CTRL_JOB_EN : Bits := ⟨1, 1⟩
def TOL_STATUS (n : Nat) : Nat := 0x00F00004 + 0x1000 * n
def TOL_STATUS_STATE : Bits := ⟨1, 0⟩
def TOL_STATUS_SPARE_FOR : Bits := ⟨6, 4⟩
def TOL_STATUS_CFG_REJECT : Bits := ⟨8, 8⟩
def TOL_STATUS_CREDIT_ERR : Bits := ⟨9, 9⟩
def TOL_RXWIN_BASE (n : Nat) : Nat := 0x00F00008 + 0x1000 * n
def TOL_RXWIN_BYTES (n : Nat) : Nat := 0x00F0000C + 0x1000 * n
def TOL_RXWIN_BYTES_BYTES : Bits := ⟨26, 0⟩
def TOL_VC_TX (n m : Nat) : Nat := 0x00F00020 + 0x1000 * n + 0x10 * m
def TOL_VC_TX_AVAIL : Bits := ⟨15, 0⟩
def TOL_VC_TX_OUTSTANDING : Bits := ⟨31, 16⟩
def TOL_VC_RX (n m : Nat) : Nat := 0x00F00024 + 0x1000 * n + 0x10 * m
def TOL_VC_RX_FREE : Bits := ⟨15, 0⟩
def TOL_VC_RX_HELD : Bits := ⟨31, 16⟩
def TOL_VC_RET (n m : Nat) : Nat := 0x00F00028 + 0x1000 * n + 0x10 * m
def TOL_VC_RET_RETURNING : Bits := ⟨15, 0⟩
def TOL_VC_RET_ERR : Bits := ⟨31, 31⟩
def TOL_VC_CAP (n m : Nat) : Nat := 0x00F0002C + 0x1000 * n + 0x10 * m
def TOL_VC_CAP_ADVERT : Bits := ⟨15, 0⟩
def TOL_VC_CAP_BUF : Bits := ⟨31, 16⟩
def TOL_FEC_CORR (n : Nat) : Nat := 0x00F00080 + 0x1000 * n
def TOL_CRC_RETRY (n : Nat) : Nat := 0x00F00084 + 0x1000 * n
def TOL_DOWN_EVENTS (n : Nat) : Nat := 0x00F00088 + 0x1000 * n
def TOL_ABORT_RX (n : Nat) : Nat := 0x00F0008C + 0x1000 * n
def TOL_ABORT_TX (n : Nat) : Nat := 0x00F00090 + 0x1000 * n
def TOL_ABORT_DUP (n : Nat) : Nat := 0x00F00094 + 0x1000 * n
def TOL_RXWIN_DISCARD (n : Nat) : Nat := 0x00F00098 + 0x1000 * n
def TOL_JOB : Nat := 0x00F02000
def TOL_JOB_JOB_ID : Bits := ⟨15, 0⟩
def TOL_JOB_MODULE_ID : Bits := ⟨18, 16⟩
def TOL_JOB_ABORTED : Bits := ⟨31, 31⟩
def LNT_STATUS : Nat := 0x01000000
def LNT_STATUS_LOCK_FUSE : Bits := ⟨0, 0⟩
def LNT_STATUS_SCOPE : Bits := ⟨4, 1⟩
def LNT_STATUS_CFG_REJECT : Bits := ⟨8, 8⟩
def LNT_FREEZE : Nat := 0x01000004
def LNT_FREEZE_COUNT : Bits := ⟨15, 0⟩
def LNT_SEL (n : Nat) : Nat := 0x01000100 + 0x4 * n
def LNT_SEL_SIGNAL : Bits := ⟨11, 0⟩
def LNT_SEL_INVERT : Bits := ⟨12, 12⟩
def LNT_SEL_STRETCH : Bits := ⟨13, 13⟩
def LNT_SEL_EN : Bits := ⟨14, 14⟩

/-- Registers of block 0x00, part 0 (R318). -/
def rows00p0 : List RegRow := [
  r1 "DEV_ID" 0x00000000 [fk 15 0 .ro 0x8740, fk 23 16 .ro 0xA0],
  r1 "DEV_SERIAL_LO" 0x00000008 [⟨31, 0, .ro, fusedSerialLo⟩],
  r1 "DEV_SERIAL_HI" 0x0000000C [⟨31, 0, .ro, fusedSerialHi⟩],
  r1 "DEV_RUN" 0x00000010 [fk 2 0 .ro 0, fk 3 3 .ro 0, fk 4 4 .ro 0],
  r1 "DEV_ACCESS_ERR" 0x00000020 [fk 0 0 .w1c 0, fk 1 1 .w1c 0, fk 2 2 .w1c 0]]
/-- Every register of block 0x00. -/
def rows00 : List RegRow := rows00p0
/-- Registers of block 0x01, part 0 (R318). -/
def rows01p0 : List RegRow := [
  rn "CMD_SQ_BASE_LO" 0x00101000 0x40 4 [fk 31 0 .rw 0],
  rn "CMD_SQ_BASE_HI" 0x00101004 0x40 4 [fk 31 0 .rw 0],
  rn "CMD_CQ_BASE_LO" 0x00101008 0x40 4 [fk 31 0 .rw 0],
  rn "CMD_CQ_BASE_HI" 0x0010100C 0x40 4 [fk 31 0 .rw 0],
  rn "CMD_CFG" 0x00101010 0x40 4 [fk 0 0 .rw 0, fk 4 1 .rw 4, fk 8 5 .rw 4, fk 12 9 .rw 0, fk 16 13 .rw 0, fk 17 17 .rw 0],
  rn "CMD_SQ_TAIL" 0x00101014 0x40 4 [fk 11 0 .rw 0],
  rn "CMD_SQ_HEAD" 0x00101018 0x40 4 [fk 11 0 .ro 0],
  rn "CMD_CQ_HEAD" 0x0010101C 0x40 4 [fk 11 0 .rw 0],
  rn "CMD_CQ_TAIL" 0x00101020 0x40 4 [fk 11 0 .ro 0],
  rn "CMD_ST" 0x00101024 0x40 4 [fk 0 0 .ro 0, fk 1 1 .w1c 0, fk 2 2 .w1c 0, fk 3 3 .w1c 0, fk 4 4 .w1c 0],
  rn "CMD_EXPECT_SEQ" 0x00101028 0x40 4 [fk 15 0 .ro 0],
  rn "CMD_LEDGER" 0x0010102C 0x40 4 [fk 12 0 .ro 0, fk 13 13 .ro 0, fk 14 14 .ro 0, fk 27 15 .ro 0, fk 31 31 .w1c 0]]
/-- Registers of block 0x01, part 1 (R318). -/
def rows01p1 : List RegRow := [
  rn "CMD_CMDS" 0x00101030 0x40 4 [fk 31 0 .rc 0],
  rn "CMD_REJECTS" 0x00101034 0x40 4 [fk 31 0 .rc 0],
  r1 "CMD_RES_BASE_LO" 0x00102000 [fk 31 0 .rw 0x00000000],
  r1 "CMD_RES_BASE_HI" 0x00102004 [fk 31 0 .rw 0x00000001],
  r1 "CMD_RES_SLOTS" 0x00102008 [fk 8 0 .rw 32, fk 22 16 .rw 16],
  r1 "CMD_RES_CTRL" 0x0010200C [fk 0 0 .ro 1, fk 1 1 .rw 0, fk 8 8 .w1c 0, fk 9 9 .w1c 0],
  r1 "CMD_MIR_BASE_LO" 0x00102010 [fk 31 0 .rw 0],
  r1 "CMD_MIR_BASE_HI" 0x00102014 [fk 31 0 .rw 0],
  r1 "CMD_MIR_IDX_LO" 0x00102018 [fk 31 0 .rw 0],
  r1 "CMD_MIR_IDX_HI" 0x0010201C [fk 31 0 .rw 0],
  r1 "CMD_MIR_CFG" 0x00102020 [fk 8 0 .rw 8, fk 22 16 .rw 16, fk 28 24 .rw 0x1F],
  r1 "CMD_MIR_IDX_HEAD" 0x00102024 [fk 8 0 .rw 0]]
/-- Registers of block 0x01, part 2 (R318). -/
def rows01p2 : List RegRow := [
  r1 "CMD_MIR_IDX_TAIL" 0x00102028 [fk 8 0 .ro 0],
  r1 "CMD_LAST_SEQ_LO" 0x0010202C [fk 31 0 .ro 0xFFFFFFFF],
  r1 "CMD_LAST_SEQ_HI" 0x00102030 [fk 31 0 .ro 0xFFFFFFFF],
  r1 "CMD_UNPUBLISHED" 0x00102034 [fk 31 0 .rc 0],
  r1 "CMD_MIRROR_SKIP" 0x00102038 [fk 31 0 .rc 0],
  r1 "CMD_NO_VERDICT" 0x0010203C [fk 31 0 .rc 0],
  rn "MSIX_ADDR_LO" 0x0010F000 0x10 32 [fk 31 2 .rw 0],
  rn "MSIX_ADDR_HI" 0x0010F004 0x10 32 [fk 31 0 .rw 0],
  rn "MSIX_DATA" 0x0010F008 0x10 32 [fk 31 0 .rw 0],
  rn "MSIX_CTRL" 0x0010F00C 0x10 32 [fk 0 0 .rw 1],
  r1 "MSIX_PBA" 0x0010F800 [fk 31 0 .ro 0],
  r1 "MSIX_PBA_HI" 0x0010F804 [fk 31 0 .ro 0]]
/-- Registers of block 0x01, part 3 (R318). -/
def rows01p3 : List RegRow := [
  r1 "CMD_MCTP" 0x00103000 [fk 7 0 .ro 0, fk 8 8 .rw 1, fk 18 16 .rw 0]]
/-- Every register of block 0x01. -/
def rows01 : List RegRow := rows01p0 ++ rows01p1 ++ rows01p2 ++ rows01p3
/-- Registers of block 0x02, part 0 (R72). -/
def rows02p0 : List RegRow := [
  r1 "BLF_CTRL" 0x00200000 [fk 1 0 .rw 0, fk 3 2 .rw 0, fk 4 4 .rw 0, fk 11 5 .rw 0, fk 18 12 .rw 100, fk 19 19 .rw 0, fk 24 20 .rw 0, fk 25 25 .rw 0],
  r1 "BLF_STATUS" 0x00200004 [fk 0 0 .ro 0, fk 1 1 .ro 0, fk 2 2 .ro 0, fk 3 3 .ro 0, fk 4 4 .ro 0, fk 8 8 .w1c 0, fk 9 9 .w1c 0, fk 19 16 .ro 0xF],
  r1 "BLF_STEP_LIMIT" 0x00200008 [fk 31 0 .rw 100000],
  r1 "BLF_LOCK" 0x0020000C [fk 15 0 .rw 50, fk 23 16 .rw 16],
  r1 "BLF_NOW_FRAC" 0x00200010 [fk 15 0 .ro 0],
  r1 "BLF_NOW_NS" 0x00200014 [fk 31 0 .ro 0],
  r1 "BLF_NOW_SEC_LO" 0x00200018 [fk 31 0 .ro 0],
  r1 "BLF_NOW_SEC_HI" 0x0020001C [fk 15 0 .ro 0],
  r1 "BLF_NOW_LIN" 0x00200020 [fk 31 0 .ro 0],
  r1 "BLF_RATE_LO" 0x00200030 [fk 31 0 .rw 0],
  r1 "BLF_RATE_HI" 0x00200034 [fk 31 0 .rw 0],
  r1 "BLF_ADJ_LO" 0x00200038 [fk 31 0 .wo 0]]
/-- Registers of block 0x02, part 1 (R72). -/
def rows02p1 : List RegRow := [
  r1 "BLF_ADJ_HI" 0x0020003C [fk 31 0 .wo 0],
  r1 "BLF_SLEW_LO" 0x00200040 [fk 31 0 .ro 0],
  r1 "BLF_SLEW_HI" 0x00200044 [fk 31 0 .ro 0],
  r1 "BLF_XTS_CTRL" 0x00200050 [fk 31 0 .wo 0],
  r1 "BLF_XTS_FRAC" 0x00200054 [fk 15 0 .ro 0],
  r1 "BLF_XTS_NS" 0x00200058 [fk 31 0 .ro 0],
  r1 "BLF_XTS_SEC_LO" 0x0020005C [fk 31 0 .ro 0],
  r1 "BLF_XTS_SEC_HI" 0x00200060 [fk 15 0 .ro 0],
  rn "BLF_CMP_VAL" 0x00201000 0x10 16 [⟨31, 0, .rw, rstCmpVal⟩],
  rn "BLF_CMP_RELOAD" 0x00201004 0x10 16 [⟨31, 0, .rw, rstCmpReload⟩],
  rn "BLF_CMP_CTRL" 0x00201008 0x10 16 [⟨0, 0, .rw, rstCmpArm⟩, fk 1 1 .rw 0],
  rn "BLF_CMP_STATUS" 0x0020100C 0x10 16 [fk 0 0 .w1c 0, fk 1 1 .w1c 0]]
/-- Registers of block 0x02, part 2 (R72). -/
def rows02p2 : List RegRow := [
  rn "BLF_TRIG_MODE" 0x00202000 0x20 16 [fk 1 0 .rw 0, fk 2 2 .rw 0, fk 15 8 .rw 1],
  rn "BLF_TRIG_START" 0x00202004 0x20 16 [fk 31 0 .rw 0],
  rn "BLF_TRIG_START_FRAC" 0x00202008 0x20 16 [fk 15 0 .rw 0],
  rn "BLF_TRIG_PERIOD" 0x0020200C 0x20 16 [fk 31 0 .rw 0],
  rn "BLF_TRIG_PERIOD_FRAC" 0x00202010 0x20 16 [fk 15 0 .rw 0],
  rn "BLF_TRIG_WIDTH" 0x00202014 0x20 16 [fk 15 0 .rw 0],
  rn "BLF_TRIG_PHASE" 0x00202018 0x20 16 [fk 19 0 .rw 0],
  rn "BLF_TRIG_STATUS" 0x0020201C 0x20 16 [fk 0 0 .w1c 0, fk 1 1 .w1c 0, fk 31 16 .ro 0],
  rn "BLF_CAP_CFG" 0x00203000 0x20 32 [fk 1 0 .rw 0, fk 3 2 .rw 0, fk 4 4 .rw 0, fk 9 5 .rw 0, fk 10 10 .rw 0],
  rn "BLF_CAP_STATUS" 0x00203004 0x20 32 [fk 4 0 .ro 0, fk 8 8 .w1c 0, fk 9 9 .w1c 0, fk 31 16 .ro 0],
  rn "BLF_CAP_POP0" 0x00203008 0x20 32 [fk 15 0 .rc 0, fk 16 16 .rc 0, fk 31 31 .rc 0],
  rn "BLF_CAP_NS" 0x0020300C 0x20 32 [fk 31 0 .ro 0]]
/-- Registers of block 0x02, part 3 (R72). -/
def rows02p3 : List RegRow := [
  rn "BLF_CAP_SEC_LO" 0x00203010 0x20 32 [fk 31 0 .ro 0],
  rn "BLF_CAP_SEC_HI" 0x00203014 0x20 32 [fk 31 0 .ro 0],
  rn "BLF_PORT_CFG" 0x00204000 0x40 10 [fk 0 0 .rw 0, fk 1 1 .rw 0, fk 3 2 .rw 0, fk 5 4 .rw 0, fk 6 6 .rw 0],
  rn "BLF_PORT_STATE" 0x00204004 0x40 10 [fk 3 0 .ro 3],
  rn "BLF_PORT_INGRESS_LAT" 0x00204008 0x40 10 [fk 31 0 .rw 0],
  rn "BLF_PORT_EGRESS_LAT" 0x0020400C 0x40 10 [fk 31 0 .rw 0],
  rn "BLF_PORT_ASYM" 0x00204010 0x40 10 [fk 31 0 .rw 0],
  rn "BLF_PORT_PATH_DELAY" 0x00204014 0x40 10 [fk 31 0 .ro 0],
  rn "BLF_PORT_OFFSET" 0x00204018 0x40 10 [fk 31 0 .ro 0],
  rn "BLF_PORT_RX_EVENTS" 0x0020401C 0x40 10 [fk 31 0 .rc 0],
  rn "BLF_PORT_TX_EVENTS" 0x00204020 0x40 10 [fk 31 0 .rc 0],
  r1 "BLF_TXQ_STATUS" 0x00205000 [fk 5 0 .ro 0, fk 8 8 .w1c 0, fk 31 16 .ro 0]]
/-- Registers of block 0x02, part 4 (R72). -/
def rows02p4 : List RegRow := [
  r1 "BLF_TXQ_POP0" 0x00205004 [fk 15 0 .rc 0, fk 19 16 .rc 0, fk 21 20 .rc 0, fk 31 31 .rc 0],
  r1 "BLF_TXQ_FRAC" 0x00205008 [fk 31 0 .ro 0],
  r1 "BLF_TXQ_NS" 0x0020500C [fk 31 0 .ro 0],
  r1 "BLF_TXQ_SEC_LO" 0x00205010 [fk 31 0 .ro 0],
  r1 "BLF_TXQ_SEC_HI" 0x00205014 [fk 31 0 .ro 0]]
/-- Every register of block 0x02. -/
def rows02 : List RegRow := rows02p0 ++ rows02p1 ++ rows02p2 ++ rows02p3 ++ rows02p4
/-- Registers of block 0x03, part 0 (R100). -/
def rows03p0 : List RegRow := [
  rn "ING_CTRL" 0x00300000 0x1000 32 [fk 0 0 .rw 0, fk 1 1 .w1s 0, fk 2 2 .rw 0, fk 3 3 .rw 0],
  rn "ING_STATUS" 0x00300004 0x1000 32 [fk 0 0 .ro 0, fk 1 1 .ro 0, fk 2 2 .ro 0, ⟨3, 3, .ro, rstIngLink⟩, fk 8 8 .w1c 0, fk 9 9 .w1c 0, fk 10 10 .w1c 0, ⟨26, 24, .ro, rstIngKind⟩],
  rn "ING_OCC" 0x0030000C 0x1000 32 [fk 17 0 .ro 0],
  rn "ING_CUT" 0x00300010 0x1000 32 [fk 16 0 .rw 0],
  rn "ING_WM" 0x00300014 0x1000 32 [fk 12 0 .rw 2048, fk 28 16 .rw 3072],
  rn "ING_MAXFRAME" 0x00300018 0x1000 32 [fk 16 0 .rw 9216],
  rn "ING_PKT_TMO" 0x0030001C 0x1000 32 [fk 15 0 .rw 50],
  rn "ING_PFC" 0x00300020 0x1000 32 [fk 7 0 .rw 0xFF, fk 31 16 .rw 0xFFFF],
  rn "ING_PFC_REFRESH" 0x00300024 0x1000 32 [fk 15 0 .rw 0x8000],
  rn "ING_BANKS" 0x00300028 0x1000 32 [fk 1 0 .ro 0, fk 3 2 .ro 0, fk 4 4 .ro 0, fk 27 16 .ro 0],
  rn "ING_RX_PKTS" 0x00300040 0x1000 32 [fk 31 0 .rc 0],
  rn "ING_OVR_PKTS" 0x00300044 0x1000 32 [fk 31 0 .rc 0]]
/-- Registers of block 0x03, part 1 (R100). -/
def rows03p1 : List RegRow := [
  rn "ING_TRUNC_PKTS" 0x00300048 0x1000 32 [fk 31 0 .rc 0],
  rn "ING_BAD_PKTS" 0x0030004C 0x1000 32 [fk 31 0 .rc 0],
  rn "ING_MALF_PKTS" 0x00300050 0x1000 32 [fk 31 0 .rc 0],
  rn "ING_ABORT_PKTS" 0x00300054 0x1000 32 [fk 31 0 .rc 0],
  rn "ING_FLUSH_PKTS" 0x00300058 0x1000 32 [fk 31 0 .rc 0],
  rn "ING_CSI_CFG" 0x00300100 0x1000 16 [fk 2 0 .rw 4, fk 7 4 .rw 1, fk 8 8 .rw 0],
  rn "ING_CSI_DT" 0x00300104 0x1000 16 [fk 5 0 .rw 0x2C],
  rn "ING_CSI_FRAMES" 0x00300108 0x1000 16 [fk 15 0 .ro 0],
  rn "ING_ETH_CFG" 0x00310100 0x1000 8 [fk 1 0 .rw 0, fk 2 2 .rw 0, fk 3 3 .rw 1],
  rn "ING_ETH_MAC_LO" 0x00310104 0x1000 8 [fk 31 0 .rw 0],
  rn "ING_ETH_MAC_HI" 0x00310108 0x1000 8 [fk 15 0 .rw 0],
  rn "ING_CAN_CFG" 0x00318100 0x1000 4 [fk 0 0 .rw 1, fk 1 1 .rw 0, fk 2 2 .rw 1]]
/-- Registers of block 0x03, part 2 (R100). -/
def rows03p2 : List RegRow := [
  rn "ING_CAN_NOM" 0x00318104 0x1000 4 [fk 7 0 .rw 0, fk 15 8 .rw 0, fk 22 16 .rw 0, fk 30 24 .rw 0],
  rn "ING_CAN_DATA" 0x00318108 0x1000 4 [fk 7 0 .rw 0, fk 15 8 .rw 0, fk 22 16 .rw 0, fk 30 24 .rw 0],
  rn "ING_CAN_XDATA" 0x0031810C 0x1000 4 [fk 7 0 .rw 0, fk 15 8 .rw 0, fk 22 16 .rw 0, fk 30 24 .rw 0],
  rn "ING_CAN_FILTER_EN" 0x00318110 0x1000 4 [fk 31 0 .rw 0],
  ⟨"ING_CAN_ID", 0x00318200, 0x1000, 4, 0x8, 32, [fk 31 0 .rw 0]⟩,
  ⟨"ING_CAN_MASK", 0x00318204, 0x1000, 4, 0x8, 32, [fk 31 0 .rw 0]⟩,
  rn "ING_SPI_CFG" 0x0031C100 0x1000 2 [fk 1 0 .rw 0, fk 9 2 .rw 4, fk 22 16 .rw 32, fk 24 24 .rw 0],
  rn "ING_SPI_PERIOD" 0x0031C104 0x1000 2 [fk 15 0 .rw 125],
  ⟨"ING_SPI_CMD", 0x0031C108, 0x1000, 2, 0x4, 4, [fk 31 0 .rw 0]⟩,
  rn "ING_SPI_CMD_LEN" 0x0031C118 0x1000 2 [fk 4 0 .rw 0],
  rn "ING_ENC_CFG" 0x0031E100 0x1000 2 [fk 7 0 .rw 0, fk 15 8 .rw 0, fk 17 16 .rw 0],
  rn "ING_ENC_REPORT" 0x0031E104 0x1000 2 [fk 15 0 .rw 125]]
/-- Registers of block 0x03, part 3 (R100). -/
def rows03p3 : List RegRow := [
  ⟨"ING_ENC_COUNT", 0x0031E120, 0x1000, 2, 0x4, 8, [fk 31 0 .ro 0]⟩,
  r1 "ING_LEDGER" 0x003DE000 [fk 6 0 .ro 64, fk 14 8 .ro 0, fk 22 16 .ro 0, fk 30 24 .ro 0, fk 31 31 .w1c 0],
  rn "ING_GRP_MASK" 0x003DF000 0x4 8 [⟨31, 0, .rw, rstGrpMask⟩]]
/-- Every register of block 0x03. -/
def rows03 : List RegRow := rows03p0 ++ rows03p1 ++ rows03p2 ++ rows03p3
/-- Registers of block 0x04, part 0 (R126). -/
def rows04p0 : List RegRow := [
  rn "SLC_CH_CFG" 0x00400000 0x100 32 [fk 0 0 .rw 0, fk 2 1 .rw 0, ⟨3, 3, .rw, rstSlcDefer⟩, fk 4 4 .rw 0, fk 5 5 .rw 0, fk 6 6 .rw 1],
  rn "SLC_CH_TOFF" 0x00400004 0x100 32 [fk 31 0 .rw 0],
  rn "SLC_CH_TOFF_CAL" 0x00400008 0x100 32 [fk 31 0 .ro 0],
  rn "SLC_CH_NOMLAT" 0x0040000C 0x100 32 [fk 23 0 .rw 0],
  rn "SLC_CH_FRAME_PERIOD" 0x00400010 0x100 32 [fk 19 0 .rw 1000],
  rn "SLC_CH_POINT" 0x00400014 0x100 32 [fk 15 0 .rw 0, fk 23 16 .rw 16],
  rn "SLC_CH_OFFS" 0x00400018 0x100 32 [fk 7 0 .rw 0, fk 15 8 .rw 4, fk 23 16 .rw 8, fk 31 24 .rw 12],
  rn "SLC_CH_FMT" 0x0040001C 0x100 32 [fk 0 0 .rw 0, fk 1 1 .rw 0, fk 2 2 .rw 0, fk 4 3 .rw 0, fk 5 5 .rw 0, fk 31 16 .rw 1000],
  rn "SLC_CH_HDR_T_OFF" 0x00400020 0x100 32 [fk 15 0 .rw 0],
  rn "SLC_CH_STATUS" 0x00400040 0x100 32 [fk 1 0 .ro 0, fk 2 2 .ro 0, fk 8 8 .w1c 0, fk 9 9 .w1c 0, fk 10 10 .w1c 0],
  rn "SLC_CH_OFFSET_EST" 0x00400044 0x100 32 [fk 31 0 .ro 0],
  rn "SLC_CH_LATE_ADMITTED" 0x00400048 0x100 32 [fk 31 0 .rc 0]]
/-- Registers of block 0x04, part 1 (R126). -/
def rows04p1 : List RegRow := [
  rn "SLC_CH_LATE_DROPPED" 0x0040004C 0x100 32 [fk 31 0 .rc 0],
  rn "SLC_CH_FUTURE_DROPPED" 0x00400050 0x100 32 [fk 31 0 .rc 0],
  rn "SLC_CH_DEFERRED" 0x00400054 0x100 32 [fk 31 0 .rc 0],
  rn "SLC_CH_SAMPLES" 0x00400058 0x100 32 [fk 31 0 .rc 0],
  rn "SLC_CH_LAST_LIN" 0x0040005C 0x100 32 [fk 31 0 .ro 0],
  r1 "SLC_CLOSE" 0x00410000 [fk 5 0 .rw 20],
  r1 "SLC_LATE_LIMIT" 0x00410004 [fk 9 0 .rw 50],
  r1 "SLC_SYNC" 0x00410008 [fk 15 0 .rw 10, fk 23 16 .rw 4],
  r1 "SLC_VOBJ" 0x0041000C [fk 23 0 .rw 15000],
  r1 "SLC_STATUS" 0x00410010 [fk 0 0 .w1c 0, fk 1 1 .ro 0],
  r1 "SLC_EGO_CFG" 0x00411000 [fk 0 0 .rw 0, fk 1 1 .rw 0, fk 2 2 .rw 0, fk 3 3 .rw 1, fk 4 4 .rw 1],
  r1 "SLC_EGO_TAU" 0x00411004 [fk 15 0 .rw 200, fk 31 16 .rw 500]]
/-- Registers of block 0x04, part 2 (R126). -/
def rows04p2 : List RegRow := [
  r1 "SLC_EGO_TIMES" 0x00411008 [fk 15 0 .rw 200, fk 31 16 .rw 200],
  r1 "SLC_EGO_EXTRAP" 0x0041100C [fk 15 0 .rw 1000, fk 31 16 .rw 300],
  r1 "SLC_EGO_IMU_ONLY" 0x00411010 [fk 15 0 .rw 1000],
  r1 "SLC_EGO_TRACK" 0x00411014 [fk 23 0 .rw 0],
  r1 "SLC_EGO_STATUS" 0x00411018 [fk 7 0 .ro 0],
  r1 "SLC_EGO_LATE" 0x0041101C [fk 31 0 .rc 0],
  rn "SLC_IMU_GYRO" 0x00411100 0x20 2 [fk 7 0 .rw 0, fk 15 8 .rw 2, fk 23 16 .rw 4, fk 24 24 .rw 0, fk 25 25 .rw 1],
  rn "SLC_IMU_ACC" 0x00411104 0x20 2 [fk 7 0 .rw 6, fk 15 8 .rw 8, fk 23 16 .rw 10],
  rn "SLC_IMU_GYRO_SCALE" 0x00411108 0x20 2 [fk 31 0 .rw 0],
  rn "SLC_IMU_ACC_SCALE" 0x0041110C 0x20 2 [fk 31 0 .rw 0],
  rn "SLC_IMU_AXIS_MAP" 0x00411110 0x20 2 [fk 10 0 .rw 0x210],
  rn "SLC_WHEEL" 0x00411200 0x4 16 [fk 23 0 .rw 0, fk 25 24 .rw 0, fk 26 26 .rw 0]]
/-- Registers of block 0x04, part 3 (R23). -/
def rows04p3 : List RegRow := [
  r1 "SLC_GOV_CTRL" 0x004E0000 [fk 1 0 .rw 3],
  r1 "SLC_GOV_RATE" 0x004E0004 [fk 15 0 .ro 0, fk 21 16 .ro 0],
  r1 "SLC_GOV_DEADLINE" 0x004E0008 [fk 15 0 .rw 740],
  r1 "SLC_GOV_MARGIN" 0x004E000C [fk 15 0 .rw 40, fk 31 16 .rw 150],
  r1 "SLC_GOV_RELAX_CNT" 0x004E0010 [fk 7 0 .rw 16],
  r1 "SLC_GOV_LEVEL" 0x004E0014 [fk 1 0 .ro 0, fk 3 2 .ro 0, fk 11 4 .ro 0],
  r1 "SLC_GOV_SLACK" 0x004E0018 [fk 31 0 .ro 0],
  r1 "SLC_GOV_RAISES" 0x004E001C [fk 31 0 .rc 0],
  r1 "SLC_GOV_MISSES" 0x004E0020 [fk 31 0 .rc 0]]
/-- Every register of block 0x04. -/
def rows04 : List RegRow := rows04p0 ++ rows04p1 ++ rows04p2 ++ rows04p3
/-- Registers of block 0x05, part 0 (R156). -/
def rows05p0 : List RegRow := [
  r1 "VHE_CTRL" 0x00500000 [fk 0 0 .rw 0, fk 1 1 .rw 0, fk 2 2 .rw 0, fk 3 3 .rw 1],
  r1 "VHE_GRID" 0x00500004 [fk 9 0 .rw 320, fk 24 16 .rw 128],
  r1 "VHE_EPOCH" 0x00500008 [fk 6 0 .rw 10, fk 12 8 .rw 10, fk 29 24 .ro 0],
  r1 "VHE_CAP" 0x0050000C [fk 16 0 .rw 65536],
  r1 "VHE_STASH" 0x00500010 [fk 12 0 .rw 3072, fk 28 16 .rw 1024],
  r1 "VHE_TILE_LIMIT" 0x00500014 [fk 20 0 .rw 16384],
  r1 "VHE_TILE_RELAX" 0x00500018 [fk 20 0 .rw 4096],
  r1 "VHE_COARSEN" 0x0050001C [fk 2 0 .rw 4, fk 31 16 .rw 200],
  r1 "VHE_SEED" 0x00500020 [fk 31 0 .rw 0x5EED0001],
  r1 "VHE_STATUS" 0x00500040 [fk 12 0 .ro 0, fk 16 16 .w1c 0, fk 17 17 .w1c 0, fk 18 18 .w1c 0, fk 19 19 .w1c 0, fk 20 20 .w1c 0, fk 21 21 .ro 0],
  r1 "VHE_ZBASE" 0x00500044 [fk 31 0 .ro 0],
  r1 "VHE_CX" 0x00500048 [fk 31 0 .ro 0]]
/-- Registers of block 0x05, part 1 (R156). -/
def rows05p1 : List RegRow := [
  r1 "VHE_CY" 0x0050004C [fk 31 0 .ro 0],
  r1 "VHE_HELD" 0x00500050 [fk 20 0 .ro 0],
  r1 "VHE_PTS_IN" 0x00500060 [fk 31 0 .rc 0],
  r1 "VHE_DROPPED_CAP" 0x00500064 [fk 31 0 .rc 0],
  r1 "VHE_OUT_OF_GRID" 0x00500068 [fk 31 0 .rc 0],
  r1 "VHE_STALE" 0x0050006C [fk 31 0 .rc 0],
  r1 "VHE_NO_POSE" 0x00500070 [fk 31 0 .rc 0],
  r1 "VHE_HASH_LOST" 0x00500074 [fk 31 0 .rc 0],
  r1 "VHE_KICKS" 0x00500078 [fk 31 0 .rc 0],
  r1 "VHE_STASHED" 0x0050007C [fk 31 0 .rc 0],
  rn "VHE_TILE0" 0x00501000 0x10 2601 [fk 1 0 .ro 0, fk 2 2 .ro 1, fk 5 3 .ro 0, fk 13 8 .ro 0],
  rn "VHE_TILE_COUNT" 0x00501004 0x10 2601 [fk 20 0 .ro 0]]
/-- Registers of block 0x05, part 2 (R156). -/
def rows05p2 : List RegRow := [
  rn "VHE_TILE_CUR" 0x00501008 0x10 2601 [fk 20 0 .ro 0],
  rn "VHE_TILE_CALM" 0x0050100C 0x10 2601 [fk 15 0 .ro 0]]
/-- Every register of block 0x05. -/
def rows05 : List RegRow := rows05p0 ++ rows05p1 ++ rows05p2
/-- Registers of block 0x06, part 0 (R175). -/
def rows06p0 : List RegRow := [
  rn "CAM_CFG" 0x00600000 0x200 16 [fk 0 0 .rw 0, fk 2 1 .rw 0, fk 3 3 .rw 0],
  rn "CAM_SIZE" 0x00600004 0x200 16 [fk 12 0 .rw 3840, fk 28 16 .rw 2160],
  rn "CAM_BLACK" 0x00600008 0x200 16 [fk 11 0 .rw 0],
  rn "CAM_GAIN_RG" 0x0060000C 0x200 16 [fk 15 0 .rw 0x1000, fk 31 16 .rw 0x1000],
  rn "CAM_GAIN_B" 0x00600010 0x200 16 [fk 15 0 .rw 0x1000],
  ⟨"CAM_MATRIX", 0x00600014, 0x200, 16, 0x4, 4, [⟨15, 0, .rw, rstCamMatLo⟩, ⟨31, 16, .rw, rstCamMatHi⟩]⟩,
  rn "CAM_C22" 0x00600024 0x200 16 [fk 15 0 .rw 0x1000],
  ⟨"CAM_KNOT", 0x00600028, 0x200, 16, 0x4, 9, [⟨31, 0, .rw, rstCamKnot⟩]⟩,
  rn "CAM_OUT" 0x00600050 0x200 16 [fk 12 0 .rw 1920, fk 28 16 .rw 1080],
  ⟨"CAM_RECT", 0x00600054, 0x200, 16, 0x4, 4, [fk 31 0 .rw 0]⟩,
  ⟨"CAM_LENS", 0x00600064, 0x200, 16, 0x4, 10, [fk 31 0 .rw 0]⟩,
  rn "CAM_ROW_TIME" 0x0060008C 0x200 16 [fk 23 0 .rw 0]]
/-- Registers of block 0x06, part 1 (R175). -/
def rows06p1 : List RegRow := [
  rn "CAM_STATUS" 0x00600090 0x200 16 [fk 0 0 .ro 0, fk 1 1 .ro 0, fk 8 8 .w1c 0],
  rn "CAM_FRAMES_OK" 0x006000A0 0x200 16 [fk 31 0 .rc 0],
  rn "CAM_LOST_SHAPE" 0x006000A4 0x200 16 [fk 31 0 .rc 0],
  rn "CAM_LOST_LINE" 0x006000A8 0x200 16 [fk 31 0 .rc 0],
  rn "CAM_LOST_SHORT" 0x006000AC 0x200 16 [fk 31 0 .rc 0],
  rn "CAM_LOST_TMO" 0x006000B0 0x200 16 [fk 31 0 .rc 0],
  rn "CAM_LOST_NOBUF" 0x006000B4 0x200 16 [fk 31 0 .rc 0],
  rn "CAM_RECT_OOB" 0x006000B8 0x200 16 [fk 31 0 .rc 0],
  rn "CAM_NOM_QW" 0x00604000 0x40 24 [fk 31 0 .rw 0x40000000],
  ⟨"CAM_NOM_Q", 0x00604004, 0x40, 24, 0x4, 3, [fk 31 0 .rw 0]⟩,
  ⟨"CAM_NOM_T", 0x00604010, 0x40, 24, 0x4, 3, [fk 31 0 .rw 0]⟩,
  rn "CAM_EXT_CAL" 0x0060401C 0x40 24 [fk 0 0 .rw 0, fk 1 1 .ro 0, fk 2 2 .ro 0, fk 3 3 .ro 0]]
/-- Registers of block 0x06, part 2 (R175). -/
def rows06p2 : List RegRow := [
  ⟨"CAM_DTHETA", 0x00604020, 0x40, 24, 0x4, 3, [fk 31 0 .ro 0]⟩,
  ⟨"CAM_DT", 0x0060402C, 0x40, 24, 0x4, 3, [fk 31 0 .ro 0]⟩,
  rn "CAM_EXT_CNT" 0x00604038 0x40 24 [fk 15 0 .ro 0, fk 31 16 .ro 0],
  rn "CAM_EXT_LAST" 0x0060403C 0x40 24 [fk 2 0 .ro 0, fk 28 16 .ro 0],
  r1 "CAM_CAL_CTRL" 0x00605000 [fk 0 0 .rw 0, fk 5 1 .rw 16, fk 8 8 .w1c 0],
  r1 "CAM_CAL_STEP" 0x00605004 [fk 15 0 .rw 20, fk 31 16 .rw 1000],
  r1 "CAM_CAL_STEP_T" 0x00605008 [fk 15 0 .rw 250],
  r1 "CAM_CAL_MIN_RES" 0x0060500C [fk 12 0 .rw 512],
  r1 "CAM_CAL_PIVOT" 0x00605010 [fk 31 0 .rw 0x3F800000],
  r1 "CAM_CAL_BOUND" 0x00605014 [fk 15 0 .rw 500, fk 31 16 .rw 20],
  r1 "CAM_CAL_BOUND_T" 0x00605018 [fk 9 0 .rw 50],
  r1 "CAM_CAL_SKIP" 0x0060501C [fk 31 0 .rc 0]]
/-- Registers of block 0x06, part 3 (R175). -/
def rows06p3 : List RegRow := [
  r1 "CAM_CAL_NOREPLY" 0x00605020 [fk 31 0 .rc 0],
  r1 "CAM_GRID_CFG" 0x00606000 [fk 0 0 .rw 0, fk 3 1 .rw 4, fk 8 8 .w1c 0],
  r1 "CAM_GRID_Z" 0x00606004 [fk 15 0 .rw 0xFF38, fk 31 16 .rw 50],
  r1 "CAM_GRID_ZNF" 0x00606008 [fk 15 0 .rw 50, fk 31 16 .rw 150],
  r1 "CAM_GRID_DELTA" 0x0060600C [fk 7 0 .rw 8, fk 15 8 .rw 5],
  r1 "CAM_GX0" 0x00606010 [fk 31 0 .ro 0],
  r1 "CAM_GY0" 0x00606014 [fk 31 0 .ro 0],
  r1 "CAM_GRID_ST" 0x00606018 [fk 1 0 .ro 0, fk 2 2 .w1c 0],
  r1 "CAM_TILES_SENT" 0x0060601C [fk 31 0 .rc 0]]
/-- Every register of block 0x06. -/
def rows06 : List RegRow := rows06p0 ++ rows06p1 ++ rows06p2 ++ rows06p3
/-- Registers of block 0x07, part 0 (R209). -/
def rows07p0 : List RegRow := [
  rn "MXA_ID" 0x00700000 0x4000 34 [⟨5, 0, .ro, rstMxaLogical⟩, ⟨8, 8, .ro, rstMxaSpare⟩, fk 9 9 .ro 0, ⟨10, 10, .ro, rstMxaInSvc⟩],
  rn "MXA_CFG" 0x00700004 0x4000 34 [fk 0 0 .rw 1],
  rn "MXA_STATUS" 0x00700008 0x4000 34 [fk 0 0 .ro 0, fk 8 8 .w1c 0, fk 9 9 .w1c 0, fk 10 10 .w1c 0, fk 11 11 .w1c 0],
  rn "MXA_HS" 0x00700010 0x4000 34 [fk 31 0 .rc 0],
  rn "MXA_ITEMS" 0x00700014 0x4000 34 [fk 31 0 .rc 0],
  rn "MXA_ECC_CNT" 0x00700018 0x4000 34 [fk 31 0 .rc 0]]
/-- Every register of block 0x07. -/
def rows07 : List RegRow := rows07p0
/-- Registers of block 0x08, part 0 (R209). -/
def rows08p0 : List RegRow := [
  rn "VEC_ID" 0x00800000 0x1000 136 [⟨6, 0, .ro, rstVecLogical⟩, ⟨8, 8, .ro, rstVecSpare⟩, fk 9 9 .ro 0, ⟨10, 10, .ro, rstVecInSvc⟩],
  rn "VEC_CFG" 0x00800004 0x1000 136 [fk 0 0 .rw 0],
  rn "VEC_WRB" 0x00800008 0x1000 136 [fk 7 0 .rw 64, fk 23 16 .ro 0, fk 24 24 .w1c 0],
  rn "VEC_STATUS" 0x0080000C 0x1000 136 [fk 0 0 .ro 0, fk 8 8 .w1c 0, fk 9 9 .w1c 0, fk 10 10 .w1c 0],
  rn "VEC_BUDGET_OVR" 0x00800010 0x1000 136 [fk 31 0 .rc 0],
  rn "VEC_ITEMS" 0x00800014 0x1000 136 [fk 31 0 .rc 0],
  rn "VEC_SC_STATUS" 0x008A0000 0x100 64 [fk 0 0 .ro 0, fk 8 8 .w1c 0, fk 9 9 .w1c 0],
  rn "VEC_SC_BUDGET_OVR" 0x008A0004 0x100 64 [fk 31 0 .rc 0],
  rn "VEC_SC_ITEMS" 0x008A0008 0x100 64 [fk 31 0 .rc 0]]
/-- Every register of block 0x08. -/
def rows08 : List RegRow := rows08p0
/-- Registers of block 0x09, part 0 (R209). -/
def rows09p0 : List RegRow := [
  rn "DOME_BANK_ID" 0x00900000 0x40 68 [⟨5, 0, .ro, rstDomeLogical⟩, ⟨8, 8, .ro, rstDomeSpare⟩, fk 9 9 .ro 0, ⟨10, 10, .ro, rstDomeInSvc⟩],
  rn "DOME_BANK_CORR" 0x00900004 0x40 68 [fk 31 0 .rc 0],
  rn "DOME_BANK_UNCORR" 0x00900008 0x40 68 [fk 31 0 .rc 0],
  r1 "DOME_CFG" 0x00902000 [fk 7 0 .rw 64, fk 8 8 .w1c 0],
  r1 "DOME_BOUNDS" 0x00902004 [fk 31 0 .rc 0],
  r1 "DOME_POISONED" 0x00902008 [fk 31 0 .rc 0],
  r1 "DOME_IMG_WR" 0x0090200C [fk 31 0 .rc 0],
  r1 "DOME_IECC_RANGE" 0x00902010 [fk 31 0 .rc 0],
  r1 "DOME_TAG_LEDGER0" 0x00910000 [fk 15 0 .ro 32768, fk 31 16 .ro 0],
  r1 "DOME_TAG_LEDGER1" 0x00910004 [fk 15 0 .ro 0, fk 31 31 .w1c 0],
  r1 "DOME_TAG_HWM" 0x00910008 [fk 15 0 .rc 0],
  r1 "DOME_TAG_WAITS" 0x0091000C [fk 31 0 .rc 0]]
/-- Registers of block 0x09, part 1 (R209). -/
def rows09p1 : List RegRow := [
  rn "DOME_MEMGRP_ST" 0x00910020 0x10 4 [fk 10 0 .ro 0, fk 16 16 .ro 0],
  rn "DOME_MEMGRP_LINK_CORR" 0x00910024 0x10 4 [fk 31 0 .rc 0],
  rn "DOME_MEMGRP_LINK_UNCORR" 0x00910028 0x10 4 [fk 31 0 .rc 0],
  rn "DOME_MEMGRP_IECC" 0x0091002C 0x10 4 [fk 15 0 .rc 0, fk 31 16 .rc 0],
  rn "DOME_REGION" 0x00920000 0x4 64 [⟨0, 0, .rw, rstRegionIecc⟩, fk 1 1 .ro 0, ⟨9, 8, .ro, rstRegionPkg⟩],
  rn "DOME_SYNC" 0x00930000 0x4 4096 [fk 31 0 .ro 0]]
/-- Every register of block 0x09. -/
def rows09 : List RegRow := rows09p0 ++ rows09p1
/-- Registers of block 0x0A, part 0 (R243). -/
def rows0Ap0 : List RegRow := [
  r1 "ATN_CTRL" 0x00A00000 [fk 0 0 .rw 0, fk 1 1 .rw 0],
  r1 "ATN_POOL_BASE_LO" 0x00A00008 [fk 31 0 .rw 0],
  r1 "ATN_POOL_BASE_HI" 0x00A0000C [fk 31 0 .rw 4],
  r1 "ATN_POOL_PAGES" 0x00A00010 [fk 18 0 .rw 0],
  r1 "ATN_KVFMT" 0x00A00014 [fk 6 0 .rw 1, fk 8 8 .rw 0, fk 15 12 .rw 0, fk 25 16 .ro 512],
  r1 "ATN_DESC_BASE_LO" 0x00A00018 [fk 31 0 .rw 0xF8000000],
  r1 "ATN_DESC_BASE_HI" 0x00A0001C [fk 31 0 .rw 3],
  r1 "ATN_XCHG" 0x00A00020 [fk 13 0 .rw 0],
  r1 "ATN_TRACK_CFG" 0x00A00024 [fk 12 0 .rw 4096, fk 22 16 .rw 64],
  r1 "ATN_TRACK_RULES" 0x00A00028 [fk 7 0 .rw 128, fk 15 8 .rw 20, fk 23 16 .rw 3, fk 31 24 .rw 5],
  r1 "ATN_TRACK_RULES2" 0x00A0002C [fk 15 0 .rw 100, fk 24 16 .rw 64],
  r1 "ATN_STATUS" 0x00A00040 [fk 0 0 .ro 0, fk 1 1 .ro 0, fk 2 2 .ro 0, fk 3 3 .ro 0, fk 8 8 .w1c 0, fk 9 9 .w1c 0, fk 10 10 .w1c 0, fk 11 11 .w1c 0, fk 12 12 .w1c 0, fk 13 13 .w1c 0]]
/-- Registers of block 0x0A, part 1 (R243). -/
def rows0Ap1 : List RegRow := [
  r1 "ATN_RESERVE" 0x00A00044 [fk 18 0 .ro 0],
  r1 "ATN_LIVE" 0x00A00048 [fk 12 0 .ro 0],
  r1 "ATN_PAGE_FREE" 0x00A00050 [fk 18 0 .ro 0],
  r1 "ATN_PAGE_ALLOC" 0x00A00054 [fk 18 0 .ro 0],
  r1 "ATN_PAGE_QUAR" 0x00A00058 [fk 18 0 .ro 0],
  r1 "ATN_PAGE_MIG" 0x00A0005C [fk 0 0 .ro 0, fk 31 31 .w1c 0],
  r1 "ATN_MIGRATE" 0x00A00060 [fk 17 0 .wo 0, fk 31 31 .wo 0],
  r1 "ATN_MIG_STATUS" 0x00A00064 [fk 17 0 .ro 0, fk 29 28 .ro 0],
  r1 "ATN_ATTENDS" 0x00A00080 [fk 31 0 .rc 0],
  r1 "ATN_APPENDS" 0x00A00084 [fk 31 0 .rc 0],
  r1 "ATN_EMPTY_ROWS" 0x00A00088 [fk 31 0 .rc 0],
  r1 "ATN_PAGE_FAULTS" 0x00A0008C [fk 31 0 .rc 0]]
/-- Registers of block 0x0A, part 2 (R243). -/
def rows0Ap2 : List RegRow := [
  r1 "ATN_SEQ_FAULTS" 0x00A00090 [fk 31 0 .rc 0],
  r1 "ATN_APPEND_OVF" 0x00A00094 [fk 31 0 .rc 0],
  r1 "ATN_BIRTHS" 0x00A00098 [fk 31 0 .rc 0],
  r1 "ATN_BIRTH_REFUSED" 0x00A0009C [fk 31 0 .rc 0],
  r1 "ATN_LO_REFUSED" 0x00A000A0 [fk 31 0 .rc 0],
  r1 "ATN_EVICTIONS" 0x00A000A4 [fk 31 0 .rc 0],
  r1 "ATN_EXPIRIES" 0x00A000A8 [fk 31 0 .rc 0],
  r1 "ATN_MIGRATIONS" 0x00A000AC [fk 31 0 .rc 0],
  r1 "ATN_LO_DROPPED" 0x00A000B0 [fk 31 0 .rc 0]]
/-- Every register of block 0x0A. -/
def rows0A : List RegRow := rows0Ap0 ++ rows0Ap1 ++ rows0Ap2
/-- Registers of block 0x0B, part 0 (R272). -/
def rows0Bp0 : List RegRow := [
  r1 "SLV_CTRL" 0x00B00000 [fk 0 0 .rw 0, fk 1 1 .w1s 0],
  r1 "SLV_DEADLINE" 0x00B00004 [fk 9 0 .rw 700],
  r1 "SLV_LIMITS" 0x00B00008 [fk 11 0 .rw 512, fk 13 12 .rw 3, fk 19 16 .rw 4],
  r1 "SLV_PIVOT_TAU" 0x00B0000C [fk 31 0 .rw 0x35800000],
  r1 "SLV_REG_DELTA" 0x00B00010 [fk 31 0 .rw 0x38800000],
  r1 "SLV_STEP_TOL" 0x00B00014 [fk 31 0 .rw 0x35800000],
  r1 "SLV_MULT_TOL" 0x00B00018 [fk 31 0 .rw 0x37800000],
  r1 "SLV_REFINE_TOL" 0x00B0001C [fk 31 0 .rw 0x33800000],
  r1 "SLV_WORK" 0x00B00020 [fk 13 0 .rw 0],
  r1 "SLV_STATUS" 0x00B00040 [fk 0 0 .ro 0, fk 1 1 .ro 0, fk 2 2 .ro 0, fk 3 3 .ro 0, fk 4 4 .ro 0, fk 8 8 .w1c 0],
  r1 "SLV_LAST_WORD0" 0x00B00044 [fk 31 0 .ro 0],
  r1 "SLV_LAST_WORD2" 0x00B00048 [fk 31 0 .ro 0]]
/-- Registers of block 0x0B, part 1 (R272). -/
def rows0Bp1 : List RegRow := [
  r1 "SLV_LAST_RESIDUAL" 0x00B0004C [fk 31 0 .ro 0],
  r1 "SLV_LAST_TIME" 0x00B00050 [fk 31 0 .ro 0],
  r1 "SLV_SOLVES" 0x00B00060 [fk 31 0 .rc 0],
  r1 "SLV_OPTIMAL" 0x00B00064 [fk 31 0 .rc 0],
  r1 "SLV_TRUNCATED" 0x00B00068 [fk 31 0 .rc 0],
  r1 "SLV_ITER_LIMITS" 0x00B0006C [fk 31 0 .rc 0],
  r1 "SLV_ACTIVE_LIMITS" 0x00B00070 [fk 31 0 .rc 0],
  r1 "SLV_BAD_INPUTS" 0x00B00074 [fk 31 0 .rc 0],
  r1 "SLV_REGULARISED" 0x00B00078 [fk 31 0 .rc 0],
  r1 "SLV_SATURATED" 0x00B0007C [fk 31 0 .rc 0],
  r1 "SLV_ABORTED_UPDATES" 0x00B00080 [fk 31 0 .rc 0],
  r1 "SLV_COLD_STARTS" 0x00B00084 [fk 31 0 .rc 0]]
/-- Registers of block 0x0B, part 2 (R272). -/
def rows0Bp2 : List RegRow := [
  r1 "SLV_MODEL_ADDR_LO" 0x00B00100 [fk 31 0 .ro 0],
  r1 "SLV_MODEL_ADDR_HI" 0x00B00104 [fk 31 0 .ro 0],
  r1 "SLV_MODEL_DIM" 0x00B00108 [fk 5 0 .ro 0, fk 12 8 .ro 0, fk 22 16 .ro 0],
  r1 "SLV_MODEL_N" 0x00B0010C [fk 31 0 .ro 0],
  r1 "SLV_MODEL_CRC" 0x00B00110 [fk 31 0 .ro 0]]
/-- Every register of block 0x0B. -/
def rows0B : List RegRow := rows0Bp0 ++ rows0Bp1 ++ rows0Bp2
/-- Registers of block 0x0C, part 0 (R355). -/
def rows0Cp0 : List RegRow := [
  r1 "SPR_STATE" 0x00C00000 [fk 2 0 .ro 0, fk 3 3 .ro 0, fk 4 4 .ro 0, fk 5 5 .ro 1, fk 7 6 .ro 0, fk 15 8 .ro 0],
  r1 "SPR_VERDICT" 0x00C00004 [fk 15 0 .ro 0, fk 31 16 .ro 0],
  r1 "SPR_SEQ" 0x00C00008 [fk 31 0 .ro 0],
  r1 "SPR_TOV" 0x00C0000C [fk 31 0 .ro 0],
  r1 "SPR_FAULT_LO" 0x00C00010 [fk 31 0 .ro 0],
  r1 "SPR_FAULT_HI" 0x00C00014 [fk 31 0 .ro 0],
  r1 "SPR_GOLD" 0x00C00020 [fk 0 0 .ro 0, fk 3 1 .ro 0, fk 4 4 .ro 0, fk 5 5 .ro 0, fk 31 16 .ro 0],
  r1 "SPR_GOLD_CNT" 0x00C00024 [fk 15 0 .ro 0, fk 31 16 .ro 0],
  r1 "SPR_SELFTEST" 0x00C00028 [fk 15 0 .ro 0, fk 23 16 .ro 0, fk 31 24 .ro 0],
  r1 "SPR_CFG_CRC" 0x00C0002C [fk 31 0 .ro 0],
  r1 "SPR_GOLD_CRC" 0x00C00030 [fk 31 0 .ro 0],
  rn "SPR_WWD_WIN" 0x00C00100 0x8 8 [fk 15 0 .ro 0, fk 31 16 .ro 0]]
/-- Registers of block 0x0C, part 1 (R355). -/
def rows0Cp1 : List RegRow := [
  rn "SPR_WWD_FIRED" 0x00C00104 0x8 8 [fk 31 0 .ro 0],
  rn "SPR_REASON" 0x00C00200 0x4 16 [fk 31 0 .ro 0]]
/-- Every register of block 0x0C. -/
def rows0C : List RegRow := rows0Cp0 ++ rows0Cp1
/-- Registers of block 0x0D, part 0 (R399). -/
def rows0Dp0 : List RegRow := [
  r1 "RST_CAUSE" 0x00D00000 [fk 8 0 .w1c 1],
  r1 "RST_FUSE_MAP" 0x00D00004 [⟨17, 0, .ro, fusedMap⟩],
  r1 "RST_FUSE_ESC" 0x00D00008 [fk 3 0 .ro 4, fk 11 4 .ro 10, fk 17 12 .ro 16, fk 25 18 .ro 60],
  r1 "RST_CFG" 0x00D0000C [fk 3 0 .rw 0xF, fk 4 4 .rw 1],
  r1 "RST_STATE" 0x00D00010 [fk 2 0 .ro 0, fk 4 3 .ro 0, fk 11 8 .ro 0, fk 31 16 .ro 0],
  r1 "RST_LAST" 0x00D00014 [fk 1 0 .ro 0, fk 7 4 .ro 0, fk 11 8 .ro 0, fk 31 16 .ro 0],
  r1 "RST_LAST_TIME" 0x00D00018 [fk 31 0 .ro 0],
  r1 "RST_LAST_DURATION" 0x00D0001C [fk 31 0 .ro 0],
  r1 "RST_FENCE" 0x00D00020 [fk 11 0 .ro 0, fk 31 16 .ro 0],
  r1 "RST_ESC" 0x00D00024 [fk 5 0 .ro 0, fk 8 8 .ro 0, fk 31 16 .ro 0],
  r1 "RST_PM" 0x00D00028 [fk 4 0 .ro 0, fk 31 16 .ro 0],
  r1 "RST_AUDIT" 0x00D0002C [fk 0 0 .w1s 0, fk 5 1 .ro 0x1F]]
/-- Registers of block 0x0D, part 1 (R399). -/
def rows0Dp1 : List RegRow := [
  r1 "RST_DRAIN_ERR" 0x00D00040 [fk 31 0 .rc 0],
  r1 "RST_REPLAYS" 0x00D00044 [fk 31 0 .rc 0],
  r1 "RST_GUILTY" 0x00D00048 [fk 31 0 .rc 0],
  r1 "RST_UNTESTED" 0x00D0004C [fk 31 0 .rc 0],
  r1 "RST_ABANDONED" 0x00D00050 [fk 31 0 .rc 0],
  r1 "RST_ABSORBED" 0x00D00054 [fk 31 0 .rc 0],
  rn "RST_REFUSED" 0x00D00080 0x4 16 [fk 15 0 .ro 0, fk 31 31 .ro 0],
  rn "RST_UNIT" 0x00D01000 0x4 272 [fk 0 0 .ro 0, fk 1 1 .ro 0, fk 2 2 .ro 0, fk 7 4 .ro 0, fk 31 16 .ro 0]]
/-- Every register of block 0x0D. -/
def rows0D : List RegRow := rows0Dp0 ++ rows0Dp1
/-- Registers of block 0x0E, part 0 (R430). -/
def rows0Ep0 : List RegRow := [
  r1 "CUP_STATUS" 0x00E00000 [fk 0 0 .ro 0, fk 1 1 .ro 0, fk 2 2 .ro 0, fk 8 8 .w1c 0],
  r1 "CUP_FW" 0x00E00004 [fk 0 0 .ro 0, fk 1 1 .ro 0, fk 2 2 .ro 0, fk 14 8 .ro 0, fk 22 16 .ro 0],
  r1 "CUP_VCORE" 0x00E00010 [fk 9 0 .rw 750, fk 19 10 .rw 650, fk 29 20 .rw 800, fk 30 30 .rw 0],
  r1 "CUP_PCAP" 0x00E00014 [fk 7 0 .rw 150],
  r1 "CUP_THERM" 0x00E00018 [fk 7 0 .rw 115, fk 15 8 .ro 130],
  rn "CUP_TEMP" 0x00E00100 0x4 24 [fk 15 0 .ro 0],
  rn "CUP_VMON" 0x00E00200 0x4 16 [fk 11 0 .ro 0, fk 16 16 .w1c 0],
  rn "CUP_POWER" 0x00E00280 0x4 6 [fk 15 0 .ro 0],
  rn "CUP_CANARY" 0x00E00300 0x4 64 [fk 15 0 .ro 0, fk 31 16 .ro 0],
  r1 "CUP_LOG_NEXT" 0x00E00400 [fk 31 0 .ro 0],
  r1 "CUP_LOG_PERSISTED" 0x00E00404 [fk 31 0 .ro 0],
  r1 "CUP_LOG_OVERWRITES" 0x00E00408 [fk 31 0 .rc 0]]
/-- Registers of block 0x0E, part 1 (R430). -/
def rows0Ep1 : List RegRow := [
  rn "CUP_BUDGET" 0x00E00420 0x4 7 [fk 31 0 .rc 0],
  rn "CUP_MAP_MXA" 0x00E01000 0x4 32 [⟨7, 0, .ro, rstIdx⟩, fk 31 31 .ro 0],
  rn "CUP_MAP_VEC" 0x00E01100 0x4 128 [⟨7, 0, .ro, rstIdx⟩, fk 31 31 .ro 0],
  rn "CUP_MAP_DOME" 0x00E01400 0x4 64 [⟨7, 0, .ro, rstIdx⟩, fk 31 31 .ro 0],
  r1 "CUP_SPARE" 0x00E01600 [fk 1 0 .ro 2, fk 11 8 .ro 8, fk 18 16 .ro 4, fk 24 24 .ro 0, fk 31 27 .ro 0]]
/-- Every register of block 0x0E. -/
def rows0E : List RegRow := rows0Ep0 ++ rows0Ep1
/-- Registers of block 0x0F, part 0 (R400). -/
def rows0Fp0 : List RegRow := [
  rn "TOL_CTRL" 0x00F00000 0x1000 2 [fk 0 0 .rw 0, fk 1 1 .rw 0],
  rn "TOL_STATUS" 0x00F00004 0x1000 2 [fk 1 0 .ro 0, fk 6 4 .ro 7, fk 8 8 .w1c 0, fk 9 9 .w1c 0],
  rn "TOL_RXWIN_BASE" 0x00F00008 0x1000 2 [fk 31 0 .rw 0],
  rn "TOL_RXWIN_BYTES" 0x00F0000C 0x1000 2 [fk 26 0 .rw 0],
  ⟨"TOL_VC_TX", 0x00F00020, 0x1000, 2, 0x10, 4, [fk 15 0 .ro 0, fk 31 16 .ro 0]⟩,
  ⟨"TOL_VC_RX", 0x00F00024, 0x1000, 2, 0x10, 4, [⟨15, 0, .ro, rstTolBuf⟩, fk 31 16 .ro 0]⟩,
  ⟨"TOL_VC_RET", 0x00F00028, 0x1000, 2, 0x10, 4, [fk 15 0 .ro 0, fk 31 31 .w1c 0]⟩,
  ⟨"TOL_VC_CAP", 0x00F0002C, 0x1000, 2, 0x10, 4, [fk 15 0 .ro 0, ⟨31, 16, .ro, rstTolBuf⟩]⟩,
  rn "TOL_FEC_CORR" 0x00F00080 0x1000 2 [fk 31 0 .rc 0],
  rn "TOL_CRC_RETRY" 0x00F00084 0x1000 2 [fk 31 0 .rc 0],
  rn "TOL_DOWN_EVENTS" 0x00F00088 0x1000 2 [fk 31 0 .rc 0],
  rn "TOL_ABORT_RX" 0x00F0008C 0x1000 2 [fk 31 0 .rc 0]]
/-- Registers of block 0x0F, part 1 (R400). -/
def rows0Fp1 : List RegRow := [
  rn "TOL_ABORT_TX" 0x00F00090 0x1000 2 [fk 31 0 .rc 0],
  rn "TOL_ABORT_DUP" 0x00F00094 0x1000 2 [fk 31 0 .rc 0],
  rn "TOL_RXWIN_DISCARD" 0x00F00098 0x1000 2 [fk 31 0 .rc 0],
  r1 "TOL_JOB" 0x00F02000 [fk 15 0 .rw 0, fk 18 16 .rw 0, fk 31 31 .w1c 0]]
/-- Every register of block 0x0F. -/
def rows0F : List RegRow := rows0Fp0 ++ rows0Fp1
/-- Registers of block 0x10, part 0 (R444). -/
def rows10p0 : List RegRow := [
  r1 "LNT_STATUS" 0x01000000 [fk 0 0 .ro 1, fk 4 1 .ro 0, fk 8 8 .w1c 0],
  r1 "LNT_FREEZE" 0x01000004 [fk 15 0 .ro 0],
  rn "LNT_SEL" 0x01000100 0x4 16 [fk 11 0 .rw 0, fk 12 12 .rw 0, fk 13 13 .rw 0, fk 14 14 .rw 0]]
/-- Every register of block 0x10. -/
def rows10 : List RegRow := rows10p0

/-- The registers of the 1 MiB block that holds an address (R12). -/
def blockRows (block : Nat) : List RegRow :=
  match block with
  | 0 => rows00
  | 1 => rows01
  | 2 => rows02
  | 3 => rows03
  | 4 => rows04
  | 5 => rows05
  | 6 => rows06
  | 7 => rows07
  | 8 => rows08
  | 9 => rows09
  | 10 => rows0A
  | 11 => rows0B
  | 12 => rows0C
  | 13 => rows0D
  | 14 => rows0E
  | 15 => rows0F
  | 16 => rows10
  | _ => []

/-- A register found at an address: its row and the unit and entry index. -/
structure Hit where
  row : RegRow
  n : Nat
  m : Nat

/-- Whether a row has a register at an address, and which. -/
def rowHit (r : RegRow) (a : Nat) : Option Hit :=
  if a < r.base then none
  else
    let off := a - r.base
    let n := if r.stride = 0 then 0 else off / r.stride
    let off1 := off - r.stride * n
    let m := if r.stride2 = 0 then 0 else off1 / r.stride2
    if off1 = r.stride2 * m ∧ n < r.count ∧ m < r.count2 then some ⟨r, n, m⟩ else none

/-- The first hit of a list of rows. -/
def findHit : List RegRow → Nat → Option Hit
  | [], _ => none
  | r :: rs, a => match rowHit r a with | some h => some h | none => findHit rs a

/-- The register at a BAR0 address, or none where no register stands (R5, R12). -/
def regAt (a : Nat) : Option Hit := findHit (blockRows (a / 0x100000)) a

/-- The reset word of a register: every field at its reset value, reserved bits zero (R6). -/
def hitReset (h : Hit) : Word :=
  BitVec.ofNat 32 (h.row.fields.foldl (fun w f => w + (f.rst h.n h.m) % 2 ^ (f.hi + 1 - f.lo) * 2 ^ f.lo) 0)

/-- What an unlisted BAR0 address reads as: the register's reset word, zero where no register stands. -/
def resetWord (a : Nat) : Word :=
  match regAt a with
  | some h => hitReset h
  | none => 0

/-- The mask of a register's fields with a given access code. -/
def accMask (acc : Acc) (r : RegRow) : Nat :=
  r.fields.foldl (fun w f => if f.acc = acc then w + (2 ^ (f.hi + 1 - f.lo) - 1) * 2 ^ f.lo else w) 0

end Sys2Proof.Machine
end

