-- ==== Sys2Proof/Machine/State.lean ====
section
/-! DEFINITION. The state of the module: every register, memory, queue, ledger, timer and pin the manual gives it,
as plain data, and the queue of waiting commands. -/
namespace Sys2Proof.Machine

/-- Why a step stops with a fault. No meaning of this model raises one: every command either has its effect or is
discarded as the manual says. The constructor stands for an access to an object the manual says does not exist; safe. -/
inductive Fault where
  | noSuchObject
  deriving DecidableEq, Repr

/-- Why a step has no meaning. `notModelled` is raised by Dispatch alone, for a command without a meaning; safe. -/
inductive Refusal where
  | notModelled (mnemonic : String)
  deriving DecidableEq, Repr

/-! ## What leaves the module -/

/-- How a PTP message is carried (R59, R63): EtherType 0x88F7, UDP over IPv4 with the UDP checksum it holds, UDP over
IPv6 with the checksum recomputed over the final datagram, or Tollis time-sync messages. -/
inductive PtpCarrier where
  | ethernet
  | udp4 (checksum : Nat)
  | udp6
  | tollis
  deriving DecidableEq, Repr

/-- What the module sends out of its pins and links, newest first in `State.out`. -/
inductive OutEvent where
  /-- An MSI-X message of a vector (R295). -/
  | msix (vector : Nat)
  /-- A TRIG pin rises to its active level at a time in units of 62.5 ps (R50). -/
  | trigEdge (pin : Nat) (at625 : Nat) (activeLow : Bool)
  /-- A TRIG pin returns inactive. -/
  | trigEnd (pin : Nat)
  /-- Command bytes that an SPI controller sends before a sample read, with chip select asserted: channel (R100). -/
  | spiCommand (ch : Nat) (bytes : List Nat)
  /-- A PTP message the Belfry originates: port, kind and departure time in 2⁻¹⁶ ns, the whole nanoseconds of its
  timestamp field, its correctionField in 2⁻¹⁶ ns, and how it is carried (R63). -/
  | ptpTx (port : Nat) (kind : PtpTx) (departure origin : Nat) (correction : Int) (carrier : PtpCarrier)
  /-- A host PTP frame leaves a port (R64). -/
  | hostPtpTx (port id : Nat)
  /-- A priority flow control frame: Ethernet port, class-enable vector and quanta (R95). -/
  | pfc (port classes quanta : Nat)
  /-- An abort token on a Tollis link: job, origin module, reason, hop count and sequence count (R394). -/
  | abortToken (link job origin reason hops seq : Nat)
  /-- The Spire's CAN status frame: identifier and words (R353). -/
  | spireCan (id : Nat) (words : List Nat)
  /-- A level that SAFE_PIN_TEST holds for 100 µs on VALID or FAULT_n (R354). -/
  | pinTest (onValid high : Bool)
  /-- RST_OUT_n falls or rises (R362). -/
  | rstOut (low : Bool)
  /-- An MCTP packet of a reply leaves (R293): its endpoint, whether it is the message's first and last, its sequence
  number, and its payload's bytes. -/
  | mctpPacket (eid : Nat) (som eom : Bool) (seq : Nat) (bytes : List Nat)
  /-- A command's reply leaves over a Tollis link (R294): its packet's words. -/
  | mgmtReply (path : Path) (words : List Nat)
  /-- An MCTP control response: command code, completion code and data (R293). -/
  | mctpControl (eid code completion : Nat) (data : List Nat)
  /-- An SPDM response: request code, and its content as words or bytes (R426, R427). -/
  | spdm (request : Nat) (content : List Nat)
  /-- A VDD_CORE target goes to the regulator over AVSBus, in mV (R407). -/
  | avsTarget (mv : Nat)
  /-- What an instrument shifts out on TDO, first bit group first (R442). -/
  | tdo (groups : List Nat)
  deriving DecidableEq, Repr

/-- What the main die sends the Spire over the bridge, oldest first in `State.bridgeUp`. -/
inductive UpMsg where
  /-- A fault message of the fault collector: summary bit and unit (R336). -/
  | fault (bit unit : Nat)
  /-- A selected tap point: Ethernet channel 0 to 7, frame stamp in 2⁻¹⁶ ns, its bytes (R329). -/
  | tapPoint (ch stamp : Nat) (bytes : List Nat)
  /-- A slice tick: the boundary's low linear count (R323), and the sequence number of the slice that starts there. -/
  | tick (lin32 : Nat) (starts : Option Nat)
  /-- A stage-end kick: stage and sequence number (R338). -/
  | kick (stage seq : Nat)
  /-- The check values of a golden run (R344): sequence number, rotation, whether SAFE_CLEAR forced it, FP32 values. -/
  | gold (seq rotation : Nat) (clear : Bool) (values : List Nat)
  /-- The header copy (R324): the record header with its publish CRC, the ego state record, words 0 to 2 and 6 of the
  control section header, and the first stages of u. -/
  | header (words ego control inputs : List Nat)
  /-- A proposed calibration step (R170): slice, sensor, rotation vector in degrees, translation in mm, time offset in
  ns, the sensor's residual count, and the correction with the step in degrees, nm and 0.25 ns. -/
  | calStep (seq sensor : Nat) (rot trans : List Rat) (dt : Rat) (residuals : Nat) (sum : List Rat × List Rat × Int)
  /-- An abandoned slice (R373). -/
  | abandon (seq : Nat)
  /-- A coming L0 or L1 (R365). -/
  | resetNotice
  /-- A recovery's completion: its level, and the fault bits of the requests that it answers (R322, R337). -/
  | recoveryDone (level : Nat) (asked : List Nat)
  /-- The unlocked debug scopes (R438). -/
  | scopes (mask : Nat)
  deriving DecidableEq, Repr

/-- What the Spire sends the main die over the bridge, oldest first in `State.bridgeDown`. -/
inductive DownMsg where
  /-- The reply to a calibration proposal of a slice and sensor (R333). -/
  | calReply (seq sensor : Nat) (accept : Bool)
  /-- A verdict: sequence number, verdict word and fault summary (R313, R314). -/
  | verdict (seq word faults : Nat)
  /-- A reset request: its level, its partition, its unit's flat index, and the fault bit it answers (R336, R339). -/
  | resetReq (level part flat bit : Nat)
  deriving DecidableEq, Repr

/-- What the Spire keeps of one fault bit: lasting conditions in force, reset requests not yet completed, and its timer
when the last of them ended (R322). -/
structure SprBit where
  conds : Nat
  pends : Nat
  ended : Nat
  deriving DecidableEq, Repr

/-- A slice in the Spire's watchdogs (R338): its sequence number, start by the Spire's timer, whether that is its ToV tick
minus L, its length in ns, and the stages that have kicked, closed late, and had their reset requested, one bit each;
whether its verdict is rendered. -/
structure SprSlice where
  seq : Nat
  start : Nat
  ticked : Bool
  len : Nat
  kicked : Nat
  late : Nat
  asked : Nat
  rendered : Bool
  deriving DecidableEq, Repr

/-- The check values of a golden run as they arrive: rotation, whether SAFE_CLEAR forced it, and FP32 values. -/
structure SprGold where
  rotation : Nat
  clear : Bool
  values : List Nat
  deriving DecidableEq, Repr

/-- A complete header copy that waits for JUDGE (R324), with its golden values and its arrival by the Spire's timer. -/
structure SprCopy where
  header : List Nat
  ego : List Nat
  control : List Nat
  inputs : List Nat
  gold : Option SprGold
  arrived : Nat
  deriving DecidableEq, Repr

/-- A tap point in B (R329, R330): its arrival and its own time by the Spire's timer, its place carried along, and its
height in metres. -/
structure TapPt where
  arrived : Nat
  time : Int
  x : Rat
  y : Rat
  z : Rat
  deriving DecidableEq, Repr

/-- A rendered verdict that calibration proposals may still need (R333): sequence number, VALID, the channels whose
status words were UNSYNC, and when it was rendered. -/
structure SprVerdict where
  seq : Nat
  valid : Bool
  unsync : Nat
  at_ : Nat
  deriving DecidableEq, Repr

/-- The inputs that a VALID result prescribed (R331): its ToV, its inputs by stage, the count of one stage, and when its
verdict was rendered. -/
structure SprPlan where
  tov : Nat
  inputs : List Nat
  nu : Nat
  at_ : Nat
  deriving DecidableEq, Repr

/-- The Spire's own references (R328): the last IMU sample and its yaw rate, the bias, v_s, the accelerations along x
and y, the four wheels' last receptions and speeds, and the yaw comparison: its present outcome, since when, and whether
TAP_WHEEL's condition holds. -/
structure SprRefs where
  imuAt : Nat
  yaw : Rat
  bias : Rat
  vs : Rat
  ax : Rat
  ay : Rat
  wheels : List (Option (Nat × Rat))
  differs : Bool
  since : Nat
  bad : Bool
  deriving DecidableEq, Repr

/-- The Spire die (R319 to R355). Times are in cycles of its 400 MHz clock since its reset; what the SPR region mirrors
has its home there. -/
structure SpireState where
  /-- The validated configuration's words, or none held (R352). -/
  config : List Nat
  now : Nat
  bits : List SprBit
  /-- GOLDEN has become S2 (R345). -/
  goldS2 : Bool
  /-- HOLD lasts until the golden run that SAFE_CLEAR forced has passed (R354). -/
  clearHold : Bool
  /-- Received ticks, newest first: the timer and the linear count. -/
  ticks : List (Nat × Nat)
  /-- L in ns at the newest tick, and whether the next tick's absence has been reported. -/
  len : Nat
  missed : Bool
  /-- The TICK check is suspended, and the main die has been reset since (R365). -/
  suspended : Bool
  sawReset : Bool
  slices : List SprSlice
  copies : List SprCopy
  /-- The previous judged result: sequence number and ToV (R327). -/
  prev : Option (Nat × Nat)
  plan : Option SprPlan
  refs : SprRefs
  points : List TapPt
  /-- The Spire's timer at the run's first slice. -/
  startAt : Option Nat
  verdicts : List SprVerdict
  /-- Corrections to the extrinsics of tapped channels: quaternion, translation in m, time offset in ns (R333). -/
  corr : List (List Rat × List Rat × Rat)
  /-- The Verdict port's latched words, and its words FLAGS and SOLVE (R314, R315). -/
  latch : Option (List Nat)
  flags : Nat
  solve : Nat
  /-- When VALID was raised, while it is high. -/
  validAt : Option Nat
  lastCopy : Option Nat
  /-- The next self-test quantum, 0 to 631, the last completion of each group, and whether a full pass is done. -/
  quantum : Nat
  groupDone : List (Option Nat)
  tested : Bool
  /-- TAP tasks run since the newest tick, the releases of those owed from before it, and STATUS tasks run since the reset. -/
  taps : Nat
  tapsOwed : List Nat
  statuses : Nat
  /-- The unlocked debug scopes last reported, and whether FREEZE_n forces the pins (R438). -/
  scopes : Nat
  forced : Bool
  /-- The rotation under recheck and its passes (R345), and rotations reported to Cupola for self-test. -/
  recheck : Option (Nat × Nat)
  bist : List Nat
  deriving DecidableEq, Repr

/-! ## Belfry -/

/-- The running part of one trigger generator (R49, R50): its schedule base and next leading edge in 2⁻¹⁶ ns, the
pulse in progress and the level driven. -/
structure TrigGen where
  base : Int
  next : Option Int
  active : Bool
  pulseEnd : Int
  activeLow : Bool
  skipBoundaries : Nat
  deriving DecidableEq, Repr

/-- A capture FIFO entry (R56): T96 in 2⁻¹⁶ ns and the edge's direction. -/
structure CapEntry where
  t : Nat
  falling : Bool
  deriving DecidableEq, Repr

/-- One CAP pin: its FIFO, oldest first, and the time of its last stamped edge, which a step of T96 moves. -/
structure CapPin where
  fifo : List CapEntry
  last : Option Int
  deriving DecidableEq, Repr

/-- A TX stamp queue entry (R64). -/
structure TxStamp where
  id : Nat
  port : Nat
  dropped : Bool
  t : Nat
  deriving DecidableEq, Repr

/-- A host PTP frame waiting to be sent on a port. -/
structure TxFrame where
  port : Nat
  id : Nat
  stampReq : Bool
  words : List Word
  deriving DecidableEq, Repr

/-- A received PTP frame in the HOST-mode queue (R74). -/
structure RxFrame where
  port : Nat
  t : Nat
  bytes : Nat
  words : List Word
  deriving DecidableEq, Repr

/-- A message of the Belfry's own that waits or departs (R63): its kind, and for a response the arrival of its request in
2⁻¹⁶ ns and the request's correctionField. -/
structure PtpOut where
  kind : PtpTx
  arrival : Int
  correction : Int
  deriving DecidableEq, Repr

/-- What the protocol keeps of one port (R59, R62, R63): the best Announce received and the port identity followed; a
two-step Sync's receive stamp and correction; the last Sync's origin, corrected, and receive stamp; the departure stamp
of an unanswered Delay_Req or Pdelay_Req; a two-step Pdelay_Resp's request receipt time, correction and receive stamp; and
the departure stamp of the last event message sent. Times are in 2⁻¹⁶ ns. -/
structure PtpPort where
  best : Option ClockSet
  parent : Nat
  twoStep : Option (Int × Int)
  lastSync : Option (Int × Int)
  asked : Option Nat
  response : Option (Int × Int × Int)
  departed : Nat
  deriving DecidableEq, Repr

/-- The PTP engine: queues, clock attributes, the followed grandmaster and the lock and holdover counts. The last host
write is by `upNs`. -/
structure PtpState where
  rxQueue : List RxFrame
  txFrames : List TxFrame
  txStamps : List TxStamp
  logIntervals : Word
  clockAttrs : Word
  grandmaster : Nat
  ports : List PtpPort
  inThreshold : Nat
  ppsInThreshold : Nat
  lastHostWrite : Nat
  hostTimeout : Bool
  deriving DecidableEq, Repr

/-! ## Ingress -/

/-- The states of a ping-pong bank (R80). -/
inductive BankSt where
  | free | filling | ready | inFlight
  deriving DecidableEq, Repr

/-- A packet in a bank (R77): its header fields, the space it takes at its written size, its payload as far as it has
arrived, the ING_CUT value of its start (R91), and where the consumer stands with it: `taken` once the consumer has started
on it, `used` once it has been admitted or dropped whole at its end (R81, R102). -/
structure Packet where
  seq : Nat
  len : Nat
  trunc : Bool
  aborted : Bool
  bad : Bool
  malformed : Bool
  dropGap : Nat
  stamp : Nat
  src0 : Nat
  src1 : Nat
  bank : Nat
  offset : Nat
  size : Nat
  ended : Bool
  taken : Bool
  used : Bool
  cut : Nat
  payload : List Nat
  deriving DecidableEq, Repr

/-- One quadrature input of an encoder channel (R100): count, last edge, flags and index count. -/
structure EncInput where
  count : Int
  lastEdge : Nat
  forward : Bool
  illegal : Bool
  index : Nat
  changed : Bool
  deriving DecidableEq, Repr

/-- One ingress channel (R77 to R99): its banks, packets, drop count, flush and source state. -/
structure IngChan where
  bank0 : BankSt
  bank1 : BankSt
  fill : Nat
  offset : Nat
  /-- The state the bank in flight passes to. -/
  passage : Option (Nat × BankSt)
  /-- Packets written and not finished by the consumer, in SEQ order; the last may be in progress. -/
  packets : List Packet
  seq : Nat
  dropGap : Nat
  /-- A frame that passed the address filter is arriving at the MAC; its stamp and its bytes so far (R97). -/
  arriving : Bool
  macStamp : Nat
  macBytes : List Nat
  flushed : Bool
  /-- Bound data-ready stamps waiting for their SPI read (R57). -/
  bound : List Nat
  /-- The stamp a bound CAP pin delivered last (R57). -/
  delivered : Option Nat
  spiCount : Nat
  /-- By virtual channel: the frame number and stamp of the last Frame Start, and the long packets of data type DT, then of
  embedded data, since it (R77). -/
  frameNo : List Nat
  frameStamp : List Nat
  lineNo : List Nat
  inputs : List EncInput
  /-- Priorities paused by received pause frames; the Annex 31B pause holds all eight (R96). -/
  paused : List Nat
  /-- PTP messages held by a pause. -/
  heldPtp : List PtpOut
  deriving DecidableEq, Repr

/-! ## Alignment and ego-motion -/

/-- The aligner's running view of a channel (R103, R112 to R114). Sample times are in 2⁻¹⁶ ns. -/
structure AlnChan where
  silent : Bool
  unsync : Bool
  windowMin : Option Int
  okCount : Nat
  /-- The `upNs` from which silence is measured. -/
  quietFrom : Nat
  /-- TOFF and TOFF_CAL in force for the slices started last, in 0.25 ns. -/
  toff : Int
  deriving DecidableEq, Repr

/-- What one slice notes of one channel (R111). -/
structure ChanSlice where
  late : Bool
  dropped : Bool
  loss : Bool
  loOnly : Bool
  lossPkts : Nat
  samples : Nat
  state : Nat
  deriving DecidableEq, Repr

/-- An admitted range point: channel, time in 2⁻¹⁶ ns, coordinates in the sensor frame in metres, and whether they
are finite. -/
structure PointRec where
  ch : Nat
  t : Int
  x : List Rat
  finite : Bool
  deriving DecidableEq, Repr

/-- An admitted frame that is not de-skewed (R124): camera, Ethernet or CAN, with its two poses once ALIGN ends. -/
structure FrameRec where
  ch : Nat
  t : Int
  buffer : Nat
  payload : List Nat
  poses : Option (Pose × Pose)
  deriving DecidableEq, Repr

/-- A sample routed to level O only (R115, R234): a point or a camera frame, with |ê| of its channel in ns. -/
structure Evidence where
  ch : Nat
  t : Int
  x : List Rat
  isFrame : Bool
  buffer : Nat
  offset : Nat
  deriving DecidableEq, Repr

/-- A de-skewed point in B at its slice's ToV (R123): FP32 patterns, sample time and channel. -/
structure DeskewedPoint where
  ch : Nat
  t : Int
  xyz : List Nat
  deriving DecidableEq, Repr

/-- A finalised knot of the pose history (R120). -/
structure Knot where
  t : Nat
  pose : Pose
  deriving DecidableEq, Repr

/-- The ego-motion integrator (R116 to R122). Times are in 2⁻¹⁶ ns unless they are linear counts. -/
structure EgoState where
  mode : Nat
  pose : Pose
  gyroBias : List Rat
  /-- Time of the last integration step, with the pose before it for knots that fall between. -/
  last : Option Int
  before : Pose
  beforeT : Int
  imuTime : Option Int
  wheelTime : Option Int
  imuPresent : Bool
  wheelPresent : Bool
  onBackup : Bool
  heldStill : Bool
  /-- Specific-force sum and sample count since INIT began. -/
  forceSum : List Rat
  forceCount : Nat
  /-- Gyro sum and count since the wheels last moved. -/
  gyroSum : List Rat
  gyroCount : Nat
  /-- The speed of each wheel input, by its last report. -/
  speeds : List Rat
  wheelLast : List (Int × Nat)
  zupt : Bool
  biasValid : Bool
  imuSwitched : Bool
  /-- Newest first. -/
  knots : List Knot
  nextKnot : Nat
  deriving DecidableEq, Repr

/-! ## Voxel hash engine -/

/-- A point that a VOXEL stage has yet to insert: its position in L, tile slot, and own epoch modulo 64 (R128, R134). -/
structure VhePoint where
  x : List Rat
  slot : Nat
  epoch : Nat
  deriving DecidableEq, Repr

/-- A change log record (R150, R153): the tile, the entry, and whether it is REMOVED. -/
structure VheLog where
  tx : Int
  ty : Int
  entry : Nat
  removed : Bool
  deriving DecidableEq, Repr

/-- The voxel hash engine (R128 to R155): table entries by 4 × bucket + way, the stash oldest first, counts of held
valid entries by 4 × slot + level, and the working state of a VOXEL stage. -/
structure VheState where
  table : Cells Nat
  stash : List Nat
  counts : Cells Nat
  scrubAt : Nat
  /-- The eight lanes' generators (R144). -/
  gens : List Nat
  /-- The window and ZBASE are set at the next epoch start as at the start of a run (R132, R133, R155). -/
  needCentre : Bool
  /-- The integrator was in INIT at a VOXEL start since the last epoch start (R133). -/
  initHold : Bool
  todo : List VhePoint
  log : List VheLog
  logOvf : Bool
  /-- Of the slice in VOXEL: a Z re-base, the window set anew, a recentre by more than one tile. -/
  zRebased : Bool
  windowSet : Bool
  bigMove : Bool
  rebuilt : Bool
  departed : List (Int × Int)
  /-- PTS_IN, DROPPED_CAP, OUT_OF_GRID, STALE, HASH_LOST and NO_POSE of the slice. -/
  tally : List Nat
  /-- The effective level and reasons of each tile, where they are not 0, in the records completed so far. -/
  reported : List (Int × Int × Nat)
  /-- STASH and OCC of each slot as R148 keeps them; VHE_TILE shows what the last section reported (R156). -/
  reasons : Cells Nat
  /-- Tile records of sections whose results were abandoned, oldest first, and whether one of them was FULL. -/
  owed : List (List Nat)
  owedFull : Bool
  deriving DecidableEq, Repr

/-! ## Camera path and calibration -/

/-- What a frame buffer is for (R160). -/
inductive BufSt where
  | free | filling | features | toLift
  | lifting (seq : Nat)
  deriving DecidableEq, Repr

/-- A frame buffer: its frame number, stamp in 2⁻¹⁶ ns, the settings latched at Frame Start, the RAW12 lines written so
far, first line first, the rectified rows written so far, each pixel three components (R157, R158, R160); whether a
source lay outside the image, and how many rectified rows have their features (R161). -/
structure FrameBuf where
  st : BufSt
  number : Nat
  stamp : Nat
  settings : List Nat
  lines : List (List Nat)
  image : List (List (List Nat))
  oob : Bool
  features : Nat
  deriving DecidableEq, Repr

/-- A front-end lane (R158 to R160): its three buffers, the one filling and those whose Frame Start has come since, when
it last saw a line, and whether its mesh is being built. -/
structure Lane where
  bufs : List FrameBuf
  cur : Option Nat
  next : List Nat
  lastLine : Nat
  meshing : Bool
  deriving DecidableEq, Repr

/-- A rectified strip that a slice's camera phase runs over: lane, buffer, and the row at which it stops (R161, R204). -/
structure CamStrip where
  lane : Nat
  buf : Nat
  stop : Nat
  deriving DecidableEq, Repr

/-- What a camera contributed to a cell at one height (R164): camera, tile, cell, height, the lifting slice's ToV, the
pixel and the camera-frame point x_c it was seen at, and the sample and its weight. -/
structure Feature where
  cam : Nat
  tx : Int
  ty : Int
  i : Nat
  j : Nat
  h : Nat
  tov : Nat
  u : Rat
  v : Rat
  xc : List Rat
  value : Rat
  weight : Rat
  deriving DecidableEq, Repr

/-- The bird's-eye grid (R162 to R168): the feature grid, the reference values the consumer holds by cell index, as the
completed records have set them, and whether the next section is FULL. -/
structure GridState where
  feats : List Feature
  reference : Cells Nat
  rebuilt : Bool
  /-- The value drawn for the last FUSE, its slice's ToV, level and ZREF, and whether it shifted. -/
  fuseDraw : Nat
  fuseTov : Nat
  fuseLevel : Nat
  zref : Int
  shifted : Bool
  entered : List (Int × Int)
  deriving DecidableEq, Repr

/-- Where a calibration update stands (R169 to R171). -/
inductive CalPhase where
  | residuals | solving | proposed | sent
  deriving DecidableEq, Repr

/-- One calibration update: its slice, sensor, residual count, normal equations over the seven scaled unknowns, each row
with its right-hand side, and step: rotation vector in degrees, translation in mm, time offset in ns. -/
structure CalUpdate where
  seq : Nat
  tov : Nat
  sensor : Nat
  residuals : Nat
  normal : List (List Rat)
  phase : CalPhase
  rot : List Rat
  trans : List Rat
  dt : Rat
  deriving DecidableEq, Repr

/-- Calibration (R169 to R173): updates under way, accepted steps not yet in force, the consecutive small steps of each
sensor, and the time in 2⁻¹⁶ ns of each camera's latest frame that joined a slice. -/
structure CalState where
  updates : List CalUpdate
  accepted : List CalUpdate
  smallSteps : List Nat
  frames : List (Option Int)
  deriving DecidableEq, Repr

/-! ## Images -/

/-- A loaded work list (R202, R205): the address and length of its image and DOME_BASE. -/
structure WorkList where
  addr : Nat
  len : Nat
  base : Nat
  deriving DecidableEq, Repr

/-- The loaded images (R201, R205, R274): the models of slots 0 to 7, and the solver's models, as address and length;
the ACTIVE and STANDBY lists, whether an activation is pending, and old lists not yet released. -/
structure ImgState where
  models : List (Option (Nat × Nat))
  active : Option WorkList
  standby : Option WorkList
  pending : Bool
  old : List WorkList
  slvActive : Option (Nat × Nat)
  slvStandby : Option (Nat × Nat)
  slvPending : Bool
  deriving DecidableEq, Repr

/-! ## Items and memory accesses -/

/-- A work item in progress (R203, R188): its slice, its number (stage × 65,536 + index), its eight words, the flat
index of its unit or 400 + l for Tollis DMA l, the time of its first issue, whether its WAIT still holds the unit (R197),
whether its budget has passed, whether it consumed poisoned data, whether its attention operation has been carried out and
has failed (R232), how many tokens it has appended (R231), and its array job. -/
structure RunItem where
  seq : Nat
  id : Nat
  words : List Nat
  unit : Nat
  started : Nat
  waits : Bool
  overrun : Bool
  poisoned : Bool
  opDone : Bool
  failed : Bool
  progress : Nat
  job : ArrayJob
  deriving DecidableEq, Repr

/-- A tag in use (R194): its request, the bytes a write carries and whether they are poisoned, whether the access is
out of its footprint or is redirected by a replay, since when its release is crossing, and how many grants of its bank have
passed its port over in a row (R192). -/
structure TagRec where
  req : MemReq
  data : List Nat
  poisoned : Bool
  void : Bool
  redirect : Bool
  returning : Option Nat
  passed : Nat
  deriving DecidableEq, Repr

/-- An access of the host through a BAR, or of a Tollis receive window, with the way it ends (R194, R277, R400). -/
structure OuterAccess where
  port : Requester
  ddr : Bool
  write : Bool
  addr : Nat
  len : Nat
  bytes : List Nat
  how : MemEnd
  deriving DecidableEq, Repr

/-- The fabric (R188 to R200): items in progress, tags in the order of their grants, requests and accesses from outside
that wait for a tag, the port that each Dome bank granted last, the units' buffers by 2²⁰ × flat index + offset, words
marked poisoned, and Dome words to be rewritten. -/
structure FabricState where
  items : List RunItem
  tags : List TagRec
  waiting : List MemReq
  outer : List OuterAccess
  lastPort : List Nat
  bufs : Cells Byte
  marks : Cells Nat
  rewrites : List Nat
  deriving DecidableEq, Repr

/-! ## Attention and tracks -/

/-- A page migration in progress (R220): source, destination, the owning slot, whether the source is quarantined at
the end, whether step 3 is done, and since when a page is MIGRATING. -/
structure MigRec where
  src : Nat
  dst : Nat
  slot : Nat
  quarantine : Bool
  swapped : Bool
  since : Nat
  deriving DecidableEq, Repr

/-- What the slice's evidence attend recorded (R235): its slice, the address of its key tags if it had any, its key
count, and for each query the admitted keys, whether all of them carried LO, and the largest LO radius. -/
structure EvidRec where
  seq : Nat
  tags : Option Nat
  keys : Nat
  queries : List (Nat × Bool × Nat)
  deriving DecidableEq, Repr

/-- A live track (R233, R241): its slot, state, counts, flags, CONF, CLASS, and its sixteen entry words, of which the
manager's own words are formed at output. -/
structure TrackRec where
  slot : Nat
  state : Nat
  hits : Nat
  age : Nat
  since : Nat
  born : Bool
  matched : Bool
  loEv : Bool
  conf : Nat
  cls : Nat
  words : List Nat
  deriving DecidableEq, Repr

/-- An eviction record (R242): the sequence ID that ended, its reason, CONF, SINCE and position words. -/
structure EndRec where
  id : Nat
  reason : Nat
  conf : Nat
  since : Nat
  x : Nat
  y : Nat
  deriving DecidableEq, Repr

/-- What a commit has worked out, as its journal holds it (R236, R239): its slice, whether the work list gave it, the track
table it leaves, eviction records, births, refusals, LO refusals, whether LO was applied, the slots born in it, and its
changes in order: a slot and 0 for an expiry, 1 for an eviction, 2 for a birth. -/
structure TrackJournal where
  seq : Nat
  given : Bool
  tracks : List TrackRec
  ended : List EndRec
  births : Nat
  refused : Nat
  loRefused : Nat
  loAny : Bool
  born : List Nat
  changes : List (Nat × Nat)
  deriving DecidableEq, Repr

/-- The attention sequencer's own state; the header and owner tables are Dome contents and the page lists LPDDR5X
contents (R214, R215). Tracks are in ascending slot order; each slice has its last evidence attend, and a journal is that of
a commit not yet applied. -/
structure AttnState where
  tracks : List TrackRec
  mig : Option MigRec
  evids : List EvidRec
  journal : Option TrackJournal
  deriving DecidableEq, Repr

/-! ## Solver -/

/-- A point of a solve: inputs of each stage and states, in their 40-bit formats (R258). -/
structure SlvPoint where
  us : List (List Int)
  xs : List (List Int)
  deriving DecidableEq, Repr

/-- A held row: stage, row, and state 1 AT_BOUND or 2 PENALISED (R254). Stage N holds the terminal rows. -/
abbrev HeldRow := Nat × Nat × Nat

/-- The stored solution (R256, R271): its inputs and their fraction bits, held rows, ToV, phase in ns, and whether it
came from a BAD_INPUT return. -/
structure SlvStored where
  us : List (List Int)
  ufrac : Nat
  held : List HeldRow
  tov : Nat
  phase : Nat
  bad : Bool
  deriving DecidableEq, Repr

/-- A solve in progress (R250): its slice, or the address of a test's control section; its ToV, start, model image, the
bytes of its parameter block, the SLV registers in force at its start (R272), level and horizon; cold start, shift and
phase; its starting inputs and the rows carried over, whether its check failed, its assembled point and held rows, whether
converting, simulating and classifying saturated, and whether the deadline had passed at its start. -/
structure SlvJob where
  seq : Nat
  test : Option Nat
  tov : Nat
  started : Nat
  model : Nat
  block : List Nat
  regs : List Nat
  level : Nat
  horizon : Nat
  cold : Bool
  shift : Nat
  phase : Nat
  start : List (List Int)
  carried : List HeldRow
  badInput : Bool
  point : SlvPoint
  held : List HeldRow
  convSat : Bool
  simSat : Bool
  rowSat : Bool
  late : Bool
  deriving DecidableEq, Repr

/-- The solver's own state: the solve in progress, the stored solution, and whether the next solve is cold (R257). -/
structure SlvState where
  job : Option SlvJob
  stored : Option SlvStored
  fresh : Bool
  deriving DecidableEq, Repr

/-! ## Slices -/

/-- A slice from its start until its record is complete or abandoned (R105 to R111). -/
structure SliceRec where
  seq : Nat
  tov : Nat
  start : Nat
  closed : Bool
  oldestAge : Nat
  lateAdmitted : Nat
  lateDropped : Nat
  chans : List ChanSlice
  /-- The corrections of the extrinsics of channels 0 to 23 in force at its start: δθ in nrad, then δt in nm (R123). -/
  corr : List (List Int)
  /-- What it has seen and taken in: UNSYNC and holdover flags, points, frames, evidence and de-skewed points (R105, R111,
  R115, R123, R124). -/
  unsync : Bool
  holdover : Bool
  points : List PointRec
  frames : List FrameRec
  evidence : List Evidence
  deskewed : List DeskewedPoint
  /-- The ego state record at its ToV, and the ego status bits gathered over the slice (R122). -/
  ego : List Nat
  egoStatus : Nat
  egoLate : Nat
  /-- Stages begun and done, one bit a stage: 1 ALIGN, 2 VOXEL, 3 CAMERA, 4 FUSE, 5 TRACK, 6 SOLVE, 7 PUBLISH. -/
  begun : Nat
  finished : Nat
  /-- The governor level at which each stage began. -/
  levels : List Nat
  /-- It is a slice of half-slice mode (R16). -/
  half : Bool
  /-- The sections written so far, in words: level P, level F, level O and control (R149, R167, R238, R267). -/
  secP : List Nat
  secF : List Nat
  secO : List Nat
  secC : List Nat
  /-- A tile of the window had an effective level above 0 in VOXEL (R149). -/
  tileCoarse : Bool
  /-- The work list it runs on, from its ALIGN start (R205). -/
  list : Option WorkList
  /-- Indices of items started, refused or done, one list over all its stages: stage × 65,536 + index. -/
  items : List Nat
  /-- The least slack of the ledger so far, in ns (R20). -/
  minSlack : Option Rat
  /-- A section was formed from poisoned data (R307). -/
  poisoned : Bool
  /-- A TRACK_COMMIT has been made in its TRACK stage (R238). -/
  committed : Bool
  /-- Linear counts at which its stages began. -/
  starts : List Nat
  /-- The governor raised the level at a checkpoint of it (R343). -/
  raised : Bool
  /-- A golden run takes place in its FUSE stage, and the level that the forced branch gives its later stages. -/
  golden : Bool
  goldClear : Bool
  boost : Nat
  /-- The 64 header words, once PUBLISH has written them (R308). -/
  hdr : List Nat
  /-- The last calibration outcome since its start, a channel and LAST (R306 word 14). -/
  calOut : Option (Nat × Nat)
  /-- Its level F section was FULL because the grid had been rebuilt (R167). -/
  fRebuilt : Bool
  /-- The rectified strips that its camera phase has yet to run over (R161). -/
  strips : List CamStrip
  /-- SLV_LIMITS.SPIRE_STAGES as in force at the start of its SOLVE (R267, R272). -/
  spireStages : Nat
  deriving DecidableEq, Repr

/-- The result mirror (R311, R312): records waiting, the record being copied, records skipped since the last index
entry, the next host slot, index entries not released, and the PHASE of the next entry. -/
structure MirrorState where
  queue : List Nat
  copying : Option Nat
  skipped : Nat
  next : Nat
  unreleased : Nat
  phase : Nat
  deriving DecidableEq, Repr

/-- A Tollis job (R394 to R396): the sequence count of the next token, and the job aborted last with the linear count of
its abort. -/
structure TolState where
  seq : Nat
  aborted : Option (Nat × Nat)
  deriving DecidableEq, Repr

/-! ## Command packets -/

/-- A reply: its status code and parameter words (R288, R289). -/
structure Reply where
  status : Nat
  words : List Nat
  deriving DecidableEq, Repr

/-- A command in execution on its path (R281, R293): its header, word 0 as it was received, opcode, parameters, the
linear count at its start, and its reply once it has completed. -/
structure Running where
  head : CmdHead
  word0 : Nat
  opcode : Nat
  params : List Nat
  started : Nat
  reply : Option Reply
  deriving DecidableEq, Repr

/-! ## Power, reset and freeze -/

/-- Where a recovery stands (R367, R379): `done` waits for the fence to lift. -/
inductive RcvStep where
  | fence | drain | capture | reset | rebuild | replay | audit | done
  deriving DecidableEq, Repr

/-- A reset of any level from its grant to the lifting of its fence (R364 to R379): its level, source, fault bit (64 for
none), partition and flat index (400 for none), the linear count of its arrival, the T96 of its fence in 2⁻¹⁶ ns, the count of its fence, whether
the source still holds it asserted, the count from which the 20 µs run, whether a replay follows, its suspects with their
outcomes, its queue heads with their progress, the tags completed normally and by error in its drain, its capture number,
the oldest slice and the fault summary at its request,
whether a self-test runs in its rebuild (R415), whether it drove RST_OUT_n, whether it ends a freeze (R440), the units
that its fault named (R380), and the fault bits of the Spire's requests that it answers (R322). -/
structure Recovery where
  level : Nat
  source : Nat
  fault : Nat
  part : Nat
  flat : Nat
  step : RcvStep
  since : Nat
  fencedAt : Nat
  fenceNs : Nat
  holding : Bool
  holdFrom : Nat
  replay : Bool
  suspects : List (Nat × Nat)
  heads : List (RunItem × Nat)
  drained : Nat
  errors : Nat
  capture : Option Nat
  oldest : Nat
  faults : Nat
  test : Bool
  pinned : Bool
  thaws : Bool
  named : List Nat
  asked : List Nat
  deriving DecidableEq, Repr

/-- The reset controller's histories, kept through L1 (R375, R380, R382, R383): linear counts of the resets of levels L1
to L3, the flat indices and linear counts of the unit resets that count, and captures since the last L0. -/
structure EscState where
  device : List Nat
  units : List (Nat × Nat)
  captures : Nat
  deriving DecidableEq, Repr

/-- Buttress (R413 to R417). Targets are flat indices, or 0x8000 + a Dome bank; physical units are 0x100 × kind + slot,
kind 0 an array, 1 a vector core, 2 a Dome bank. -/
structure ButtressState where
  /-- Flagged targets with their cause, oldest first: 0 canary, 1 corrected errors, 2 golden failure, 3 SPARE_TEST. -/
  queue : List (Nat × Nat)
  /-- Units of failed golden rotations that wait for room in the queue. -/
  backlog : List Nat
  testing : Option Nat
  /-- Logical units to be replaced, and whether a self-test confirmed their failure. -/
  swaps : List (Nat × Bool)
  /-- The Dome bank being copied, the spare's slot, and whether the failure is confirmed. -/
  copy : Option (Nat × Nat)
  /-- The repair record: failed physical units, and repaired rows. -/
  failed : List Nat
  rows : List Nat
  /-- Rows recorded and not yet repaired. -/
  fresh : List Nat
  /-- Corrected errors of rows within 24 hours, and of targets within one hour: key, linear count, errors. -/
  rowErrors : List (Nat × Nat × Nat)
  errors : List (Nat × Nat × Nat)
  deriving DecidableEq, Repr

/-- A boot descriptor (R412): ACTIVE, TRIAL, CONFIRMED, TRIAL_BOOTS, the INVALID flags as a mask, and its sequence. -/
structure BootDesc where
  active : Nat
  trial : Bool
  confirmed : Bool
  boots : Nat
  invalid : Nat
  seq : Nat
  deriving DecidableEq, Repr

/-- Cupola: its flash, fuses and the firmware's own state (R404 to R430). -/
structure CupolaState where
  /-- Boot descriptor copies A and B; none is a copy whose CRC is wrong. -/
  descA : Option BootDesc
  descB : Option BootDesc
  /-- The bytes of each firmware bank; none is what the integrator programmed. -/
  banks : List (Option (List Nat))
  /-- The highest SVN burned by a FW_CONFIRM. -/
  burned : Nat
  /-- Log entries persisted in flash, newest first. -/
  flashLog : List (List Nat)
  /-- Certificate slot 1. -/
  cert : Option (List Nat)
  /-- The bank whose image the boot staging range holds, and the digest recorded of it. -/
  bootCopy : Option (Nat × List Nat)
  /-- The boot ROM has loaded an image since the last release. -/
  loaded : Bool
  /-- Bytes staged, the result of the last FW_VERIFY, and the committed bank. -/
  staged : Nat
  verified : Option Nat
  committed : Option Nat
  /-- The VDD_CORE target commanded last, whether its acknowledgement is awaited, when it was written, and the calm
  milliseconds (R407). -/
  target : Nat
  avsWaits : Bool
  targetAt : Nat
  calm : Nat
  /-- In FIXED mode, the TARGET that has been reached. -/
  fixedAt : Option Nat
  /-- Diodes and monitors whose last sample was at or above TRIP, or outside the window. -/
  hot : List Nat
  out : List Nat
  /-- SPDM: whether version, capabilities and algorithms have been agreed, one bit each. -/
  spdm : Nat
  deriving DecidableEq, Repr

/-- One Tollis link beyond its registers (R390, R391, R418): credits on their way back to the peer as VC and linear
count, marked lanes, and symbols corrected in the last second as lane, linear count and number. -/
structure TolLink where
  returning : List (Nat × Nat)
  marked : List Nat
  symbols : List (Nat × Nat × Nat)
  deriving DecidableEq, Repr

/-- The debug block (R433, R436, R441): the outstanding nonce, the TAP's instruction, and the Lantern pins' last samples
while frozen. -/
structure DebugState where
  nonce : Option (List Nat)
  tap : Nat
  held : List Bool
  deriving DecidableEq, Repr

/-- One ring pair beyond its registers (R279 to R284): the reply phase, slots POSTED, since when a slot is POSTING, the
released slots that still cross, whether EN is to be cleared after the command in execution, and whether a PCIe error
has stopped it. -/
structure RingState where
  phase : Nat
  posted : Nat
  posting : Option Nat
  crossing : Nat
  disabling : Bool
  stopped : Bool
  deriving DecidableEq, Repr

/-- A reply kept for the duplicate rule of R293: its path, TAG, SEQUENCE, the linear count at which its command arrived,
and its packet. -/
structure MgmtReply where
  path : Path
  tag : Nat
  seq : Nat
  at_ : Nat
  words : List Nat
  deriving DecidableEq, Repr

/-- The MCTP and Tollis command queues and the replies kept (R293, R294). -/
structure MgmtState where
  queue : List (Path × List Nat × Nat)
  replies : List MgmtReply
  deriving DecidableEq, Repr

/-- Which dies have power, which are held in reset, whether Cupola has booted, whether FREEZE_n holds the main die,
whether the PCIe link is up (R357, R362, R367, R437, R448, R454), and whether RST_IN_n, FREEZE_n and PERST_n are low. -/
structure PowerState where
  mainUp : Bool
  mainHeld : Bool
  booted : Bool
  frozen : Bool
  spireUp : Bool
  spireHeld : Bool
  pcieUp : Bool
  rstIn : Bool
  freezeIn : Bool
  perst : Bool
  deriving DecidableEq, Repr

/-- PCI configuration space (R275, R276, R368): the identity of the function, Max_Payload_Size and
Max_Read_Request_Size in bytes, the bases of BAR0, BAR2 and BAR4, the MSI-X enable, and the uncorrectable errors that
Advanced Error Reporting has noted. No command of the table writes it but through the errors (log entry 92). -/
structure PciConfig where
  vendor : Nat
  device : Nat
  classCode : Nat
  maxPayload : Nat
  maxReadRequest : Nat
  bars : List Nat
  msixOn : Bool
  aer : Nat
  deriving DecidableEq, Repr

/-- The whole state of the module. -/
structure State where
  pending : List Instr
  /-- BAR0 register words by byte address; an unlisted address reads as its reset word. -/
  regs : Cells Word
  /-- Held low words of 64-bit registers, by the address of the low word (R10). -/
  heldLow : List (Nat × Word)
  /-- Shadow copies by the address of the word that returns them (R10, R37). -/
  shadow : List (Nat × Word)
  /-- The last read completion: none is a Completer Abort. -/
  readData : Option Word
  /-- The high word of the last read completion, of a 64-bit read (R4). -/
  readHigh : Option Word
  /-- The last BAR2 or BAR4 read completion: its bytes, and whether its TLP is marked poisoned (R277). -/
  barData : List Nat × Bool
  out : List OutEvent
  bridgeUp : List UpMsg
  bridgeDown : List DownMsg
  spr : SpireState
  /-- The ingress tap's LFSR of each Ethernet channel (R329). -/
  tapLfsr : List Nat
  dome : List Host.Cell
  lpddr : List Host.Cell
  hostMem : Cells Word
  /-- The word the Verdict port last drove; none is high impedance (R314). -/
  vpData : Option Nat
  /-- The model's own counter of free values drawn so far. -/
  freeCount : Nat
  /-- T96 in units of 2⁻⁴⁸ ns (R35, R39). -/
  time : Nat
  /-- Pending slew in units of 2⁻⁴⁸ ns (R39, R42). -/
  slew : Int
  /-- What the steps of T96 have added to it, in units of 2⁻⁴⁸ ns: T96 less this runs without steps, and every limit in
  ns or µs is measured by it. -/
  stepped : Int
  /-- For each compare, the T96 at which it became armed with its target already reached, until it fires (R48). -/
  cmpLate : List (Option Nat)
  /-- Whether HOLDOVER or OFFSET_LARGE has been set since the present slice began (R71). -/
  holdSeen : Bool
  trig : List TrigGen
  cap : List CapPin
  ptp : PtpState
  /-- The commands in execution, at most one a path. -/
  cmds : List Running
  pwr : PowerState
  pci : PciConfig
  ing : List IngChan
  /-- Flat indices (R366) of the units an L2 or L3 holds in reset now (R469). -/
  heldUnits : List Nat
  aln : List AlnChan
  ego : EgoState
  vhe : VheState
  lanes : List Lane
  grid : GridState
  cal : CalState
  /-- Slices that have started and whose record is neither complete nor abandoned, oldest first. -/
  slices : List SliceRec
  /-- A result has been published since the last START. -/
  anyPublished : Bool
  img : ImgState
  fab : FabricState
  attn : AttnState
  slv : SlvState
  /-- A lowering of the governor's level that applies from the next ALIGN start (R20). -/
  govLower : Bool
  /-- The sequencer's copy of GOLD_RES (R470), a golden run pending from an earlier slice, and its deferrals (R343). -/
  goldRes : Nat
  goldPending : Bool
  goldDeferrals : Nat
  /-- The next rotation, the runs forced and still to start, and whether they are the rechecks of R345. -/
  goldRotation : Nat
  goldForced : Nat
  goldRecheck : Bool
  /-- The next forced run is the one SAFE_CLEAR asked for (R354). -/
  goldClear : Bool
  /-- A STOP with ABANDON is in progress (R302). -/
  stopAbandon : Bool
  /-- Flat indices of the units that replay a suspect now (R377). -/
  replaying : List Nat
  /-- The linear count before which a START's first boundary may not lie (R301), and the next sequence number. -/
  runStart : Nat
  nextSeq : Nat
  /-- The slice mode that a pending change brings (R303). -/
  halfNext : Bool
  /-- The ToV of the last complete record since START (R298). -/
  lastTov : Nat
  mirror : MirrorState
  tol : TolState
  /-- Resets in progress, oldest first. -/
  rcv : List Recovery
  esc : EscState
  bt : ButtressState
  cup : CupolaState
  links : List TolLink
  dbg : DebugState
  rings : List RingState
  mgmt : MgmtState
  deriving DecidableEq, Repr

/-- Configuration space after its reset: the identity of R275; the fields that the PCI Express Base Specification names
at its defaults (PRESUMED, log entry 92). -/
def PciConfig.reset : PciConfig := ⟨0x1F3C, 0x8740, 0x120000, 128, 512, [0, 0, 0], false, 0⟩

/-- The references after a reset or a new configuration. -/
def SprRefs.reset : SprRefs := ⟨0, 0, 0, 0, 0, 0, List.replicate 4 none, false, 0, false⟩

/-- An extrinsic without correction. -/
def noCorr : List Rat × List Rat × Rat := (qone, vzero, 0)

/-- The Spire after its reset. -/
def SpireState.reset : SpireState where
  config := []
  now := 0
  bits := List.replicate 40 ⟨0, 0, 0⟩
  goldS2 := false
  clearHold := false
  ticks := []
  len := 0
  missed := false
  suspended := false
  sawReset := false
  slices := []
  copies := []
  prev := none
  plan := none
  refs := SprRefs.reset
  points := []
  startAt := none
  verdicts := []
  corr := List.replicate 8 noCorr
  latch := none
  flags := 0
  solve := 0
  validAt := none
  lastCopy := none
  quantum := 0
  groupDone := List.replicate 8 none
  tested := false
  taps := 0
  tapsOwed := []
  statuses := 0
  scopes := 0
  forced := false
  recheck := none
  bist := []

/-- A stopped generator. -/
def TrigGen.reset : TrigGen := ⟨0, none, false, 0, false, 0⟩
/-- A port that has heard and sent nothing. -/
def PtpPort.reset : PtpPort := ⟨none, 0, none, none, none, none, 0⟩
/-- The PTP engine after reset. -/
def PtpState.reset : PtpState := ⟨[], [], [], 0, 0, 0, List.replicate 10 PtpPort.reset, 0, 0, 0, false⟩

/-- A channel after reset: both banks FREE. -/
def IngChan.reset : IngChan where
  bank0 := .free
  bank1 := .free
  fill := 0
  offset := 0
  passage := none
  packets := []
  seq := 0
  dropGap := 0
  arriving := false
  macStamp := 0
  macBytes := []
  flushed := false
  bound := []
  delivered := none
  spiCount := 0
  frameNo := List.replicate 4 0
  frameStamp := List.replicate 4 0
  lineNo := List.replicate 8 0
  inputs := List.replicate 8 ⟨0, 0, false, false, 0, false⟩
  paused := []
  heldPtp := []

/-- The aligner's view of a channel after reset. -/
def AlnChan.reset : AlnChan := ⟨false, false, none, 0, 0, 0⟩

/-- A channel's notes at the start of a slice. -/
def ChanSlice.fresh : ChanSlice := ⟨false, false, false, false, 0, 0, 0⟩

/-- The integrator after reset, off. -/
def EgoState.reset : EgoState where
  mode := 0
  pose := Pose.still
  gyroBias := vzero
  last := none
  before := Pose.still
  beforeT := 0
  imuTime := none
  wheelTime := none
  imuPresent := false
  wheelPresent := false
  onBackup := false
  heldStill := false
  forceSum := vzero
  forceCount := 0
  gyroSum := vzero
  gyroCount := 0
  speeds := List.replicate 16 0
  wheelLast := List.replicate 16 (0, 0)
  zupt := false
  biasValid := false
  imuSwitched := false
  knots := []
  nextKnot := 0

/-- The VHE after reset: empty, every slot ANCIENT. -/
def VheState.reset : VheState where
  table := []
  stash := []
  counts := []
  scrubAt := 0
  gens := List.replicate 8 0
  needCentre := true
  initHold := false
  todo := []
  log := []
  logOvf := false
  zRebased := false
  windowSet := false
  bigMove := false
  rebuilt := true
  departed := []
  tally := List.replicate 6 0
  reported := []
  reasons := []
  owed := []
  owedFull := false

/-- Nothing loaded. -/
def ImgState.reset : ImgState := ⟨List.replicate 8 none, none, none, false, [], none, none, false⟩

/-- An idle fabric with empty buffers. -/
def FabricState.reset : FabricState := ⟨[], [], [], [], List.replicate 64 1023, [], [], []⟩

/-- No track, migration or evidence attend. -/
def AttnState.reset : AttnState := ⟨[], none, [], none⟩

/-- A free frame buffer. -/
def FrameBuf.reset : FrameBuf := ⟨.free, 0, 0, [], [], [], false, 0⟩
/-- A lane after reset. -/
def Lane.reset : Lane := ⟨List.replicate 3 FrameBuf.reset, none, [], 0, false⟩
/-- The grid after reset. -/
def GridState.reset : GridState := ⟨[], [], true, 0, 0, 0, 0, false, []⟩
/-- Calibration after reset. -/
def CalState.reset : CalState := ⟨[], [], List.replicate 24 0, List.replicate 16 none⟩

/-- Buttress with nothing flagged and an empty repair record. -/
def ButtressState.reset : ButtressState where
  queue := []
  backlog := []
  testing := none
  swaps := []
  copy := none
  failed := []
  rows := []
  fresh := []
  rowErrors := []
  errors := []

/-- Cupola after its first boot from bank 0. -/
def CupolaState.reset : CupolaState where
  descA := some ⟨0, false, true, 0, 0, 0⟩
  descB := none
  banks := [none, none]
  burned := 0
  flashLog := []
  cert := none
  bootCopy := none
  loaded := true
  staged := 0
  verified := none
  committed := none
  target := 750
  avsWaits := false
  targetAt := 0
  calm := 0
  fixedAt := none
  hot := []
  out := []
  spdm := 0

/-- A link that is down, with no lane marked. -/
def TolLink.reset : TolLink := ⟨[], [], []⟩
/-- A disabled ring pair. -/
def RingState.reset : RingState := ⟨1, 0, none, 0, false, false⟩

/-- The machine after an L0 cold reset and its boot: the run state is IDLE (R296). -/
def State.reset : State where
  pending := []
  regs := []
  heldLow := []
  shadow := []
  readData := some 0
  readHigh := none
  barData := ([], false)
  out := []
  bridgeUp := []
  bridgeDown := []
  spr := SpireState.reset
  tapLfsr := List.replicate 8 0
  dome := []
  lpddr := []
  hostMem := []
  vpData := none
  freeCount := 0
  time := 0
  slew := 0
  stepped := 0
  cmpLate := List.replicate 16 none
  holdSeen := false
  trig := List.replicate 16 TrigGen.reset
  cap := List.replicate 32 ⟨[], none⟩
  ptp := PtpState.reset
  cmds := []
  pwr := ⟨true, false, true, false, true, false, true, false, false, false⟩
  pci := PciConfig.reset
  ing := List.replicate 32 IngChan.reset
  heldUnits := []
  aln := List.replicate 32 AlnChan.reset
  ego := EgoState.reset
  vhe := VheState.reset
  lanes := List.replicate 16 Lane.reset
  grid := GridState.reset
  cal := CalState.reset
  slices := []
  anyPublished := false
  img := ImgState.reset
  fab := FabricState.reset
  attn := AttnState.reset
  slv := ⟨none, none, true⟩
  govLower := false
  goldRes := 34500
  goldPending := false
  goldDeferrals := 0
  goldRotation := 0
  goldForced := 0
  goldRecheck := false
  goldClear := false
  stopAbandon := false
  replaying := []
  runStart := 0
  nextSeq := 0
  halfNext := false
  lastTov := 0
  mirror := ⟨[], none, 0, 0, 0, 1⟩
  tol := ⟨0, none⟩
  rcv := []
  esc := ⟨[], [], 0⟩
  bt := ButtressState.reset
  cup := CupolaState.reset
  links := List.replicate 2 TolLink.reset
  dbg := ⟨none, 0xFF, List.replicate 16 false⟩
  rings := List.replicate 4 RingState.reset
  mgmt := ⟨[], []⟩

end Sys2Proof.Machine
end

