-- ==== Sys2Proof/Machine/Ops.lean ====
section
/-! DEFINITION. The named operations over registers, memories, messages, the event log and time that every meaning
is built from. -/
namespace Sys2Proof.Machine

/-! ## Registers -/

/-- The stored word of the register at an address. -/
def rd (s : State) (a : Nat) : Word := cellsGet resetWord s.regs a

/-- Store a register word. -/
def wr (s : State) (a : Nat) (v : Word) : State := { s with regs := cellsSet resetWord s.regs a v }

/-- A field of a register. -/
def fget (s : State) (a : Nat) (f : Bits) : Nat := getBits f (rd s a)

/-- A one-bit field of a register. -/
def fbit (s : State) (a : Nat) (f : Bits) : Bool := fget s a f == 1

/-- Set a field of a register. -/
def fset (s : State) (a : Nat) (f : Bits) (v : Nat) : State := wr s a (setBits f (rd s a) v)

/-- Set a one-bit field. -/
def fput (s : State) (a : Nat) (f : Bits) (b : Bool) : State := fset s a f (b2n b)

/-- Set a status bit. -/
def fon (s : State) (a : Nat) (f : Bits) : State := fset s a f 1

/-- Add to a counter field, which saturates at its largest value. -/
def bumpBy (s : State) (a : Nat) (f : Bits) (k : Nat) : State :=
  fset s a f (clampNat (2 ^ bitsWidth f - 1) (fget s a f + k))

/-- The whole word as a field. -/
def fWord : Bits := ⟨31, 0⟩

/-- Count one event in a 32-bit counter. -/
def bump (s : State) (a : Nat) : State := bumpBy s a fWord 1

/-- Store the RW fields of a register from a written word; its other fields keep their values (R7). -/
def storeRw (a : Nat) (v : Word) (s : State) : State :=
  match regAt a with
  | some h => wr s a ((rd s a &&& ~~~(BitVec.ofNat 32 (accMask .rw h.row))) ||| (v &&& BitVec.ofNat 32 (accMask .rw h.row)))
  | none => s

/-- Whether a written word would change an RW field (R468). -/
def rwChanges (a : Nat) (v : Word) (s : State) : Bool :=
  match regAt a with
  | some h => (rd s a ^^^ v) &&& BitVec.ofNat 32 (accMask .rw h.row) != 0
  | none => false

/-- Whether a word has ones outside a register's RW fields. -/
def reservedSet (a v : Nat) : Bool :=
  match regAt a with
  | some h => decide (v ≥ 2 ^ 32 ∨ Nat.land v (2 ^ 32 - 1 - accMask .rw h.row) ≠ 0)
  | none => true

/-- Read a counter and clear it (R7). -/
def takeCount (a : Nat) (s : State) : Nat × State := ((rd s a).toNat, wr s a 0)

/-- Read and clear counters in order. -/
def takeCounts : List Nat → State → List Nat × State
  | [], s => ([], s)
  | a :: as, s => ((takeCount a s).1 :: (takeCounts as (takeCount a s).2).1, (takeCounts as (takeCount a s).2).2)

/-- A 64-bit register from its low word's address. -/
def rd64 (s : State) (a : Nat) : Nat := (rd s a).toNat + 2 ^ 32 * (rd s (a + 4)).toNat

/-- Store a 64-bit register. -/
def wr64 (s : State) (a : Nat) (v : Nat) : State :=
  wr (wr s a (BitVec.ofNat 32 (v % 2 ^ 32))) (a + 4) (BitVec.ofNat 32 (v / 2 ^ 32 % 2 ^ 32))

/-! ## Association lists: shadow copies and held words -/

/-- The entry of a key. -/
def assocGet {β : Type} : List (Nat × β) → Nat → Option β
  | [], _ => none
  | (k, v) :: r, a => if k = a then some v else assocGet r a

/-- Drop the entries of a key. -/
def assocDel {β : Type} (l : List (Nat × β)) (a : Nat) : List (Nat × β) := l.filter (fun e => e.1 != a)

/-- Replace the entry of a key. -/
def assocSet {β : Type} (l : List (Nat × β)) (a : Nat) (v : β) : List (Nat × β) := (a, v) :: assocDel l a

/-- Latch shadow copies: the address of each word and its value (R10, R37). -/
def latchWords (l : List (Nat × Nat)) (s : State) : State :=
  { s with shadow := l.foldl (fun m e => assocSet m e.1 (BitVec.ofNat 32 e.2)) s.shadow }

/-! ## Memories -/

/-- What a byte reads as that nothing has written (DESIGN CHOICE, log entry 3). -/
def emptyByte (_ : Nat) : Byte := 0

/-- One Dome byte. -/
def domeByte (s : State) (a : Nat) : Nat := (cellsGet emptyByte s.dome a).toNat

/-- One LPDDR5X byte. -/
def ddrByte (s : State) (a : Nat) : Nat := (cellsGet emptyByte s.lpddr a).toNat

/-- Write bytes into a byte store from an address on. -/
def putBytes : List Host.Cell → Nat → List Nat → List Host.Cell
  | m, _, [] => m
  | m, a, b :: bs => putBytes (cellsSet emptyByte m a (BitVec.ofNat 8 b)) (a + 1) bs

/-- Read n bytes of a byte store. -/
def getBytes (m : List Host.Cell) (a : Nat) : Nat → List Nat
  | 0 => []
  | n + 1 => (cellsGet emptyByte m a).toNat :: getBytes m (a + 1) n

/-- Write bytes into LPDDR5X. -/
def ddrPut (s : State) (a : Nat) (bs : List Nat) : State := { s with lpddr := putBytes s.lpddr a bs }

/-- Write bytes into the Dome. -/
def domePut (s : State) (a : Nat) (bs : List Nat) : State := { s with dome := putBytes s.dome a bs }

/-- Read n little-endian words of LPDDR5X. -/
def ddrWords (s : State) (a n : Nat) : List Nat :=
  (List.range n).map (fun i => ofBytes (getBytes s.lpddr (a + 4 * i) 4))

/-- One little-endian word of LPDDR5X. -/
def ddrWord (s : State) (a : Nat) : Nat := ofBytes (getBytes s.lpddr a 4)

/-- One little-endian word of the Dome. -/
def domeWord (s : State) (a : Nat) : Nat := ofBytes (getBytes s.dome a 4)

/-- Write little-endian words into LPDDR5X. -/
def ddrPutWords (s : State) (a : Nat) (ws : List Nat) : State := ddrPut s a (bytesOfWords ws)

/-- Write little-endian words into the Dome. -/
def domePutWords (s : State) (a : Nat) (ws : List Nat) : State := domePut s a (bytesOfWords ws)

/-- What a word of host memory holds that the module has not written. -/
def emptyWord (_ : Nat) : Word := 0

/-- Write words into host memory, in address order (R278, R282). -/
def hostPut : State → Nat → List Nat → State
  | s, _, [] => s
  | s, a, w :: ws => hostPut { s with hostMem := cellsSet emptyWord s.hostMem a (BitVec.ofNat 32 w) } (a + 4) ws

/-! ## Free values -/

/-- Draw the next free value: nothing constrains it (DESIGN CHOICE, log entry 4). -/
def drawFree (s : State) : Nat × State := (Config.free s.freeCount, { s with freeCount := s.freeCount + 1 })

/-- A quotient whose rounding the manual does not give: one of the two nearest whole numbers. -/
def divFree (n : Int) (d : Nat) : Int := n / d + (if n % d = 0 then 0 else if Config.roundsUp n d then 1 else 0)

/-! ## Time -/

/-- Units of T96's internal fraction in one nanosecond. -/
def unitsPerNs : Nat := 2 ^ 48

/-- The linear count: SEC × 10⁹ + NS (R38). -/
def lin (s : State) : Nat := s.time / unitsPerNs

/-- T96 without the steps it has made, in 2⁻⁴⁸ ns: it runs as the Belfry does, and no step moves it. -/
def upTime (s : State) : Int := (s.time : Int) - s.stepped

/-- Nanoseconds by which the limits of the manual are measured: a step of T96 lengthens and shortens none of them
(DEDUCED, log entry 76). -/
def upNs (s : State) : Nat := (upTime s / (unitsPerNs : Int)).toNat

/-- The low 32 bits of the linear count, as compares and triggers hold it (R38). -/
def lin32 (s : State) : Nat := lin s % 2 ^ 32

/-- T96 in units of 2⁻¹⁶ ns, its visible resolution (R35, R39). -/
def time16 (s : State) : Nat := s.time / 2 ^ 32

/-- The four-word T96 of a time in 2⁻¹⁶ ns: FRAC, NS, SEC low, SEC high (R35, R36). -/
def t96Words (t : Nat) : List Nat :=
  [t % 2 ^ 16, t / 2 ^ 16 % 10 ^ 9, t / 2 ^ 16 / 10 ^ 9 % 2 ^ 32, t / 2 ^ 16 / 10 ^ 9 / 2 ^ 32 % 2 ^ 16]

/-- The time in 2⁻¹⁶ ns that a four-word T96 spells. -/
def t96Of (ws : List Nat) : Nat :=
  nth ws 0 0 % 2 ^ 16 + 2 ^ 16 * (nth ws 1 0 + 10 ^ 9 * (nth ws 2 0 + 2 ^ 32 * (nth ws 3 0 % 2 ^ 16)))

/-- The slice length in ns (R45). -/
def sliceLen (s : State) : Nat := if fbit s DEV_RUN DEV_RUN_HALF then 500000 else 1000000

/-- The signed 32-bit difference of two low linear counts (R47). -/
def linDiff (a b : Nat) : Int := signed 32 ((a + 2 ^ 32 - b % 2 ^ 32) % 2 ^ 32)

/-! ## Run state -/

/-- DEV_RUN.STATE (R296). -/
def runState (s : State) : Nat := fget s DEV_RUN DEV_RUN_STATE
def stIdle : Nat := 0
def stArmed : Nat := 1
def stRunning : Nat := 2
def stStopping : Nat := 3
def stOutOfService : Nat := 4

/-- Whether the run state counts as RUNNING: ARMED and STOPPING do (R297). -/
def running (s : State) : Bool := runState s == stArmed || runState s == stRunning || runState s == stStopping

/-! ## Notes of the open slices -/

/-- Change the oldest open slice. -/
def updOpen (f : SliceRec → SliceRec) : List SliceRec → List SliceRec
  | [] => []
  | r :: rs => if r.closed then r :: updOpen f rs else f r :: rs

/-- Change a channel's notes in a slice. -/
def chanUpd (n : Nat) (f : ChanSlice → ChanSlice) (r : SliceRec) : SliceRec :=
  { r with chans := setNth r.chans n (f (nth r.chans n ChanSlice.fresh)) }

/-- Note losses of a channel in the oldest open slice (R111). -/
def noteLoss (n packets : Nat) (s : State) : State :=
  { s with slices := updOpen (chanUpd n (fun c => { c with
      loss := true, lossPkts := clampNat 255 (c.lossPkts + packets) })) s.slices }

/-! ## Units and partitions (R14, R366) -/

def partIngress : Nat := 0
def partFusion : Nat := 1
def partSolver : Nat := 2
def partPublish : Nat := 11

/-- The flat index of a unit ID, if the unit exists (R366). -/
def unitFlat (id : Nat) : Option Nat :=
  let i := id % 256
  match id / 256 with
  | 0 => if i < 32 then some i else none
  | 1 => if i < 12 then some (32 + i) else none
  | 2 => if i < 32 then some (48 + i) else none
  | 3 => if i < 128 then some (80 + i) else none
  | 4 => if i < 64 then some (208 + i) else none
  | _ => none

/-- The unit ID of a flat index. -/
def flatUnit (f : Nat) : Nat :=
  if f < 32 then f else if f < 44 then 0x100 + (f - 32) else if f < 80 then 0x200 + (f - 48)
  else if f < 208 then 0x300 + (f - 80) else 0x400 + (f - 208)

/-- The partition of a flat index (R14, R366). -/
def flatPart (f : Nat) : Nat :=
  if f < 32 then 0 else if f < 40 then 1 else if f < 43 then 2 else if f < 48 then 11
  else if f < 80 then 3 + (f - 48) / 8 else if f < 208 then 7 + (f - 80) / 32 else 7 + (f - 208) / 16

/-- The flat indices of a partition. -/
def partFlats (p : Nat) : List Nat :=
  if p = 0 then List.range 32
  else if p = 1 then (List.range 8).map (· + 32)
  else if p = 2 then [40, 41, 42]
  else if p ≤ 6 then (List.range 8).map (· + (48 + (p - 3) * 8))
  else if p ≤ 10 then (List.range 32).map (· + (80 + (p - 7) * 32)) ++ (List.range 16).map (· + (208 + (p - 7) * 16))
  else if p = 11 then [43] else []

/-- Flat indices of the FUSION, SOLVER and PUBLISH units. -/
def flatAligner : Nat := 32
def flatEgo : Nat := 33
def flatDeskew : Nat := 34
def flatVhe : Nat := 35
def flatCamera : Nat := 36
def flatProjection : Nat := 37
def flatAttention : Nat := 38
def flatWalker : Nat := 39
def flatAssembly : Nat := 40
def flatFactor : Nat := 41
def flatDivide : Nat := 42
def flatPublisher : Nat := 43

/-- Whether a unit is fenced (R369). -/
def unitFenced (f : Nat) (s : State) : Bool := fbit s (RST_UNIT f) RST_UNIT_FENCED

/-- Whether a partition is fenced whole. -/
def partFenced (p : Nat) (s : State) : Bool := bitOf p (fget s RST_FENCE RST_FENCE_PARTITIONS)

/-- Whether a unit is held in reset (R469). -/
def unitHeld (f : Nat) (s : State) : Bool := s.heldUnits.contains f

/-! ## Outputs, interrupts, the event log and fault messages -/

/-- Send something out of the module. -/
def emit (e : OutEvent) (s : State) : State := { s with out := e :: s.out }

/-- Raise an MSI-X vector (R295): a masked vector sets its pending bit, an unmasked one sends its message. -/
def raiseIrq (v : Nat) (s : State) : State :=
  if fbit s (MSIX_CTRL v) MSIX_CTRL_MASK then fset s MSIX_PBA ⟨v, v⟩ 1 else emit (.msix v) s

/-- The LPDDR5X address of the event log ring (R409). -/
def logBase : Nat := 0x03F00000

/-- Write one event log entry (R409): its eight words go to the ring slot of its sequence number. -/
def logEvent (code block arg0 arg1 : Nat) (s : State) : State :=
  let q := fget s CUP_LOG_NEXT fWord
  let s1 := ddrPutWords s (logBase + q % 32768 * 32)
    ([q] ++ t96Words (time16 s) ++ [code % 2 ^ 16 + Config.logSeverity code % 4 * 2 ^ 16 + block % 256 * 2 ^ 24, arg0, arg1])
  let s2 := if q < 32768 then s1 else bump s1 CUP_LOG_OVERWRITES
  fset s2 CUP_LOG_NEXT fWord (q + 1)

/-- The order of an agent in R26, by which Config.agentCode is applied. -/
def agentIx : Agent → Nat
  | .jtag => 0 | .cupola => 1 | .host => 2

/-- Set a bit of DEV_ACCESS_ERR, with its log entry and vector 7 (R4, R5, R295, R409). R5 lets an unmapped access change
no state other than UNMAPPED, and R409 has a log entry for every bit of DEV_ACCESS_ERR: the entry is taken as the event
that UNMAPPED is, and made for it too (DESIGN CHOICE, log entry 77). -/
def accessErr (bit addr : Nat) (ag : Agent) (s : State) : State :=
  raiseIrq 7 (logEvent (0x0100 + bit) 0 addr (Config.agentCode (agentIx ag)) (fset s DEV_ACCESS_ERR ⟨bit, bit⟩ 1))

def errBadSize : Nat := 0
def errUnmapped : Nat := 1
def errProtected : Nat := 2

/-- Send a message to the Spire over the bridge. -/
def sendUp (m : UpMsg) (s : State) : State := { s with bridgeUp := s.bridgeUp ++ [m] }

/-- The first element that satisfies p, and the list without it. -/
def takeOne {α : Type} (p : α → Bool) : List α → Option (α × List α)
  | [] => none
  | a :: r => if p a then some (a, r) else (takeOne p r).map (fun e => (e.1, a :: e.2))

/-- Take the oldest message of a kind that the main die has sent. -/
def takeUp (p : UpMsg → Bool) (s : State) : Option UpMsg × State :=
  match takeOne p s.bridgeUp with
  | some (m, r) => (some m, { s with bridgeUp := r })
  | none => (none, s)

/-- Take the oldest message of a kind that the Spire has sent. -/
def takeDown (p : DownMsg → Bool) (s : State) : Option DownMsg × State :=
  match takeOne p s.bridgeDown with
  | some (m, r) => (some m, { s with bridgeDown := r })
  | none => (none, s)

/-- Report a fault bit and its unit to the Spire (R335, R336). -/
def reportFault (bit unit : Nat) (s : State) : State := sendUp (.fault bit unit) s

/-- Set a ledger's ERR bit: vector 7 is raised and the fault is reported (R295, R336). -/
def ledgerErr (addr : Nat) (f : Bits) (bit unit : Nat) (s : State) : State :=
  reportFault bit unit (raiseIrq 7 (fon s addr f))

end Sys2Proof.Machine
end

