-- ==== Sys2Proof/Machine/Belfry.lean ====
section
/-! DEFINITION. The Belfry: T96 and its slew, compares, trigger generators and capture pins (R35 to R57). -/
namespace Sys2Proof.Machine

/-! ## T96 and the slew -/

/-- T96 runs modulo 2⁴⁸ s (R36). -/
def timeModulus : Nat := 2 ^ 48 * 10 ^ 9 * unitsPerNs

/-- The slew absorbed in one Belfry cycle, SLEW_PPM × 10⁻⁶ ns in units of 2⁻⁴⁸ ns (R39). -/
def slewStep (s : State) : Nat :=
  let p := fget s BLF_CTRL BLF_CTRL_SLEW_PPM
  p * unitsPerNs / 10 ^ 6 + b2n (Config.slewRoundsUp p)

/-- One cycle's advance without slew: 1 ns × (1 + BLF_RATE × 2⁻⁴⁸) (R39). -/
def cycleBase (s : State) : Int := (unitsPerNs : Int) + signed 64 (rd64 s BLF_RATE_LO)

/-- Note that HOLDOVER or OFFSET_LARGE is set now, for R71. -/
def noteHold (s : State) : State :=
  { s with holdSeen := s.holdSeen || fbit s BLF_STATUS BLF_STATUS_HOLDOVER || fbit s BLF_STATUS BLF_STATUS_OFFSET_LARGE }

/-- The slew status bits follow the pending slew (R43, R72). -/
def slewStatus (s : State) : State :=
  let limit := fget s BLF_STEP_LIMIT fWord
  noteHold (fput (fput s BLF_STATUS BLF_STATUS_OFFSET_LARGE (decide (s.slew.natAbs > limit * unitsPerNs)))
    BLF_STATUS BLF_STATUS_SLEWING (decide (s.slew ≠ 0)))

/-- How many cycles the pending slew still needs. -/
def slewCycles (s : State) : Nat :=
  if s.slew = 0 then 0 else if slewStep s = 0 then 0 else (s.slew.natAbs + slewStep s - 1) / slewStep s

/-- The slew absorbed in n cycles: the pending slew's sign, at most what is pending, so that the last slewing cycle takes
the remainder and the slew ends at 0: R39 gives σ alone (DESIGN CHOICE, log entry 7). -/
def slewTaken (n : Nat) (s : State) : Int :=
  let m := if n * slewStep s < s.slew.natAbs then n * slewStep s else s.slew.natAbs
  if s.slew < 0 then -(m : Int) else m

/-- n Belfry cycles pass: T96 advances and the slew is absorbed (R39). -/
def elapse (n : Nat) (s : State) : State :=
  let adv := (n : Int) * cycleBase s + slewTaken n s
  slewStatus { s with time := ((s.time : Int) + adv).toNat % timeModulus, slew := s.slew - slewTaken n s }

/-- How many units of a size cover a length. -/
def unitsFor (need unit : Int) : Nat := if unit ≤ 0 then 0 else ((need + unit - 1) / unit).toNat

/-- How many cycles bring T96 to a target in 2⁻⁴⁸ ns: the least number whose advance reaches it. All but the last of
the slewing cycles absorb a whole slew step. -/
def cyclesTo (target : Nat) (s : State) : Nat :=
  if target ≤ s.time then 0
  else
    let need : Int := (target : Int) - s.time
    let k := slewCycles s
    let n := unitsFor need (cycleBase s + slewTaken 1 s)
    if n + 1 ≤ k then n else max k (unitsFor (need - slewTaken k s) (cycleBase s))

/-- Let the Belfry run to a time in 2⁻⁴⁸ ns; nothing happens if it has passed. -/
def runTo (target : Nat) (s : State) : State :=
  if target ≤ s.time then s else elapse (cyclesTo target s) s

/-- Let the Belfry run until its own count of nanoseconds, which steps do not move, is t. -/
def runToUp (t : Nat) (s : State) : State := runTo (((t * unitsPerNs : Nat) : Int) + s.stepped).toNat s

/-- The full linear count of the next instant whose low 32 bits are v, or the present time when v is not in the
future (R47). -/
def dueLin (v : Nat) (s : State) : Nat :=
  let d := linDiff (lin32 s) v
  if d ≥ 0 then lin s else lin s + d.natAbs

/-! ## Compares -/

/-- Whether compare n has reached its target (R47). -/
def cmpReached (n : Nat) (s : State) : Bool := decide (linDiff (lin32 s) (fget s (BLF_CMP_VAL n) fWord) ≥ 0)

/-- The T96 at which compare n became armed with its target reached, if it did (R48). -/
def cmpLateAt (n : Nat) (s : State) : Option Nat := nth s.cmpLate n none

/-- A compare becomes armed: one already reached is to fire in the next Belfry cycle, with LATE (R48). -/
def cmpBecomesArmed (n : Nat) (s : State) : State :=
  { s with cmpLate := setNth s.cmpLate n (if cmpReached n s then some s.time else none) }

/-- An armed compare fires (R47, R48): FIRED, LATE when it was armed late, its interrupt, and reload or disarm. -/
def cmpFires (n : Nat) (s : State) : State :=
  let s0 := fon s (BLF_CMP_STATUS n) BLF_CMP_STATUS_FIRED
  let s1 := if (cmpLateAt n s).isSome then fon s0 (BLF_CMP_STATUS n) BLF_CMP_STATUS_LATE else s0
  let s2 := if 8 ≤ n ∧ fbit s1 (BLF_CMP_CTRL n) BLF_CMP_CTRL_IRQ_EN then raiseIrq n s1 else s1
  let r := fget s2 (BLF_CMP_RELOAD n) fWord
  if r = 0 then
    let s3 := fset s2 (BLF_CMP_CTRL n) BLF_CMP_CTRL_ARM 0
    { s3 with cmpLate := setNth s3.cmpLate n none }
  else cmpBecomesArmed n (fset s2 (BLF_CMP_VAL n) fWord (fget s2 (BLF_CMP_VAL n) fWord + r))

/-- Let the Belfry run to the cycle in which compare n fires, and fire it, if it is armed (R47): the cycle after the one
in which it became armed late (R48), else the first at its target. -/
def cmpRunAndFire (n : Nat) (s : State) : State :=
  if fbit s (BLF_CMP_CTRL n) BLF_CMP_CTRL_ARM then
    match cmpLateAt n s with
    | some t => cmpFires n (if s.time = t then elapse 1 s else s)
    | none => cmpFires n (runTo (dueLin (fget s (BLF_CMP_VAL n) fWord) s * unitsPerNs) s)
  else s

/-- A firing that is due when a write of compare n's registers comes: it is made first, on the old values (R28, R48). -/
def cmpSettle (n : Nat) (s : State) : State :=
  if cmpReached n s || (cmpLateAt n s).isSome then cmpRunAndFire n s else s

/-- Arm a compare at a low linear count, for the device's own use (R47, R48). -/
def cmpArmAt (n v : Nat) (s : State) : State :=
  cmpBecomesArmed n (fset (fset s (BLF_CMP_VAL n) fWord v) (BLF_CMP_CTRL n) BLF_CMP_CTRL_ARM 1)

/-! ## Trigger generators -/

/-- Generator n. -/
def trigGet (n : Nat) (s : State) : TrigGen := nth s.trig n TrigGen.reset
/-- Replace generator n. -/
def trigSet (n : Nat) (g : TrigGen) (s : State) : State := { s with trig := setNth s.trig n g }

/-- PERIOD and PERIOD_FRAC in 2⁻¹⁶ ns. -/
def trigPeriod (n : Nat) (s : State) : Nat :=
  fget s (BLF_TRIG_PERIOD n) fWord * 2 ^ 16 + fget s (BLF_TRIG_PERIOD_FRAC n) BLF_TRIG_PERIOD_FRAC_PERIOD_FRAC

/-- START as an absolute time in 2⁻¹⁶ ns, the one nearest the present (R47, R51). -/
def trigStart (n : Nat) (s : State) : Int :=
  ((lin s : Int) - linDiff (lin32 s) (fget s (BLF_TRIG_START n) fWord)) * 2 ^ 16
    + fget s (BLF_TRIG_START_FRAC n) BLF_TRIG_START_FRAC_START_FRAC

/-- The first schedule point base + m × period after a time (R49, R51). -/
def firstAfter (base : Int) (period : Nat) (now : Int) : Int :=
  if now < base then base
  else if period = 0 then base
  else base + (((now - base) / period) + 1) * period

/-- Whether START is not in the future: the signed difference of R47 is zero or positive (R51). -/
def trigLate (n : Nat) (s : State) : Bool := decide (linDiff (lin32 s) (fget s (BLF_TRIG_START n) fWord) ≥ 0)

/-- While MODE is 0 and no pulse is in progress, the pin is held at the inactive level of POL (R49, R50). The manual says
of POL that it sets the active level, and not from when on a stopped generator (DESIGN CHOICE, log entry 78). -/
def trigRest (n : Nat) (s : State) : State :=
  if fget s (BLF_TRIG_MODE n) BLF_TRIG_MODE_MODE = 0 ∧ !(trigGet n s).active then
    trigSet n { trigGet n s with activeLow := fbit s (BLF_TRIG_MODE n) BLF_TRIG_MODE_POL } s
  else s

/-- Enable generator n in a mode just stored (R49, R51). -/
def trigEnable (n mode : Nat) (s : State) : State :=
  let g := trigGet n s
  if mode = 2 then trigSet n { g with next := none, skipBoundaries := 0 } s
  else
    let b := trigStart n s
    let s1 := if trigLate n s then fon s (BLF_TRIG_STATUS n) BLF_TRIG_STATUS_LATE_START else s
    if mode = 1 then
      let nx := if trigLate n s then firstAfter b (trigPeriod n s) (time16 s) else b
      trigSet n { g with base := b, next := some nx } s1
    else if trigLate n s then trigSet n { g with next := none } (fset s1 (BLF_TRIG_MODE n) BLF_TRIG_MODE_MODE 0)
    else trigSet n { g with base := b, next := some b } s1

/-- Whether R53 discards the write that sets MODE from 0. -/
def trigRefused (n mode div : Nat) (s : State) : Bool :=
  let w := fget s (BLF_TRIG_WIDTH n) BLF_TRIG_WIDTH_WIDTH
  let p := fget s (BLF_TRIG_PERIOD n) fWord
  decide (w < 8) || (mode == 1 && decide (p < 1000 ∨ p ≤ w)) || (mode == 2 && div == 0)

/-- BLF_STATUS.CFG_REJECT is set. -/
def blfReject (s : State) : State := fon s BLF_STATUS BLF_STATUS_CFG_REJECT

/-- A write of the word at +0x00 of generator n (R51, R52, R53). -/
def trigModeWord (n : Nat) (v : Word) (s : State) : State :=
  let a := BLF_TRIG_MODE n
  let m0 := fget s a BLF_TRIG_MODE_MODE
  let m1 := getBits BLF_TRIG_MODE_MODE v
  let pol := getBits BLF_TRIG_MODE_POL v
  let div := getBits BLF_TRIG_MODE_DIV v
  if m0 ≠ 0 then
    if m1 ≠ 0 ∧ m1 ≠ m0 then blfReject s
    else
      let s1 := if div ≠ fget s a BLF_TRIG_MODE_DIV then blfReject s else s
      let s2 := fset s1 a BLF_TRIG_MODE_POL pol
      if m1 = 0 then trigRest n (trigSet n { trigGet n s2 with next := none } (fset s2 a BLF_TRIG_MODE_MODE 0)) else s2
  else
    let s1 := trigRest n (fset (fset s a BLF_TRIG_MODE_POL pol) a BLF_TRIG_MODE_DIV div)
    if m1 = 0 then s1
    else if trigRefused n m1 div s then blfReject s
    else trigEnable n m1 (fset s1 a BLF_TRIG_MODE_MODE m1)

/-- A time in 2⁻¹⁶ ns rounded to the nearest 62.5 ps, ties later, in units of 62.5 ps (R50). -/
def to625 (t : Nat) : Nat := (t + 2048) / 4096

/-- Generator n reaches its next leading edge (R49, R50). -/
def trigEdge (n : Nat) (s : State) : State :=
  match (trigGet n s).next with
  | none => s
  | some e =>
    let s1 := runTo (e.toNat * 2 ^ 32) s
    let g := trigGet n s1
    let a := BLF_TRIG_MODE n
    let low := fbit s1 a BLF_TRIG_MODE_POL
    let st := BLF_TRIG_STATUS n
    let s2 := emit (.trigEdge n (to625 e.toNat) low)
      (fset s1 st BLF_TRIG_STATUS_EDGES (fget s1 st BLF_TRIG_STATUS_EDGES + 1))
    let g1 := { g with
      active := true, activeLow := low,
      pulseEnd := e.toNat + fget s1 (BLF_TRIG_WIDTH n) BLF_TRIG_WIDTH_WIDTH * 2 ^ 16 }
    let m := fget s1 a BLF_TRIG_MODE_MODE
    if m = 1 then trigSet n { g1 with next := some (e + (trigPeriod n s1 : Nat)) } s2
    else if m = 3 then trigSet n { g1 with next := none } (fset s2 a BLF_TRIG_MODE_MODE 0)
    else trigSet n { g1 with next := none } s2

/-- A pulse in progress ends after WIDTH ns (R50). -/
def trigPulseEnd (n : Nat) (s : State) : State :=
  if (trigGet n s).active then
    let s1 := runTo ((trigGet n s).pulseEnd.toNat * 2 ^ 32) s
    emit (.trigEnd n) (trigRest n (trigSet n { trigGet n s1 with active := false } s1))
  else s

/-- The SLICE generators take a boundary at a linear count (R49): the first boundary after enabling and every
DIV-th after it schedule an edge PHASE modulo the slice length later. -/
def trigBoundary (b : Nat) (n : Nat) (s : State) : State :=
  if fget s (BLF_TRIG_MODE n) BLF_TRIG_MODE_MODE = 2 then
    let g := trigGet n s
    if g.skipBoundaries = 0 then
      trigSet n { g with
        next := some (((b + fget s (BLF_TRIG_PHASE n) BLF_TRIG_PHASE_PHASE % sliceLen s) * 2 ^ 16 : Nat) : Int),
        skipBoundaries := fget s (BLF_TRIG_MODE n) BLF_TRIG_MODE_DIV - 1 } s
    else trigSet n { g with skipBoundaries := g.skipBoundaries - 1 } s
  else s

/-- The first boundary after a linear count (R45). -/
def nextBoundary (l len : Nat) : Nat := (l / len + 1) * len

/-- The delay of a SLICE generator's edges after their boundaries, in 2⁻¹⁶ ns (R49). -/
def trigPhase (n : Nat) (s : State) : Int :=
  ((fget s (BLF_TRIG_PHASE n) BLF_TRIG_PHASE_PHASE % sliceLen s * 2 ^ 16 : Nat) : Int)

/-- A SLICE generator after a step from a linear count (R54): edges that the step passed over set SKIPPED. An edge that
waits stays only while its boundary is the last one, since the boundaries after the step schedule their own; the count of
boundaries goes on (DESIGN CHOICE, log entry 78). -/
def trigSliceStepped (old n : Nat) (s : State) : State :=
  let g := trigGet n s
  let now : Int := time16 s
  let skipped (b : Bool) (s : State) : State := if b then fon s (BLF_TRIG_STATUS n) BLF_TRIG_STATUS_SKIPPED else s
  match g.next with
  | none =>
    let e : Int := ((nextBoundary old (sliceLen s) + g.skipBoundaries * sliceLen s) * 2 ^ 16 : Nat) + trigPhase n s
    skipped (decide (e ≤ now)) s
  | some e =>
    if e - trigPhase n s ≤ now ∧ now < e then s else skipped (decide (e ≤ now)) (trigSet n { g with next := none } s)

/-- Generator n after a step of T96 from a linear count (R54). Whether START or an edge lies in the past is judged by the
whole times, which the 32-bit difference of R47 gives for steps below 2³¹ ns (DESIGN CHOICE, log entry 78). A pulse in
progress keeps its width. -/
def trigStepped (old : Nat) (n : Nat) (s : State) : State :=
  let m := fget s (BLF_TRIG_MODE n) BLF_TRIG_MODE_MODE
  let g := trigGet n s
  let now : Int := time16 s
  if m = 2 then trigSliceStepped old n s
  else match g.next with
  | none => s
  | some e =>
    if m = 1 then
      let s1 := if e ≤ now then fon s (BLF_TRIG_STATUS n) BLF_TRIG_STATUS_SKIPPED else s
      trigSet n { g with next := some (firstAfter g.base (trigPeriod n s) now) } s1
    else if e ≤ now then
      trigRest n (fset (fon (trigSet n { g with next := none } (fon s (BLF_TRIG_STATUS n) BLF_TRIG_STATUS_SKIPPED))
        (BLF_TRIG_STATUS n) BLF_TRIG_STATUS_LATE_START) (BLF_TRIG_MODE n) BLF_TRIG_MODE_MODE 0)
    else s

/-- Apply an operation to every n below a bound, in ascending order. -/
def forUpTo (n : Nat) (f : Nat → State → State) (s : State) : State := (List.range n).foldl (fun s i => f i s) s

/-! ## Steps of T96 -/

/-- The first close after a linear count: boundaries plus CLOSE µs (R45, R106). -/
def nextClose (l len close : Nat) : Nat := (if l < close then 0 else ((l - close) / len + 1) * len) + close

/-- CMP0 is aimed at the first boundary and CMP2 at the first close after the present time (R45). -/
def reaim (s : State) : State :=
  let len := sliceLen s
  let close := fget s SLC_CLOSE SLC_CLOSE_CLOSE * 1000
  fset (fset s (BLF_CMP_VAL 0) fWord (nextBoundary (lin s) len)) (BLF_CMP_VAL 2) fWord (nextClose (lin s) len close)

/-- A compare other than CMP0 and CMP2 after a step: one whose target the step passed over becomes armed late (R48). -/
def cmpStepped (wasReached : Nat → Bool) (n : Nat) (s : State) : State :=
  if n = 0 ∨ n = 2 then s
  else if fbit s (BLF_CMP_CTRL n) BLF_CMP_CTRL_ARM ∧ !wasReached n then cmpBecomesArmed n s else s

/-- What is measured from a time that T96 showed moves with a step: the ends of pulses in progress and the 8 ns after a
stamped edge (R50, R56). -/
def shiftTimes (d : Int) (s : State) : State :=
  { s with
    trig := s.trig.map (fun g => { g with pulseEnd := g.pulseEnd + d })
    cap := s.cap.map (fun p => { p with last := p.last.map (· + d) }) }

/-- A step of T96 to a new time in 2⁻⁴⁸ ns (R45, R48, R54). -/
def timeStep (t : Nat) (s : State) : State :=
  let t1 := t % timeModulus
  let s1 := shiftTimes (((t1 / 2 ^ 32 : Nat) : Int) - time16 s)
    { s with time := t1, stepped := s.stepped + ((t1 : Int) - s.time) }
  forUpTo 16 (trigStepped (lin s)) (forUpTo 16 (cmpStepped (fun n => cmpReached n s)) (reaim s1))

/-- A signed phase adjustment in 2⁻¹⁶ ns: a step while not RUNNING, else added to the pending slew (R42, R43). -/
def phaseAdjust (adj : Int) (s : State) : State :=
  if running s then slewStatus { s with slew := s.slew + adj * 2 ^ 32 }
  else timeStep (((s.time : Int) + adj * 2 ^ 32) % timeModulus).toNat s

/-- The largest rate magnitude, ±500 ppm (R40). -/
def rateLimit : Int := 140737488355

/-- Store a rate offset, clamped with RATE_CLAMP (R40). -/
def storeRate (r : Int) (s : State) : State :=
  let c := clampInt (-rateLimit) rateLimit r
  let s1 := wr64 s BLF_RATE_LO (unsigned 64 c)
  if c = r then s1 else fon s1 BLF_STATUS BLF_STATUS_RATE_CLAMP

/-- PTP_MODE (R58). -/
def ptpMode (s : State) : Nat := fget s BLF_CTRL BLF_CTRL_PTP_MODE
def ptpOff : Nat := 0
def ptpInternal : Nat := 1
def ptpHost : Nat := 2

/-- Whether the Belfry has the grandmaster role, and whether that is disciplined by a PPS pin (R70, R72). -/
def grandmasterRole (s : State) : Bool := fget s BLF_CTRL BLF_CTRL_ROLE == 2
def ppsOn (s : State) : Bool := grandmasterRole s && fbit s BLF_CTRL BLF_CTRL_PPS_EN && ptpMode s != ptpOff

/-- Whether the Belfry is grandmaster without PPS, which never is in holdover (R70). -/
def freeMaster (s : State) : Bool := grandmasterRole s && !fbit s BLF_CTRL BLF_CTRL_PPS_EN

/-- HOLDOVER in HOST mode (R69, R70): HOST_HOLDOVER, or 2 s without a host write. Where the Belfry is grandmaster R70
governs instead of R69's "equals": without PPS_EN it is never set, and with PPS_EN PPS_LOST sets it as well (DEDUCED, log
entry 79). -/
def hostHoldover (s : State) : Bool :=
  !freeMaster s && (fbit s BLF_CTRL BLF_CTRL_HOST_HOLDOVER || s.ptp.hostTimeout
    || (ppsOn s && fbit s BLF_STATUS BLF_STATUS_PPS_LOST))

/-- HOLDOVER follows what sets it, where it is no latch: it is clear in OFF and for a grandmaster without PPS, and as
above in HOST mode (R69, R70). -/
def holdFollow (s : State) : State :=
  if ptpMode s = ptpOff ∨ freeMaster s then fput s BLF_STATUS BLF_STATUS_HOLDOVER false
  else if ptpMode s = ptpHost then noteHold (fput s BLF_STATUS BLF_STATUS_HOLDOVER (hostHoldover s))
  else s

/-- A host write to BLF_RATE or BLF_ADJ restarts the 2 s of R69. -/
def hostTimeWrite (s : State) : State :=
  holdFollow { s with ptp := { s.ptp with lastHostWrite := upNs s, hostTimeout := false } }

/-- A commit of BLF_RATE from a bus write (R40, R44). In INTERNAL mode it is discarded; it sets CFG_REJECT when it would
change the stored rate (R468). -/
def rateCommit (v : Nat) (s : State) : State :=
  if ptpMode s = ptpInternal then (if v = rd64 s BLF_RATE_LO then s else blfReject s)
  else hostTimeWrite (storeRate (signed 64 v) s)

/-- A commit of BLF_ADJ from a bus write (R42, R44). -/
def adjCommit (v : Nat) (s : State) : State :=
  if ptpMode s = ptpInternal then blfReject s else hostTimeWrite (phaseAdjust (signed 64 v) s)

/-- Capture T96 into the XTS words (R72). -/
def xtsCapture (s : State) : State :=
  let w := t96Words (time16 s)
  fset (fset (fset (fset s BLF_XTS_FRAC fWord (nth w 0 0)) BLF_XTS_NS fWord (nth w 1 0))
    BLF_XTS_SEC_LO fWord (nth w 2 0)) BLF_XTS_SEC_HI fWord (nth w 3 0)

/-! ## Capture pins -/

/-- Pin n. -/
def capGet (n : Nat) (s : State) : CapPin := nth s.cap n ⟨[], none⟩
/-- Replace pin n. -/
def capSet (n : Nat) (p : CapPin) (s : State) : State := { s with cap := setNth s.cap n p }

/-- The time in ns below which FILTER rejects a pulse (R56). -/
def capFilter (f : Nat) : Nat := nth [0, 4, 16, 64] f 0

/-- A stamp enters pin n's FIFO, or is lost when 16 entries wait (R56). -/
def capPush (n : Nat) (e : CapEntry) (s : State) : State :=
  let p := capGet n s
  if p.fifo.length < 16 then
    fset (capSet n { p with fifo := p.fifo ++ [e] } s) (BLF_CAP_STATUS n) BLF_CAP_STATUS_LEVEL (p.fifo.length + 1)
  else bumpBy (fon s (BLF_CAP_STATUS n) BLF_CAP_STATUS_OVF) (BLF_CAP_STATUS n) BLF_CAP_STATUS_LOST 1

/-- Whether EDGE qualifies an edge of this direction (R72). -/
def capQualifies (n : Nat) (falling : Bool) (s : State) : Bool :=
  let e := fget s (BLF_CAP_CFG n) BLF_CAP_CFG_EDGE
  e == 3 || (e == 1 && !falling) || (e == 2 && falling)

/-- What an edge of a pulse of a width gives on pin n: nothing, MISSED, or a stamp (R56). -/
inductive CapOutcome where
  | ignored | missed
  | stamped (t : Nat)
  deriving DecidableEq, Repr

/-- Judge an edge at a time in 2⁻¹⁶ ns (R56). -/
def capJudge (n : Nat) (falling : Bool) (t width : Nat) (s : State) : CapOutcome :=
  if !capQualifies n falling s || decide (width < capFilter (fget s (BLF_CAP_CFG n) BLF_CAP_CFG_FILTER)) then .ignored
  else match (capGet n s).last with
    | some l => if (t : Int) < l + 8 * 2 ^ 16 then .missed else .stamped t
    | none => .stamped t

/-- The words a pop of pin n latches. -/
def capShadow (n : Nat) (ws : List Nat) : List (Nat × Nat) :=
  [(BLF_CAP_NS n, nth ws 1 0), (BLF_CAP_SEC_LO n, nth ws 2 0), (BLF_CAP_SEC_HI n, nth ws 3 0)]

/-- Take the oldest entry of pin n: the pop word and the three words it latches (R37, R56). -/
def capPop (n : Nat) (s : State) : State × Word :=
  let p := capGet n s
  match p.fifo with
  | [] => (latchWords (capShadow n []) s, 0)
  | e :: r =>
    let w := t96Words e.t
    (latchWords (capShadow n w)
      (fset (capSet n { p with fifo := r } s) (BLF_CAP_STATUS n) BLF_CAP_STATUS_LEVEL r.length),
     BitVec.ofNat 32 (nth w 0 0 + b2n e.falling * 2 ^ 16 + 2 ^ 31))

/-! ## The commands of the time base -/

/-- The pending slew falls to the step limit, or to zero when it is within it (R39, R43). -/
def slewAbsorbed (s : State) : State :=
  let limit := fget s BLF_STEP_LIMIT fWord * unitsPerNs
  let toGo := if s.slew.natAbs > limit then s.slew.natAbs - limit else s.slew.natAbs
  if s.slew = 0 ∨ slewStep s = 0 then slewStatus s
  else elapse ((toGo + slewStep s - 1) / slewStep s) s

end Sys2Proof.Machine
end

