-- ==== Sys2Proof/Machine/Buttress.lean ====
section
/-! DEFINITION. Buttress's bookkeeping: physical slots, flagged units, and the error counts that flag them (R380, R413
to R417). -/
namespace Sys2Proof.Machine

/-- The physical slots of logical units; a retired unit without a spare has none. -/
def mxaSlot (n : Nat) (s : State) : Nat := fget s (CUP_MAP_MXA n) CUP_MAP_MXA_PHYSICAL
def vecSlot (n : Nat) (s : State) : Nat := fget s (CUP_MAP_VEC n) CUP_MAP_VEC_PHYSICAL
def domeSlot (n : Nat) (s : State) : Nat := fget s (CUP_MAP_DOME n) CUP_MAP_DOME_PHYSICAL

/-- Blocks of the event log (R409, R12). -/
def blkRst : Nat := 13
def blkCup : Nat := 14
def blkTol : Nat := 15
def blkLnt : Nat := 16

/-- Change Buttress's state. -/
def updBt (f : ButtressState → ButtressState) (s : State) : State := { s with bt := f s.bt }

/-- The name of a target in a log entry or command: a unit ID, or 0x8000 + a Dome bank. -/
def targetId (t : Nat) : Nat := if 0x8000 ≤ t then t else flatUnit t

/-- The physical slot of a target, 0 for a unit without slots. -/
def targetSlot (t : Nat) (s : State) : Nat :=
  if 0x8000 ≤ t then domeSlot (t - 0x8000) s
  else if 48 ≤ t ∧ t < 80 then mxaSlot (t - 48) s
  else if 80 ≤ t ∧ t < 208 then vecSlot (t - 80) s else 0

/-- CUP_SPARE shows Buttress's queue and whether a swap or test is in progress. -/
def showBt (s : State) : State :=
  fput (fset s CUP_SPARE CUP_SPARE_QUEUED s.bt.queue.length) CUP_SPARE CUP_SPARE_BUSY
    (s.bt.testing.isSome || s.bt.copy.isSome || !s.bt.swaps.isEmpty)

/-- A Buttress event in the log (R409). -/
def btEvent (code t : Nat) (s : State) : State := logEvent code blkCup (targetId t) (targetSlot t s) s

/-- A target is flagged for test, unless it is in test or the queue holds 16 (R415). A target that already waits keeps its
place with the more pressing of its causes, since one flagged for golden failure or by SPARE_TEST is tested at once. -/
def flagTarget (t cause : Nat) (s : State) : State :=
  if s.bt.queue.any (fun e => e.1 == t) then
    updBt (fun b => { b with queue := b.queue.map (fun e => if e.1 = t then (t, max e.2 cause) else e) }) s
  else if s.bt.testing = some t ∨ 16 ≤ s.bt.queue.length then s
  else btEvent 0x0401 t (showBt (updBt (fun b => { b with queue := b.queue ++ [(t, cause)] }) s))

def ns1s : Nat := 1000000000

/-- The entries of a history that are younger than a span, with a new one. -/
def addRecent (key n span now : Nat) (l : List (Nat × Nat × Nat)) : List (Nat × Nat × Nat) :=
  l.filter (fun e => decide (now < e.2.1 + span)) ++ [(key, now, n)]

/-- The sum of a key's entries. -/
def sumOf (key : Nat) (l : List (Nat × Nat × Nat)) : Nat := ((l.filter (fun e => e.1 == key)).map (fun e => e.2.2)).sum

/-- Corrected errors of a target: more than 64 within one hour flag it (R415). -/
def noteErrors (t n : Nat) (s : State) : State :=
  if n = 0 then s
  else
    let s1 := updBt (fun b => { b with errors := addRecent t n (3600 * ns1s) (upNs s) b.errors }) s
    if 64 < sumOf t s1.bt.errors then flagTarget t 1 s1 else s1

/-- A corrected error in a row of a target's store: the fourth within 24 hours records the row for repair; a third repair
of its macro flags the target (R417). -/
def noteRow (t a : Nat) (s : State) : State :=
  let row := Config.sramRow t a
  if s.bt.rows.contains row then s
  else
    let s1 := updBt (fun b => { b with rowErrors := addRecent row 1 (86400 * ns1s) (upNs s) b.rowErrors }) s
    if sumOf row s1.bt.rowErrors < 4 then s1
    else if 2 ≤ (s1.bt.rows.filter (fun r => Config.sramMacro r == Config.sramMacro row)).length then flagTarget t 1 s1
    else updBt (fun b => { b with rows := b.rows ++ [row], fresh := b.fresh ++ [row] }) s1

/-- The temperatures as they were last sampled. -/
def temps (s : State) : List Nat := (List.range 24).map (fun i => fget s (CUP_TEMP i) CUP_TEMP_TEMP)

/-- A canary's drift against its baseline in 0.01 %; more than 6 % slower flags the unit next to it (R415). -/
def canaryDrift (i rate : Nat) (s : State) : State :=
  let base := Config.canaryBase i s.cup.target (temps s)
  let d : Int := if base = 0 then 0 else divFree (((rate : Int) - (base : Int)) * 10000) base
  let s1 := fset s (CUP_CANARY i) CUP_CANARY_DRIFT (unsigned 16 (clampInt (-32768) 32767 d))
  if base ≠ 0 ∧ (rate : Int) * 100 < (base : Int) * 94 then flagTarget (Config.canaryUnit i % 272) 0 s1 else s1

end Sys2Proof.Machine
end

