-- ==== Sys2Proof/Machine/Credits.lean ====
section
/-! DEFINITION. The credits of the Tollis virtual channels (R389 to R391). -/
namespace Sys2Proof.Machine

/-- The virtual channels. -/
def vcTime : Nat := 1
def vcMgmt : Nat := 2
def vcState : Nat := 3
def vcGrid : Nat := 4

/-- TOL_STATUS.STATE values. -/
def tolDown : Nat := 0
def tolTraining : Nat := 1
def tolUp : Nat := 2

/-- A link's state beyond its registers. -/
def linkGet (l : Nat) (s : State) : TolLink := nth s.links l TolLink.reset
def linkUpd (l : Nat) (f : TolLink → TolLink) (s : State) : State := { s with links := setNth s.links l (f (linkGet l s)) }

/-- Whether a link carries traffic. -/
def linkIsUp (l : Nat) (s : State) : Bool := fget s (TOL_STATUS l) TOL_STATUS_STATE == tolUp

/-- Credits of a VC at the sender. -/
def vcAvail (l v : Nat) (s : State) : Nat := fget s (TOL_VC_TX l (v - 1)) TOL_VC_TX_AVAIL
def vcOut (l v : Nat) (s : State) : Nat := fget s (TOL_VC_TX l (v - 1)) TOL_VC_TX_OUTSTANDING
/-- Buffer flits of a VC at the receiver. -/
def vcFree (l v : Nat) (s : State) : Nat := fget s (TOL_VC_RX l (v - 1)) TOL_VC_RX_FREE
def vcHeld (l v : Nat) (s : State) : Nat := fget s (TOL_VC_RX l (v - 1)) TOL_VC_RX_HELD
def vcReturning (l v : Nat) (s : State) : Nat := fget s (TOL_VC_RET l (v - 1)) TOL_VC_RET_RETURNING

/-- Set the two halves of the sender's and of the receiver's word. -/
def vcTxSet (l v a o : Nat) (s : State) : State :=
  fset (fset s (TOL_VC_TX l (v - 1)) TOL_VC_TX_AVAIL a) (TOL_VC_TX l (v - 1)) TOL_VC_TX_OUTSTANDING o
def vcRxSet (l v f h r : Nat) (s : State) : State :=
  fset (fset (fset s (TOL_VC_RX l (v - 1)) TOL_VC_RX_FREE f) (TOL_VC_RX l (v - 1)) TOL_VC_RX_HELD h)
    (TOL_VC_RET l (v - 1)) TOL_VC_RET_RETURNING r

/-- Flits sent on a VC take credits. -/
def tolSend (l v n : Nat) (s : State) : State :=
  let k := min n (vcAvail l v s)
  vcTxSet l v (vcAvail l v s - k) (vcOut l v s + k) s

/-- Held flits of a VC are consumed: their credits go back to the peer. -/
def tolConsume (l v n : Nat) (s : State) : State :=
  let k := min n (vcHeld l v s)
  linkUpd l (fun t => { t with returning := t.returning ++ List.replicate k (v, upNs s) })
    (vcRxSet l v (vcFree l v s) (vcHeld l v s - k) (vcReturning l v s + k) s)

/-- A message of PTP port 8 or 9 leaves in one or two flits (R391; DESIGN CHOICE, log entry 51). -/
def timeSent (port : Nat) (s : State) : State :=
  if 8 ≤ port ∧ linkIsUp (port - 8) s then tolSend (port - 8) vcTime ((drawFree s).1 % 2 + 1) (drawFree s).2 else s

/-- A message of PTP port 8 or 9 has been taken from its flits. -/
def timeTaken (port : Nat) (s : State) : State :=
  if 8 ≤ port then tolConsume (port - 8) vcTime (vcHeld (port - 8) vcTime s) s else s

/-- A Tollis DMA item has sent its flits; how many credits have not yet come back is free (DESIGN CHOICE, log entry 51). -/
def dmaSent (flat : Nat) (s : State) : State :=
  if 400 ≤ flat then
    [vcState, vcGrid].foldl (fun s v =>
      tolSend (flat - 400) v ((drawFree s).1 % (vcAvail (flat - 400) v s + 1)) (drawFree s).2) s
  else s

end Sys2Proof.Machine
end

