-- ==== Sys2Proof/Machine/Packet.lean ====
section
/-! DEFINITION. The frame every command packet runs in: who may send it, the shared status checks, and its reply
(R286 to R292). -/
namespace Sys2Proof.Machine

/-! ## When the dies act -/

/-- The main die acts: it has power, is not held in an L0 or L1 reset, and is not frozen (R362, R437). -/
def mainRuns (s : State) : Bool := s.pwr.mainUp && !s.pwr.mainHeld && !s.pwr.frozen

/-- Cupola firmware acts: the main die acts and Cupola has booted (R367). -/
def cupolaRuns (s : State) : Bool := mainRuns s && s.pwr.booted

/-- The Spire die has power and is out of reset (R357, R454); its core clock runs unless FREEZE_n has stopped it (R437). -/
def spireOn (s : State) : Bool := s.pwr.spireUp && !s.pwr.spireHeld
def spireRuns (s : State) : Bool := spireOn s && !s.spr.forced

/-- An event of the main die; nothing happens while the die does not act. -/
def onMain (f : State → State) (s : State) : Host.Outcome State Fault Refusal :=
  .next (if mainRuns s then f s else s)

/-- An event of Cupola firmware. -/
def onCupola (f : State → State) (s : State) : Host.Outcome State Fault Refusal :=
  .next (if cupolaRuns s then f s else s)

/-- An event of the Spire die. -/
def onSpire (f : State → State) (s : State) : Host.Outcome State Fault Refusal :=
  .next (if spireRuns s then f s else s)

/-- Whether an agent can make a BAR0 access: the host needs the PCIe link, Cupola its boot (R448). -/
def agentUp (ag : Agent) (s : State) : Bool :=
  match ag with
  | .host => mainRuns s && s.pwr.pcieUp
  | .cupola => cupolaRuns s
  | .jtag => mainRuns s

/-- An access of an agent. -/
def onAgent (ag : Agent) (f : State → State) (s : State) : Host.Outcome State Fault Refusal :=
  .next (if agentUp ag s then f s else s)

/-! ## Status codes (R289) -/

def stOk : Nat := 0x00
def stBusy : Nat := 0x01
def stLength : Nat := 0x02
def stOpcode : Nat := 0x03
def stParam : Nat := 0x04
def stFenced : Nat := 0x05
def stAuth : Nat := 0x06
def stCrc : Nat := 0x07
def stTimeout : Nat := 0x08
def stOos : Nat := 0x09
def stNoResource : Nat := 0x0A
def stTruncated : Nat := 0x0B

/-- What an opcode's meaning answers: the state, and the reply unless it comes later. -/
abbrev CmdOut := State × Option Reply

/-- A command that completes with OK and reply words. -/
def ok (ws : List Nat) (s : State) : CmdOut := (s, some ⟨stOk, ws⟩)

/-- A command that has no effect and returns a status. -/
def fail (st : Nat) (s : State) : CmdOut := (s, some ⟨st, []⟩)

/-- A command whose reply comes later. -/
def later (s : State) : CmdOut := (s, none)

/-- Run a command only when it carries exactly n parameter words; another count is an invalid parameter
(DEDUCED, log entry 6). -/
def withParams (n : Nat) (ps : List Nat) (f : State → CmdOut) (s : State) : CmdOut :=
  if ps.length = n then f s else fail stParam s

/-! ## Paths and shared checks -/

/-- Whether two paths are one queue: all MCTP endpoints share one (R293). -/
def samePath : Path → Path → Bool
  | .ring a, .ring b => a == b
  | .mctp _, .mctp _ => true
  | .tollis a, .tollis b => a == b
  | _, _ => false

/-- The command in execution on a path. -/
def runningOn (p : Path) (s : State) : Option Running := s.cmds.find? (fun r => samePath r.head.path p)

/-- The groups a path accepts (R290), and the opcodes a Tollis link accepts within them (R398, R429). -/
def pathAccepts (p : Path) (op : Nat) : Bool :=
  let g := op / 256
  match p with
  | .ring _ => decide (1 ≤ g ∧ g ≤ 0x0B)
  | .mctp _ => g == 0x01 || g == 0x09 || g == 0x0A || g == 0x0B
  | .tollis _ => g == 0x01 || (g == 0x09 && [0x0902, 0x0903, 0x0905].contains op)
      || (g == 0x0A && [0x0A01, 0x0A02, 0x0A03, 0x0A0A].contains op)

/-- Whether an opcode is answered in ROM recovery (R423, R429). -/
def romAnswers (op : Nat) : Bool := op == 0x0101 || decide (0x0A03 ≤ op ∧ op ≤ 0x0A09)

/-- The groups served out of service (R291 check 5). -/
def oosAnswers (op : Nat) : Bool := [0x01, 0x09, 0x0A, 0x0B].contains (op / 256)

/-- Whether a CONTEXT has been refused (R378). -/
def contextRefused (c : Nat) (s : State) : Bool :=
  (List.range 16).any (fun i => fbit s (RST_REFUSED i) RST_REFUSED_VALID && fget s (RST_REFUSED i) RST_REFUSED_CONTEXT == c)

/-- The checks of R291 that precede an opcode's own: path, service, refused context. -/
def headCheck (h : CmdHead) (op : Nat) (s : State) : Option Nat :=
  if !pathAccepts h.path op then some stAuth
  else if fbit s CUP_STATUS CUP_STATUS_ROM_RECOVERY && !romAnswers op then some stOos
  else if runState s == stOutOfService && !oosAnswers op then some stOos
  else if contextRefused h.context s then some stFenced
  else none

/-- The CLASS of a path (R290). -/
def pathClass : Path → Nat
  | .ring _ => 0
  | .mctp _ => 1
  | .tollis _ => 2

/-- Header word 0 of a packet (R286). -/
def headWord0 (h : CmdHead) (op : Nat) : Nat := op % 2 ^ 16 + b2n h.irq * 2 ^ 16 + pathClass h.path * 2 ^ 24

/-- Give the command in execution on a path its reply, if it has none yet. -/
def setReply (p : Path) (r : Option Reply) (s : State) : State :=
  match r with
  | none => s
  | some x => { s with cmds := s.cmds.map (fun c =>
      if samePath c.head.path p && c.reply.isNone then { c with reply := some x } else c) }

/-- Carry a packet out: it is in execution on its path while its checks' status, or else its meaning, is found; the reply
is kept until it is posted. -/
def runPacket (h : CmdHead) (word0 op : Nat) (check : Option Nat) (f : List Nat → State → CmdOut) (ws : List Nat) (s : State) : State :=
  let s1 := { s with cmds := s.cmds ++ [⟨h, word0, op, ws, upNs s, none⟩] }
  let r := match check with
    | some st => fail st s1
    | none => f ws s1
  setReply h.path r.2 r.1

/-! ## The slots of a completion ring (R279, R284) -/

def cqSlots (n : Nat) (s : State) : Nat := 2 ^ fget s (CMD_CFG n) CMD_CFG_CQ_LOG2
def ringGet (n : Nat) (s : State) : RingState := nth s.rings n RingState.reset
def ringUpd (n : Nat) (f : RingState → RingState) (s : State) : State := { s with rings := setNth s.rings n (f (ringGet n s)) }
/-- Whether a command of a ring pair is in execution: it holds the reserved slot. -/
def ringBusy (n : Nat) (s : State) : Bool := s.cmds.any (fun c => match c.head.path with | .ring m => m.val == n | _ => false)
def ringUsed (n : Nat) (s : State) : Nat := b2n (ringBusy n s) + b2n (ringGet n s).posting.isSome + (ringGet n s).posted

/-- Whether a path can take a command into execution: it has none, and a pair has a FREE slot to reserve for the reply
(R281, R293). -/
def pathFree (p : Path) (s : State) : Bool :=
  (runningOn p s).isNone && match p with
    | .ring n => decide (ringUsed n s < cqSlots n s)
    | _ => true

/-- Execute a command on its path: one at a time (R281, R291, R293). -/
def execOp (h : CmdHead) (op : Nat) (f : List Nat → State → CmdOut) (ps : List Word) (s : State) : State :=
  if !pathFree h.path s then s
  else runPacket h (headWord0 h op) op (headCheck h op s) f (ps.map BitVec.toNat) s

/-- A command packet's step: Cupola firmware executes it. -/
def onCmd (h : CmdHead) (op : Nat) (f : List Nat → State → CmdOut) (ps : List Word) (s : State) :
    Host.Outcome State Fault Refusal := onCupola (execOp h op f ps) s

/-- Give every command of an opcode that still waits for its reply this reply. -/
def finishOp (op : Nat) (r : Reply) (s : State) : State :=
  { s with cmds := s.cmds.map (fun c => if c.opcode == op && c.reply.isNone then { c with reply := some r } else c) }

/-- Whether a command of an opcode is in execution and has not completed. -/
def opWaiting (op : Nat) (s : State) : Bool := s.cmds.any (fun c => c.opcode == op && c.reply.isNone)

end Sys2Proof.Machine
end

