-- ==== Sys2Proof/Machine/Ptp.lean ====
section
/-! DEFINITION. Network time: ports, the PTP frames and stamps, lock and holdover, and the BLF control writes
(R58 to R74). -/
namespace Sys2Proof.Machine

/-! ## Ports -/

/-- portState values of IEEE 1588 (R72). -/
def portDisabled : Nat := 3
def portListening : Nat := 4
def portMaster : Nat := 6
def portPassive : Nat := 7
def portSlave : Nat := 9

/-- The SLAVE port field when there is none (R72). -/
def noSlave : Nat := 0xF

/-- Whether port p runs PTP. -/
def portEn (p : Nat) (s : State) : Bool := fbit s (BLF_PORT_CFG p) BLF_PORT_CFG_EN

/-- Whether the profile is IEEE 1588-2019; else it is IEEE 802.1AS-2020 (R72). -/
def profile1588 (s : State) : Bool := fbit s BLF_CTRL BLF_CTRL_PROFILE

/-- Whether port p measures delay end to end: never under PROFILE 0 or on the Tollis ports (R72). -/
def endToEnd (p : Nat) (s : State) : Bool :=
  fbit s (BLF_PORT_CFG p) BLF_PORT_CFG_DELAY_MECH && profile1588 s && decide (p < 8)

/-- The transport of port p: UDP on Ethernet ports with IEEE 1588 profiles only (R59, R72). -/
def portTransport (p : Nat) (s : State) : Nat :=
  if profile1588 s && decide (p < 8) then fget s (BLF_PORT_CFG p) BLF_PORT_CFG_TRANSPORT else 0

/-- How port p carries its messages (R59, R63). -/
def portCarrier (p : Nat) (s : State) : PtpCarrier :=
  if 8 ≤ p then .tollis
  else match portTransport p s with
    | 1 => .udp4 0x0000
    | 2 => .udp6
    | _ => .ethernet

/-- What the protocol keeps of port p. -/
def portRec (p : Nat) (s : State) : PtpPort := nth s.ptp.ports p PtpPort.reset
/-- Change it. -/
def portUpd (p : Nat) (f : PtpPort → PtpPort) (s : State) : State :=
  { s with ptp := { s.ptp with ports := setNth s.ptp.ports p (f (portRec p s)) } }

/-- The state of port p. -/
def portState (p : Nat) (s : State) : Nat := fget s (BLF_PORT_STATE p) BLF_PORT_STATE_STATE

/-- The state a port enters when PTP_MODE, ROLE, EN or FORCE_ROLE is written (R58, R72): with the grandmaster role a port
without a forced role is master (PRESUMED, log entry 80). -/
def portEntry (p : Nat) (s : State) : Nat :=
  if ptpMode s = ptpHost then 0
  else if ptpMode s = ptpOff ∨ !portEn p s then portDisabled
  else match fget s (BLF_PORT_CFG p) BLF_PORT_CFG_FORCE_ROLE with
    | 1 => portMaster
    | 2 => portSlave
    | 3 => portPassive
    | _ =>
      let c := portState p s
      if grandmasterRole s then portMaster
      else if c = 0 ∨ c = portDisabled then portListening else c

/-- SLAVE_PORT shows the lowest port in SLAVE state, and none in HOST mode (R72). -/
def slaveShow (s : State) : State :=
  fset s BLF_STATUS BLF_STATUS_SLAVE_PORT (((List.range 10).find? (fun p => portState p s == portSlave)).getD noSlave)

/-- Put port p in a state: OFFSET is 0 unless it is SLAVE, PATH_DELAY is 0 in HOST mode, and SLAVE_PORT follows (R72). -/
def setPortState (p st : Nat) (s : State) : State :=
  let s1 := fset s (BLF_PORT_STATE p) BLF_PORT_STATE_STATE st
  let s2 := if st = portSlave then s1 else fset s1 (BLF_PORT_OFFSET p) fWord 0
  slaveShow (if ptpMode s2 = ptpHost then fset s2 (BLF_PORT_PATH_DELAY p) fWord 0 else s2)

/-- Every port follows the configuration. -/
def refreshPorts (s : State) : State := forUpTo 10 (fun p s => setPortState p (portEntry p s) s) s

/-- The slave port, if any. -/
def slavePort (s : State) : Option Nat :=
  let p := fget s BLF_STATUS BLF_STATUS_SLAVE_PORT
  if p = noSlave then none else some p

/-! ## Holdover -/

/-- Syncs in a row within THRESH count anew. -/
def countAnew (s : State) : State := { s with ptp := { s.ptp with inThreshold := 0 } }

/-- The Belfry enters holdover (R66, R67); the Syncs that are to end it count anew. -/
def enterHoldover (port offset : Nat) (s : State) : State :=
  if fbit s BLF_STATUS BLF_STATUS_HOLDOVER then countAnew s
  else
    let s1 := fput (fon s BLF_STATUS BLF_STATUS_HOLDOVER) BLF_STATUS BLF_STATUS_LOCKED false
    noteHold (logEvent 0x0801 2 port offset (countAnew s1))

/-- Enter holdover from the slave port of INTERNAL mode (R66). -/
def slaveHoldover (s : State) : State :=
  match slavePort s with
  | some p => if ptpMode s = ptpInternal ∧ freeMaster s = false then enterHoldover p (fget s (BLF_PORT_OFFSET p) fWord) s else s
  | none => s

/-- The servo writes a rate and a phase adjustment of its own (R58); in holdover it writes no rate (R67). -/
def servo (s : State) : State :=
  let (a, s1) := drawFree s
  let s2 := phaseAdjust (signed 64 a) s1
  if fbit s2 BLF_STATUS BLF_STATUS_HOLDOVER then s2
  else
    let (r, s3) := drawFree s2
    storeRate (signed 64 r) s3

/-- A Sync's offset, in 2⁻¹⁶ ns, counts towards lock; holdover ends after COUNT in a row within THRESH (R68). Nothing but
a holdover or a change of the configuration clears LOCKED: the manual says of later offsets above THRESH only that they
break the row (DESIGN CHOICE, log entry 79). -/
def lockCount (offset : Int) (port : Nat) (s : State) : State :=
  let good := decide (offset.natAbs ≤ fget s BLF_LOCK BLF_LOCK_THRESH * 2 ^ 16)
  let n := if good then s.ptp.inThreshold + 1 else 0
  let s1 := { s with ptp := { s.ptp with inThreshold := n } }
  let enough := decide (fget s BLF_LOCK BLF_LOCK_COUNT ≤ n)
    && decide (s.slew.natAbs ≤ fget s BLF_STEP_LIMIT fWord * unitsPerNs)
  if !enough || (ppsOn s && fbit s BLF_STATUS BLF_STATUS_PPS_LOST) then s1
  else
    let s2 := fon s1 BLF_STATUS BLF_STATUS_LOCKED
    if fbit s2 BLF_STATUS BLF_STATUS_HOLDOVER then
      logEvent 0x0802 2 port (fget s2 (BLF_PORT_OFFSET port) fWord) (fput s2 BLF_STATUS BLF_STATUS_HOLDOVER false)
    else s2

/-! ## The best master clock (IEEE 1588; PRESUMED, log entry 80) -/

/-- How two clocks compare: the first is better, better by topology, or not better. -/
inductive ClockOrder where
  | better | topology | worse
  deriving DecidableEq, Repr

/-- Whether a list of numbers comes before another of its length. -/
def listBefore : List Nat → List Nat → Bool
  | a :: as, b :: bs => decide (a < b) || (a == b && listBefore as bs)
  | _, _ => false

/-- The attributes of a clock in the order of their comparison. -/
def clockKey (c : ClockSet) : List Nat := [c.p1, c.cls, c.accuracy, c.variance, c.p2, c.gm]

/-- The identity of port p: the clock's identity and its port number (R58). -/
def portIdentity (p : Nat) : Nat := Config.clockIdentity * 2 ^ 16 + p + 1

/-- Compare the clocks heard on two ports. -/
def clockCompare (p : Nat) (a : ClockSet) (q : Nat) (b : ClockSet) : ClockOrder :=
  if a.gm ≠ b.gm then (if listBefore (clockKey a) (clockKey b) then .better else .worse)
  else if a.steps + 1 < b.steps then .better
  else if b.steps + 1 < a.steps then .worse
  else if a.steps < b.steps then (if portIdentity q < b.sender then .better else .topology)
  else if b.steps < a.steps then .worse
  else if a.sender ≠ b.sender then (if a.sender < b.sender then .topology else .worse)
  else if p < q then .topology else .worse

/-- The Belfry's own clock, from the attributes of PTP_CONFIG (R73). -/
def ownClock (s : State) : ClockSet :=
  let b (i : Nat) : Nat := s.ptp.clockAttrs.toNat / 256 ^ i % 256
  ⟨b 0, b 2, b 3, Config.clockVariance, b 1, Config.clockIdentity, 0, portIdentity 0⟩

/-- The better of the best so far and the clock heard on a port. -/
def betterOf (m : Option (Nat × ClockSet)) (e : Nat × ClockSet) : Option (Nat × ClockSet) :=
  match m with
  | none => some e
  | some b => if clockCompare e.1 e.2 b.1 b.2 = .worse then m else some e

/-- The best clock heard on any port that runs PTP. -/
def bestHeard (s : State) : Option (Nat × ClockSet) :=
  ((List.range 10).filterMap (fun p => if portEn p s then (portRec p s).best.map (fun c => (p, c)) else none)).foldl
    betterOf none

/-- Whether the own clock is better than one that may have been heard. -/
def ownBeats (e : Option (Nat × ClockSet)) (s : State) : Bool :=
  match e with
  | none => true
  | some (p, c) => clockCompare 0 (ownClock s) p c != .worse

/-- The state that the algorithm decides for port p. -/
def decideState (p : Nat) (s : State) : Nat :=
  let heard := (portRec p s).best.map (fun c => (p, c))
  if heard.isNone && portState p s == portListening then portListening
  else if profile1588 s && decide (1 ≤ (ownClock s).cls ∧ (ownClock s).cls ≤ 127) then
    (if ownBeats heard s then portMaster else portPassive)
  else if ownBeats (bestHeard s) s then portMaster
  else match bestHeard s, heard with
    | some (q, b), some (_, c) =>
      if q = p then portSlave else if clockCompare q b p c = .topology then portPassive else portMaster
    | _, _ => portMaster

/-- Whether the algorithm decides port p's state: no role is forced and the role is not grandmaster (R59). -/
def portFree (p : Nat) (s : State) : Bool :=
  portEn p s && fget s (BLF_PORT_CFG p) BLF_PORT_CFG_FORCE_ROLE == 0 && !grandmasterRole s

/-- The grandmaster that the slave port follows, once it has heard one. -/
def followed (s : State) : Option Nat := (slavePort s).bind (fun p => (portRec p s).best.map ClockSet.gm)

/-- The grandmaster is the one the slave port follows, and the own clock where none is. -/
def showMaster (s : State) : State :=
  { s with ptp := { s.ptp with grandmaster := (followed s).getD Config.clockIdentity } }

/-- The algorithm's decision for every port it decides; where a port was SLAVE and another grandmaster is selected, a
holdover begins (R66). -/
def bmca (s : State) : State :=
  let s1 := forUpTo 10 (fun p t => if portFree p t then setPortState p (decideState p s) t else t) s
  let changed := match followed s with
    | some g => followed s1 != some g
    | none => false
  showMaster (if changed then
    forUpTo 10 (fun p t => if portFree p t then setPortState p (decideState p s) t else t) (slaveHoldover s) else s1)

/-- An Announce on a port: the best clock heard there, and the port identity followed. -/
def ptpAnnounce (port : Nat) (c : ClockSet) (s : State) : State :=
  if c.gm = Config.clockIdentity then s
  else
    let r := portRec port s
    let keep : Bool := match r.best with
      | some b => c.sender != b.sender && clockCompare port c port b == .worse
      | none => false
    if keep then s
    else
      let before := followed s
      let s1 := portUpd port (fun r => { r with best := some c, parent := c.sender }) s
      -- A port that was SLAVE and stays so, with another grandmaster, begins a holdover (R66).
      let s2 := match before with
        | some g => if followed s1 ≠ some g then slaveHoldover s1 else s1
        | none => s1
      bmca s2

/-- An announce receipt timeout expires on a port: nothing is heard there, and a SLAVE port's begins a holdover (R66). -/
def announceLost (port : Nat) (s : State) : State :=
  if ptpMode s ≠ ptpInternal ∨ !portEn port s then s
  else
    let s1 := if portState port s = portSlave then slaveHoldover s else s
    let s2 := portUpd port (fun r => { r with best := none, parent := 0 }) s1
    bmca (if portState port s2 = portListening ∧ portFree port s2 then setPortState port portMaster s2 else s2)

/-! ## Frames -/

/-- A receive stamp at the medium: the pad time less INGRESS_LAT (R62). -/
def rxStamp (port pad : Nat) (s : State) : Int := (pad : Int) - fget s (BLF_PORT_INGRESS_LAT port) fWord

/-- A departure stamp at the medium: the pad time plus EGRESS_LAT (R62). -/
def txStampTime (port : Nat) (s : State) : Nat := time16 s + fget s (BLF_PORT_EGRESS_LAT port) fWord

/-- delayAsymmetry of a port (R62). -/
def portAsym (port : Nat) (s : State) : Int := signed 32 (fget s (BLF_PORT_ASYM port) fWord)

/-- Whether a message is an event message. -/
def isEvent (k : PtpTx) : Bool := k == .sync || k == .pdelayReq || k == .pdelayResp || k == .delayReq

/-- Whole nanoseconds of a time in 2⁻¹⁶ ns, and the rest. -/
def wholeNs (t : Int) : Nat := (t / 2 ^ 16).toNat
def fracNs (t : Int) : Int := t % 2 ^ 16

/-- The timestamp field, in whole ns, and the correctionField of a message that departs at a time in 2⁻¹⁶ ns (R62, R63):
a one-step Sync carries its departure, a one-step Pdelay_Resp the residence time, and a request loses delayAsymmetry; the
fields that R63 leaves to the standards are theirs (PRESUMED, log entry 80). -/
def ptpTimes (port dep : Nat) (m : PtpOut) (s : State) : Nat × Int :=
  match m.kind with
  | .sync => if fbit s (BLF_PORT_CFG port) BLF_PORT_CFG_SYNC_2STEP then (0, 0) else (wholeNs dep, fracNs dep)
  | .syncFollowUp | .pdelayRespFollowUp =>
    (wholeNs (portRec port s).departed, m.correction + fracNs (portRec port s).departed)
  | .pdelayResp =>
    if profile1588 s then (0, m.correction + (dep - m.arrival)) else (wholeNs m.arrival, -(fracNs m.arrival))
  | .delayResp => (wholeNs m.arrival, m.correction - fracNs m.arrival)
  | .pdelayReq | .delayReq => (0, -(portAsym port s))
  | .announce => (0, 0)

/-- The Belfry sends a message (R63): event messages are stamped and counted, and the departure stamps of requests kept. -/
def sendPtp (port : Nat) (m : PtpOut) (s : State) : State :=
  let dep := txStampTime port s
  let f := ptpTimes port dep m s
  let s1 := emit (.ptpTx port m.kind dep f.1 f.2 (portCarrier port s)) s
  let s2 := if isEvent m.kind then portUpd port (fun r => { r with departed := dep }) (bump s1 (BLF_PORT_TX_EVENTS port)) else s1
  timeSent port (if m.kind = .pdelayReq ∨ m.kind = .delayReq then portUpd port (fun r => { r with asked := some dep }) s2 else s2)

/-- Whether a priority of an Ethernet port is paused (R96). -/
def pausedPrio (port prio : Nat) (s : State) : Bool := (nth s.ing (16 + port) IngChan.reset).paused.contains prio

/-- The Belfry originates a message, which waits while priority 0 of its port is paused (R63, R96). -/
def originate (port : Nat) (m : PtpOut) (s : State) : State :=
  if port < 8 ∧ pausedPrio port 0 s then
    let c := nth s.ing (16 + port) IngChan.reset
    { s with ing := setNth s.ing (16 + port) { c with heldPtp := c.heldPtp ++ [m] } }
  else sendPtp port m s

/-- A message without a request. -/
def plainOut (k : PtpTx) : PtpOut := ⟨k, 0, 0⟩

/-- A Sync's time is known: the port's offset, the lock count and the servo (R62, R68). -/
def syncDone (port : Nat) (arrival origin : Int) (s : State) : State :=
  let t1 := origin + portAsym port s
  let off := arrival - t1 - fget s (BLF_PORT_PATH_DELAY port) fWord
  let ns := clampInt (-(2 ^ 31 : Int)) (2 ^ 31 - 1) (divFree off (2 ^ 16))
  servo (lockCount off port (fset (portUpd port (fun r => { r with twoStep := none, lastSync := some (t1, arrival) }) s)
    (BLF_PORT_OFFSET port) fWord (unsigned 32 ns)))

/-- Whether a message comes from the port identity that the slave port follows. -/
def fromParent (port sender : Nat) (s : State) : Bool :=
  slavePort s == some port && ((portRec port s).parent == 0 || (portRec port s).parent == sender)

/-- A mean delay is stored (R72). -/
def storeDelay (port : Nat) (sum : Int) (s : State) : State :=
  fset s (BLF_PORT_PATH_DELAY port) fWord (unsigned 32 (divFree sum 2))

/-- A response to a delay request (R62): the mean of the two ways. -/
def delayDone (port : Nat) (t4 correction : Int) (s : State) : State :=
  match (portRec port s).asked, (portRec port s).lastSync with
  | some t3, some (t1, t2) =>
    storeDelay port ((t2 - t1) + (t4 - t3 - correction)) (portUpd port (fun r => { r with asked := none }) s)
  | _, _ => s

/-- A peer delay measurement is complete: what the peer held the request is in its times and corrections (R62). -/
def peerDone (port : Nat) (arrival held correction : Int) (s : State) : State :=
  match (portRec port s).asked with
  | some t1 => storeDelay port (arrival - t1 - held - (correction + portAsym port s))
      (portUpd port (fun r => { r with asked := none, response := none }) s)
  | none => s

/-- A request is answered (R63): by its follow-up too under IEEE 802.1AS. -/
def ptpAnswer (port : Nat) (arrival correction : Int) (s : State) : State :=
  let s1 := originate port ⟨.pdelayResp, arrival, correction⟩ s
  if profile1588 s then s1 else originate port ⟨.pdelayRespFollowUp, arrival, correction⟩ s1

/-- Whether the protocol takes a message: its domain, and its transport, are the configured ones (R59; DEDUCED, log entry
80). -/
def ptpTakes (port : Nat) (m : PtpMsg) (s : State) : Bool :=
  m.domain == fget s BLF_CTRL BLF_CTRL_DOMAIN && (decide (8 ≤ port) || m.transport == portTransport port s)

/-- Cupola firmware takes a message that arrived at a time in 2⁻¹⁶ ns at the medium (R58, R59). -/
def ptpTake (port : Nat) (arrival : Int) (m : PtpMsg) (s : State) : State :=
  match m.body with
  | .sync two o c =>
    if !fromParent port m.sender s then s
    else if two then portUpd port (fun r => { r with twoStep := some (arrival, c) }) s
    else syncDone port arrival (o + c) s
  | .followUp o c =>
    match (portRec port s).twoStep with
    | some (t2, c0) => if fromParent port m.sender s then syncDone port t2 (o + c0 + c) s else s
    | none => s
  | .announce c => ptpAnnounce port c s
  | .pdelayReq c => if endToEnd port s then s else ptpAnswer port arrival c s
  | .delayReq c =>
    if endToEnd port s && portState port s == portMaster then originate port ⟨.delayResp, arrival, c⟩ s else s
  | .delayResp t4 c => if endToEnd port s then delayDone port t4 c s else s
  | .pdelayResp two t2 c =>
    if endToEnd port s then s
    else if two then portUpd port (fun r => { r with response := some (t2, c, arrival) }) s
    else peerDone port arrival 0 c s
  | .pdelayRespFollowUp t3 c =>
    match (portRec port s).response with
    | some (t2, c0, t4) => peerDone port t4 (t3 - t2) (c0 + c) s
    | none => s
  | .other => s

/-- A received PTP frame (R60, R74). -/
def ptpFrameRx (port pad bytes : Nat) (msg : PtpMsg) (frame : List Word) (s0 : State) : State :=
  let s := bump (timeTaken port s0) (BLF_PORT_RX_EVENTS port)
  if !portEn port s || ptpMode s == ptpOff then s
  else if ptpMode s = ptpHost then
    if s.ptp.rxQueue.length < 64 then
      { s with ptp := { s.ptp with rxQueue := s.ptp.rxQueue ++ [⟨port, (rxStamp port pad s).toNat, bytes, frame⟩] } }
    else s
  else if ptpTakes port msg s then ptpTake port (rxStamp port pad s) msg s else s

/-- A message interval of a port expires (R63): masters send Sync and Announce, slaves and peers their requests. -/
def ptpInterval (port : Nat) (k : PtpTx) (s : State) : State :=
  let st := portState port s
  if !portEn port s || ptpMode s != ptpInternal then s
  else match k with
    | .sync =>
      if st = portMaster then
        let s1 := originate port (plainOut .sync) s
        if fbit s (BLF_PORT_CFG port) BLF_PORT_CFG_SYNC_2STEP then originate port (plainOut .syncFollowUp) s1 else s1
      else s
    | .announce => if st = portMaster then originate port (plainOut .announce) s else s
    | .pdelayReq => if endToEnd port s then s else originate port (plainOut .pdelayReq) s
    | .delayReq => if endToEnd port s && st == portSlave then originate port (plainOut .delayReq) s else s
    | _ => s

/-! ## Transmit stamps of host frames -/

/-- A stamp enters the TX stamp queue, or is lost when 32 wait (R64, R65). -/
def pushStamp (t : TxStamp) (s : State) : State :=
  if s.ptp.txStamps.length < 32 then
    fset { s with ptp := { s.ptp with txStamps := s.ptp.txStamps ++ [t] } } BLF_TXQ_STATUS BLF_TXQ_STATUS_COUNT
      (s.ptp.txStamps.length + 1)
  else bumpBy (fon s BLF_TXQ_STATUS BLF_TXQ_STATUS_OVF) BLF_TXQ_STATUS BLF_TXQ_STATUS_LOST 1

/-- The oldest pending host frame of a port departs, or is dropped unsent (R64, R65). -/
def txDepart (port : Nat) (sent : Bool) (s : State) : State :=
  match takeOne (fun f => f.port == port) s.ptp.txFrames with
  | none => s
  | some (f, rest) =>
    let s1 := { s with ptp := { s.ptp with txFrames := rest } }
    let s2 := if sent then emit (.hostPtpTx port f.id) (if f.stampReq then bump s1 (BLF_PORT_TX_EVENTS port) else s1) else s1
    if f.stampReq then pushStamp ⟨f.id, port, !sent, if sent then txStampTime port s2 else 0⟩ s2 else s2

/-- The image of a TX stamp entry's pop word (R72). -/
def stampWord (t : TxStamp) : Nat := t.id % 2 ^ 16 + t.port % 16 * 2 ^ 16 + b2n t.dropped * 2 ^ 20 + 2 ^ 31

/-- Take the oldest TX stamp. -/
def takeStamp (s : State) : Option TxStamp × State :=
  match s.ptp.txStamps with
  | [] => (none, s)
  | t :: r => (some t, fset { s with ptp := { s.ptp with txStamps := r } } BLF_TXQ_STATUS BLF_TXQ_STATUS_COUNT r.length)

/-- The words a pop of the TX stamp queue latches. -/
def txqShadow (ws : List Nat) : List (Nat × Nat) :=
  [(BLF_TXQ_FRAC, nth ws 0 0), (BLF_TXQ_NS, nth ws 1 0), (BLF_TXQ_SEC_LO, nth ws 2 0), (BLF_TXQ_SEC_HI, nth ws 3 0)]

/-- A read of BLF_TXQ_POP0: the pop word, and the four words it latches (R37, R64). -/
def txqPop (s : State) : State × Word :=
  match takeStamp s with
  | (none, s1) => (latchWords (txqShadow []) s1, 0)
  | (some t, s1) => (latchWords (txqShadow (t96Words t.t)) s1, BitVec.ofNat 32 (stampWord t))

/-! ## PPS -/

/-- A PPS edge at a time in 2⁻¹⁶ ns: within 1 ms of its due second it counts, and COUNT in a row within THRESH clear
PPS_LOST and HOLDOVER (R70). -/
def ppsEdge (t : Nat) (s : State) : State :=
  let sec := 10 ^ 9 * 2 ^ 16
  let r := t % sec
  let off := if r * 2 < sec then r else sec - r
  if off > 10 ^ 6 * 2 ^ 16 then { s with ptp := { s.ptp with ppsInThreshold := 0 } }
  else
    let n := if off ≤ fget s BLF_LOCK BLF_LOCK_THRESH * 2 ^ 16 then s.ptp.ppsInThreshold + 1 else 0
    let s1 := { s with ptp := { s.ptp with ppsInThreshold := n } }
    let s2 := if fget s1 BLF_LOCK BLF_LOCK_COUNT ≤ n ∧ fbit s1 BLF_STATUS BLF_STATUS_PPS_LOST then
        holdFollow (fput (fput s1 BLF_STATUS BLF_STATUS_PPS_LOST false) BLF_STATUS BLF_STATUS_HOLDOVER false)
      else s1
    if ptpMode s2 = ptpInternal then servo s2 else s2

/-- Two expected PPS edges in succession have not arrived: PPS_LOST and HOLDOVER are set, and LOCKED is clear (R67, R70). -/
def ppsMissing (s : State) : State :=
  if ppsOn s then
    let s1 := { s with ptp := { s.ptp with ppsInThreshold := 0 } }
    let s2 := fon (fon s1 BLF_STATUS BLF_STATUS_PPS_LOST) BLF_STATUS BLF_STATUS_HOLDOVER
    noteHold (fput (countAnew s2) BLF_STATUS BLF_STATUS_LOCKED false)
  else s

/-- 2 s pass in HOST mode without a host write of BLF_RATE or BLF_ADJ (R69). -/
def hostHoldoverTimeout (s : State) : State :=
  if ptpMode s = ptpHost then
    let s1 := runToUp (s.ptp.lastHostWrite + 2 * 10 ^ 9) s
    holdFollow { s1 with ptp := { s1.ptp with hostTimeout := true } }
  else s

/-! ## Control writes -/

/-- The BLF_CTRL word with an out-of-range SLEW_PPM left as it was (R72). -/
def ctrlImage (v : Word) (s : State) : Word :=
  let p := getBits BLF_CTRL_SLEW_PPM v
  if p = 0 ∨ p > 100 then setBits BLF_CTRL_SLEW_PPM v (fget s BLF_CTRL BLF_CTRL_SLEW_PPM) else v

/-- Whether a BLF_CTRL word changes a field R61 freezes while RUNNING. -/
def ctrlFrozen (v : Word) (s : State) : Bool :=
  running s && [BLF_CTRL_PTP_MODE, BLF_CTRL_ROLE, BLF_CTRL_PROFILE, BLF_CTRL_DOMAIN].any
    (fun f => getBits f v != fget s BLF_CTRL f)

/-- What the protocol followed under another mode, role, profile or domain is forgotten: nothing heard, nothing asked, no
lock (DESIGN CHOICE, log entry 79). -/
def ptpAnew (s : State) : State :=
  let s1 := countAnew { s with ptp := { s.ptp with ports := s.ptp.ports.map (fun r => { PtpPort.reset with departed := r.departed }) } }
  showMaster (refreshPorts (forUpTo 10 (fun p s => setPortState p portDisabled s) (fput s1 BLF_STATUS BLF_STATUS_LOCKED false)))

/-- Store an accepted BLF_CTRL word: the ports, lock and holdover follow the mode, role, profile and domain (R58, R66 to
R70). -/
def ctrlStore (v : Word) (s : State) : State :=
  let s1 := wr s BLF_CTRL (BitVec.ofNat 32 ((ctrlImage v s).toNat % 2 ^ 26))
  let same := [BLF_CTRL_PTP_MODE, BLF_CTRL_ROLE, BLF_CTRL_PROFILE, BLF_CTRL_DOMAIN].all (fun f => fget s1 BLF_CTRL f == fget s BLF_CTRL f)
  let s2 := if same then s1 else ptpAnew s1
  let s3 := if ptpMode s1 = ptpMode s then s2
    else
      let t := fput s2 BLF_STATUS BLF_STATUS_HOLDOVER false
      { t with ptp := { t.ptp with lastHostWrite := upNs s, hostTimeout := false } }
  holdFollow s3

/-- A bus write of BLF_CTRL (R58, R61, R72). -/
def ctrlWrite (v : Word) (s : State) : State :=
  if getBits BLF_CTRL_PTP_MODE v = 3 then blfReject s
  else if getBits BLF_CTRL_ROLE v = 3 then s
  else if ctrlFrozen v s then blfReject s
  else ctrlStore v s

/-- A bus write of BLF_LOCK: a COUNT of 0 leaves the field (R72). -/
def lockWrite (v : Word) (s : State) : State :=
  let s1 := fset s BLF_LOCK BLF_LOCK_THRESH (getBits BLF_LOCK_THRESH v)
  let c := getBits BLF_LOCK_COUNT v
  if c = 0 then s1 else fset s1 BLF_LOCK BLF_LOCK_COUNT c

/-- A write of a port's configuration word: TRANSPORT 3 is discarded (R72). -/
def portCfgWrite (p : Nat) (v : Word) (s : State) : State :=
  let a := BLF_PORT_CFG p
  let v1 := if getBits BLF_PORT_CFG_TRANSPORT v = 3 then setBits BLF_PORT_CFG_TRANSPORT v (fget s a BLF_PORT_CFG_TRANSPORT) else v
  let s1 := wr s a (BitVec.ofNat 32 (v1.toNat % 2 ^ 7))
  setPortState p (portEntry p s1) s1

end Sys2Proof.Machine
end

