-- ==== Sys2Proof/Machine/Ingress.lean ====
section
/-! DEFINITION. The ingress channels: banks, packets, overrun, flush, flow control and the bank ledger (R75 to R101). -/
namespace Sys2Proof.Machine

/-! ## Channels and banks -/

/-- Channel n. -/
def chGet (n : Nat) (s : State) : IngChan := nth s.ing n IngChan.reset
/-- Replace channel n. -/
def chSet (n : Nat) (c : IngChan) (s : State) : State := { s with ing := setNth s.ing n c }

/-- The source kind of a channel (R75). -/
def chKind (n : Nat) : Nat := rstIngKind n 0

/-- The state of bank b. -/
def bankGet (b : Nat) (c : IngChan) : BankSt := if b = 0 then c.bank0 else c.bank1
/-- Put bank b in a state. -/
def bankSet (b : Nat) (st : BankSt) (c : IngChan) : IngChan := if b = 0 then { c with bank0 := st } else { c with bank1 := st }

/-- The passage in flight arrives in its new state (R98). -/
def passageDone (c : IngChan) : IngChan :=
  match c.passage with
  | some (b, st) => { bankSet b st c with passage := none }
  | none => c

/-- A bank token starts its passage to a new state; at most one of the channel is IN_FLIGHT (R98). -/
def passTo (b : Nat) (st : BankSt) (c : IngChan) : IngChan :=
  { bankSet b .inFlight (passageDone c) with passage := some (b, st) }

/-- The bytes of a bank. -/
def bankBytes : Nat := 65536

/-- Round up to whole units of 32 bytes. -/
def round32 (n : Nat) : Nat := (n + 31) / 32 * 32

/-- The last packet is in progress. -/
def inProgress (c : IngChan) : Bool := match c.packets.getLast? with | some p => !p.ended | none => false

/-- Whether bank b holds a packet the consumer has not finished. -/
def bankHolds (b : Nat) (c : IngChan) : Bool := c.packets.any (fun p => p.bank == b)

/-- The fill offset at the next packet start (R79). -/
def startOffset (c : IngChan) : Nat := if !bankHolds c.fill c && !inProgress c then 0 else c.offset

/-- A FREE bank becomes the FILLING bank when the channel is enabled and has none (R80). -/
def ensureFilling (en : Bool) (c : IngChan) : IngChan :=
  if !en || c.bank0 == .filling || c.bank1 == .filling then c
  else if bankGet c.fill c == .free then { bankSet c.fill .filling c with offset := 0 }
  else if bankGet (1 - c.fill) c == .free then { bankSet (1 - c.fill) .filling c with fill := 1 - c.fill, offset := 0 }
  else c

/-- Where a packet of a required space goes (R78). -/
inductive Placement where
  | here (offset : Nat) | other | full
  deriving DecidableEq, Repr

/-- Place a required space (R78, R79). -/
def place (need : Nat) (c : IngChan) : Placement :=
  let off := startOffset c
  if bankGet c.fill c ≠ .filling then .full
  else if off + need ≤ bankBytes then .here off
  else if bankGet (1 - c.fill) c = .free then .other
  else if need > bankBytes ∧ !bankHolds c.fill c then .here 0
  else .full

/-- The banks after a placement: a switch closes the filling bank to READY, or to FREE when it holds no packet. -/
def placeBanks (p : Placement) (c : IngChan) : IngChan :=
  match p with
  | .here off => { c with offset := off }
  | .other =>
    let c1 := if bankHolds c.fill c then passTo c.fill .ready c else bankSet c.fill .free c
    { bankSet (1 - c.fill) .filling c1 with fill := 1 - c.fill, offset := 0 }
  | .full => c

/-- ING_STATUS.FULL: a packet of MAXFRAME bytes that starts now could not be placed (R83). -/
def chFull (n : Nat) (s : State) : Bool :=
  let c := ensureFilling true (passageDone (chGet n s))
  place (32 + fget s (ING_MAXFRAME n) ING_MAXFRAME_MAXFRAME) c == .full

/-- OCCUPANCY: the space of every packet written and not finished (R92). -/
def occupancy (c : IngChan) : Nat := (c.packets.map Packet.size).sum

/-! ## XOFF -/

/-- A channel sends priority pause frames (R95). -/
def pfcOn (n : Nat) (s : State) : Bool := chKind n == 1 && fbit s (ING_CTRL n) ING_CTRL_PFC_EN

/-- Send a priority flow control frame with a time for every enabled priority (R95). -/
def sendPfc (n quanta : Nat) (s : State) : State :=
  emit (.pfc (n - 16) (fget s (ING_PFC n) ING_PFC_PFC_PRIO) quanta) s

/-- The XOFF state follows the occupancy (R93, R95). -/
def xoffUpdate (n : Nat) (s : State) : State :=
  let occ := occupancy (chGet n s)
  let was := fbit s (ING_STATUS n) ING_STATUS_XOFF
  if !was && decide (fget s (ING_WM n) ING_WM_HIGH * 32 ≤ occ) then
    let s1 := fput s (ING_STATUS n) ING_STATUS_XOFF true
    if pfcOn n s1 then sendPfc n (fget s1 (ING_PFC n) ING_PFC_QUANTA) s1 else s1
  else if was && decide (occ ≤ fget s (ING_WM n) ING_WM_LOW * 32) then
    let s1 := fput s (ING_STATUS n) ING_STATUS_XOFF false
    if pfcOn n s1 then sendPfc n 0 s1 else s1
  else s

/-- Pin ING_XOFF[g] (R94): low through every reset of the die and of a channel's unit; a freeze holds it as it is (R437). -/
def xoffPin (g : Nat) (s : State) : Bool :=
  s.pwr.mainUp && !s.pwr.mainHeld && (List.range 4).any (fun i =>
    fbit s (ING_CTRL (4 * g + i)) ING_CTRL_XOFF_EN && fbit s (ING_STATUS (4 * g + i)) ING_STATUS_XOFF
      && !unitHeld (4 * g + i) s)

/-- The refresh of a pause that still holds (R95). -/
def pfcRefresh (n : Nat) (s : State) : State :=
  if pfcOn n s && fbit s (ING_STATUS n) ING_STATUS_XOFF then sendPfc n (fget s (ING_PFC n) ING_PFC_QUANTA) s else s

/-! ## Flush -/

/-- The packet the consumer is on: the oldest, once it has started on it (R81). -/
def consumerOn (c : IngChan) : Option Packet :=
  match c.packets.head? with
  | some p => if p.taken then some p else none
  | none => none

/-- The ING_FLUSH commands whose flushes are all done complete (R101). -/
def flushReplies (s : State) : State :=
  { s with cmds := s.cmds.map (fun c =>
      if c.opcode == 0x0404 && c.reply.isNone
          && (maskBits 32 (nth c.params 0 0)).all (fun n => !fbit s (ING_CTRL n) ING_CTRL_FLUSH) then
        { c with reply := some ⟨stOk, [nth c.params 0 0]⟩ }
      else c) }

/-- The flush is done: FLUSH reads 0 again, and a command that waits for it completes. -/
def flushDone (n : Nat) (s : State) : State :=
  flushReplies (chSet n { chGet n s with flushed := false } (fput s (ING_CTRL n) ING_CTRL_FLUSH false))

/-- A pending flush takes effect at a packet boundary (R89). -/
def flushEffect (n : Nat) (s : State) : State :=
  let c := passageDone (chGet n s)
  if !fbit s (ING_CTRL n) ING_CTRL_FLUSH || c.flushed || inProgress c then s
  else
    let keep := match consumerOn c with | some p => [p] | none => []
    let gone := c.packets.length - keep.length
    let freed (b : Nat) (c : IngChan) : IngChan := if bankHolds b c then bankSet b .ready c else bankSet b .free c
    let c1 := freed 1 (freed 0 { c with packets := keep })
    let c2 := ensureFilling (fbit s (ING_CTRL n) ING_CTRL_EN) { c1 with offset := 0, flushed := !keep.isEmpty }
    let lost := (c.packets.drop keep.length).map (fun p => 1 + p.dropGap)
    let s0 := if gone = 0 then s else noteLoss n lost.sum s
    let s1 := xoffUpdate n (chSet n c2 (bumpBy s0 (ING_FLUSH_PKTS n) fWord gone))
    if keep.isEmpty then flushDone n s1 else s1

/-! ## Packets -/

/-- Count a packet under each of its status bits (R82, R100). -/
def countStatus (n : Nat) (p : Packet) (s : State) : State :=
  let s1 := if p.trunc then bump s (ING_TRUNC_PKTS n) else s
  let s2 := if p.aborted then bump s1 (ING_ABORT_PKTS n) else s1
  let s3 := if p.bad then bump s2 (ING_BAD_PKTS n) else s2
  if p.malformed then bump s3 (ING_MALF_PKTS n) else s3

/-- Whether any STATUS bit of a packet is set. -/
def pktBad (p : Packet) : Bool := p.trunc || p.aborted || p.bad || p.malformed

/-- Replace the last packet. -/
def setLast (p : Packet) (c : IngChan) : IngChan := { c with packets := c.packets.dropLast ++ [p] }

/-- The payload bytes that a packet's bank has room for (R86). -/
def pktRoom (p : Packet) : Nat := bankBytes - p.offset - 32

/-- Bytes of the packet in progress arrive: its written size grows (R81, R92). -/
def bytesArrive (n : Nat) (more : List Nat) (s : State) : State :=
  let c := chGet n s
  match c.packets.getLast? with
  | none => s
  | some p =>
    if p.ended then s
    else
      let got := p.payload ++ more
      xoffUpdate n (chSet n (setLast { p with payload := got, size := 32 + round32 (min got.length (pktRoom p)) } c) s)

/-- Whether the consumer may start on a packet: it has ended, or CUT bytes of it, header included, are written (R81). -/
def pktStartable (p : Packet) : Bool :=
  p.ended || (p.cut != 0 && decide (p.cut ≤ 32 + min p.payload.length (pktRoom p)))

/-- End the packet in progress: the bytes that arrived last, and its status (R77, R85 to R88). An Ethernet packet that
ends ABORTED with fewer than 64 bytes is not BAD as well: its frame was cut short, and may have been longer (DESIGN CHOICE,
log entry 81). -/
def endPacketNow (n : Nat) (more : List Nat) (aborted err : Bool) (p : Packet) (s : State) : State :=
    let c := chGet n s
    if chKind n = 2 ∧ err then
      xoffUpdate n (bump (chSet n { c with packets := c.packets.dropLast, offset := p.offset } s) (ING_BAD_PKTS n))
    else
      let bytes := p.payload ++ more
      let room := pktRoom p
      let written := bytes.take room
      let eth := chKind n = 1
      let huge := eth && decide (bytes.length + 4 ≥ 0xFFFF)
      let p1 := { p with
        len := if huge then 0xFFFF else written.length
        trunc := decide (bytes.length > room) || huge
        aborted := aborted
        bad := err || (decide eth && !aborted && decide (bytes.length + 4 < 64))
        malformed := huge
        size := 32 + round32 written.length
        ended := true
        payload := written }
      let c1 := { setLast p1 c with offset := p.offset + p1.size, seq := c.seq + 1, dropGap := 0 }
      xoffUpdate n (countStatus n p1 (chSet n c1 (bump s (ING_RX_PKTS n))))

/-- The packet in progress ends, if there is one: a packet boundary, at which a flush takes effect (R89). -/
def endPacket (n : Nat) (more : List Nat) (aborted err : Bool) (s : State) : State :=
  match (chGet n s).packets.getLast? with
  | none => s
  | some p => if p.ended then s else flushEffect n (endPacketNow n more aborted err p s)

/-- A packet starts and is placed, or is dropped whole for overrun (R78, R83); ING_CUT applies to it as it stands now
(R91). -/
def startPacket (n need stamp src0 src1 : Nat) (s0 : State) : State :=
  let s := flushEffect n (chSet n (ensureFilling true (passageDone (chGet n s0))) s0)
  let c := chGet n s
  let pl := place need c
  if pl = .full then
    bump (fon (chSet n { c with dropGap := clampNat 65535 (c.dropGap + 1) } s)
      (ING_STATUS n) ING_STATUS_OVR) (ING_OVR_PKTS n)
  else
    let c1 := placeBanks pl c
    let p : Packet := {
      seq := c.seq % 65536, len := 0, trunc := false, aborted := false, bad := false, malformed := false,
      dropGap := c.dropGap, stamp := stamp, src0 := src0, src1 := src1, bank := c1.fill, offset := c1.offset,
      size := 32, ended := false, taken := false, used := false, cut := fget s (ING_CUT n) ING_CUT_CUT, payload := [] }
    xoffUpdate n (chSet n { c1 with packets := c1.packets ++ [p] } s)

/-- The space a payload of a known length requires (R78). -/
def knownNeed (len : Nat) : Nat := 32 + round32 len

/-- Whether the address filter accepts a destination (R100). -/
def ethAccepts (n dest : Nat) (s : State) : Bool :=
  let i := n - 16
  let own := fget s (ING_ETH_MAC_LO i) fWord + 2 ^ 32 * fget s (ING_ETH_MAC_HI i) ING_ETH_MAC_HI_MAC_HI
  fbit s (ING_ETH_CFG i) ING_ETH_CFG_PROMISC || dest == own || dest == 2 ^ 48 - 1
    || (fbit s (ING_ETH_CFG i) ING_ETH_CFG_MULTI_EN && bitOf 40 dest)

/-- Whether the CAN filters accept a frame (R100). -/
def canAccepts (n id : Nat) (fdf xlf : Bool) (s : State) : Bool :=
  let i := n - 24
  let en := fget s (ING_CAN_FILTER_EN i) fWord
  let okId := en == 0 || (maskBits 32 en).any (fun f =>
    let m := fget s (ING_CAN_MASK i f) fWord
    decide (Nat.land id m = Nat.land (fget s (ING_CAN_ID i f) fWord) m))
  okId && (!fdf || xlf || fbit s (ING_CAN_CFG i) ING_CAN_CFG_FD_EN) && (!xlf || fbit s (ING_CAN_CFG i) ING_CAN_CFG_XL_EN)

/-- Whether the CSI-2 source block accepts a virtual channel and data type (R88, R100). -/
def csiAccepts (n vc dt : Nat) (s : State) : Bool :=
  bitOf vc (fget s (ING_CSI_CFG n) ING_CSI_CFG_VC_MASK)
    && (dt == fget s (ING_CSI_DT n) ING_CSI_DT_DT || (dt == 0x12 && fbit s (ING_CSI_CFG n) ING_CSI_CFG_EMB_EN))

/-- Whether a frame is PTP traffic of the port, which never enters the banks (R60). -/
def isPtp (et : Nat) (udp : Option Nat) : Bool := et == 0x88F7 || udp == some 319 || udp == some 320

/-- A frame starts at the MAC, whatever the banks do with it; the one before it, if it was still arriving, is not copied
(R97). -/
def macStart (n stamp : Nat) (st : RxStart) (early : List Nat) (s : State) : State :=
  match st with
  | .eth dest et _ udp =>
    let acc := chKind n == 1 && et != 0x8808 && !isPtp et udp && ethAccepts n dest s
    chSet n { chGet n s with arriving := acc, macStamp := (rxStamp (n - 16) stamp s).toNat, macBytes := early } s
  | _ => s

/-- The start of a frame that the banks never take ends the packet in progress ABORTED (R85). -/
def foreignStart (n : Nat) (got : List Nat) (s : State) : State :=
  let s1 := chSet n { chGet n s with arriving := false, macBytes := [] } s
  if unitHeld n s1 then s1 else endPacket n got true false s1

/-- A long packet of a virtual channel is counted since its Frame Start, by image lines and embedded data, from 0: the
number that it takes (R77, R159; DEDUCED, log entry 81). -/
def csiLine (n vc dt : Nat) (s : State) : Nat × State :=
  let c := chGet n s
  let k := 2 * (vc % 4) + b2n (dt != fget s (ING_CSI_DT n) ING_CSI_DT_DT)
  (nth c.lineNo k 0, chSet n { c with lineNo := setNth c.lineNo k (nth c.lineNo k 0 + 1) } s)

/-- A packet that a channel accepts begins (R77, R78, R87, R88). -/
def packetBegin (n stamp : Nat) (st : RxStart) (s : State) : State :=
  match st with
  | .csi vc dt wc corrected uncorrectable =>
    if chKind n ≠ 0 then s
    else if uncorrectable then bump s (ING_BAD_PKTS n)
    else
      let s1 := if corrected then fon s (ING_STATUS n) ING_STATUS_ECC_CORR else s
      if !csiAccepts n vc dt s1 then s1
      else
        let l := csiLine n vc dt s1
        if wc ≥ 0xFFFF then bump l.2 (ING_MALF_PKTS n)
        else startPacket n (knownNeed wc) (nth (chGet n s1).frameStamp (vc % 4) 0)
          (l.1 % 2 ^ 16 + dt % 64 * 2 ^ 16 + vc % 4 * 2 ^ 22) (nth (chGet n s1).frameNo (vc % 4) 0 % 2 ^ 16) l.2
  | .eth dest et pcp udp =>
    if chKind n ≠ 1 ∨ et = 0x8808 ∨ isPtp et udp = true ∨ !ethAccepts n dest s then s
    else startPacket n (32 + fget s (ING_MAXFRAME n) ING_MAXFRAME_MAXFRAME) (rxStamp (n - 16) stamp s).toNat
      (et % 2 ^ 16 + pcp % 8 * 2 ^ 16) 0 s
  | .can id ide fdf xlf len af =>
    if chKind n ≠ 2 ∨ !canAccepts n id fdf xlf s then s
    else startPacket n (knownNeed len) stamp
      (id % 2 ^ 29 + b2n ide * 2 ^ 29 + b2n fdf * 2 ^ 30 + b2n xlf * 2 ^ 31) (if xlf then af % 2 ^ 32 else 0) s

/-- A packet begins on a channel (R78, R85 to R88): one in progress ends ABORTED, whether or not EN still holds; the new one
is admitted while EN is 1 (R90), with the bytes that follow at once. One that arrives while the channel is held is not
received (R111). -/
def packetStart (n stamp : Nat) (st : RxStart) (got early : List Nat) (s1 : State) : State :=
  let s0 := macStart n stamp st early s1
  if unitHeld n s0 then s0
  else
    let s := endPacket n got true false s0
    if !fbit s (ING_CTRL n) ING_CTRL_EN then s
    else
      let t := packetBegin n stamp st s
      if inProgress (chGet n t) then bytesArrive n early t else t

/-- The consumer finishes its packet: a bank it emptied is released, and a flush that waited is done (R80, R89). -/
def finishPacket (n : Nat) (s : State) : State :=
  let c := passageDone (chGet n s)
  match c.packets with
  | [] => s
  | p :: r =>
    let c1 := { c with packets := r }
    let c2 := if bankGet p.bank c1 == .ready && !bankHolds p.bank c1 then passTo p.bank .free c1 else c1
    let en := fbit s (ING_CTRL n) ING_CTRL_EN
    let c3 := if !en && bankGet c2.fill c2 == .filling && !bankHolds c2.fill c2 then bankSet c2.fill .free c2 else c2
    let s1 := xoffUpdate n (chSet n c3 s)
    if c.flushed then flushDone n s1 else s1

/-! ## Control -/

/-- The banks follow EN; a sample read that waits is not made once EN is clear (R80, R90). -/
def enStore (n : Nat) (en : Bool) (s : State) : State :=
  let c := chGet n s
  chSet n (ensureFilling en { c with bound := if en then c.bound else [] }) s

/-- A write of ING_CTRL (R89, R90); a retired channel stays disabled (R381). -/
def ingCtrlWrite (n : Nat) (v : Word) (s : State) : State :=
  let a := ING_CTRL n
  let en := if fbit s (RST_UNIT n) RST_UNIT_RETIRED then 0 else getBits ING_CTRL_EN v
  let s1 := fset (fset (fset s a ING_CTRL_EN en) a ING_CTRL_XOFF_EN (getBits ING_CTRL_XOFF_EN v))
    a ING_CTRL_PFC_EN (getBits ING_CTRL_PFC_EN v)
  let s2 := if getBits ING_CTRL_FLUSH v = 1 then fon s1 a ING_CTRL_FLUSH else s1
  enStore n (en == 1) s2

/-- The receiver stops at a packet boundary after EN is cleared: a bank that holds nothing becomes FREE (R80, R90). -/
def receiverStop (n : Nat) (s : State) : State :=
  let c := chGet n s
  if fbit s (ING_CTRL n) ING_CTRL_EN || inProgress c then s
  else if bankGet c.fill c == .filling && !bankHolds c.fill c then chSet n (bankSet c.fill .free c) s
  else s

/-- CFG_REJECT of channel n is set. -/
def ingReject (n : Nat) (s : State) : State := fon s (ING_STATUS n) ING_STATUS_CFG_REJECT

/-- Whether CUT has a valid value (R100). -/
def cutOk (v : Nat) : Bool := v == 0 || decide (64 ≤ v ∧ v ≤ 65536 ∧ v % 32 = 0)

/-- Whether the watermarks have valid values (R93, R100). -/
def wmOk (v : Nat) : Bool := decide (natField 12 0 v < natField 28 16 v ∧ natField 28 16 v ≤ 4096)

/-- Whether MAXFRAME has a valid value (R100). -/
def maxframeOk (v : Nat) : Bool := decide (64 ≤ natField 16 0 v ∧ natField 16 0 v ≤ 65504)

/-- Whether a source-block word at an offset has values within their ranges (R100). -/
def sourceOk (kind off v : Nat) : Bool :=
  match kind, off with
  | 0, 0x100 => [1, 2, 4].contains (natField 2 0 v)
  | 3, 0x100 => decide (2 ≤ natField 9 2 v ∧ 1 ≤ natField 22 16 v ∧ natField 22 16 v ≤ 64)
  | 3, 0x104 => decide (125 ≤ natField 15 0 v)
  | 3, 0x118 => decide (natField 4 0 v ≤ 16)
  | 4, 0x100 => decide (natField 17 16 v ≤ 3)
  | 4, 0x104 => decide (50 ≤ natField 15 0 v)
  | _, _ => true

/-! ## Ledger -/

/-- How many banks are in a state. -/
def bankCount (st : BankSt) (s : State) : Nat :=
  (s.ing.map (fun c => b2n (c.bank0 == st) + b2n (c.bank1 == st))).sum

/-- The ING_LEDGER counts (R98, R99). -/
def ingLedgerWord (s : State) : Nat :=
  bankCount .free s + bankCount .filling s * 2 ^ 8 + bankCount .ready s * 2 ^ 16 + bankCount .inFlight s * 2 ^ 24
    + b2n (fbit s ING_LEDGER ING_LEDGER_ERR) * 2 ^ 31

/-- Whether the ingress ledger balances (R98). -/
def ingBalanced (s : State) : Bool :=
  bankCount .free s + bankCount .filling s + bankCount .ready s + bankCount .inFlight s == 64

/-- A bank token stays IN_FLIGHT beyond 1 µs (R99). -/
def bankTimeout (n : Nat) (s : State) : State :=
  if (chGet n s).passage.isSome then ledgerErr ING_LEDGER ING_LEDGER_ERR 18 n s else s

/-- The number of a bank state (R80). -/
def bankCode : BankSt → Nat
  | .free => 0 | .filling => 1 | .ready => 2 | .inFlight => 3

/-- The ING_BANKS word (R100). -/
def ingBanksWord (n : Nat) (s : State) : Nat :=
  let c := chGet n s
  bankCode c.bank0 + bankCode c.bank1 * 4 + c.fill % 2 * 16 + c.offset / 32 * 2 ^ 16

/-- The live bits of ING_STATUS (R100). -/
def ingStatusWord (n : Nat) (s : State) : Nat :=
  getBits fWord (setBits ⟨1, 1⟩ (setBits ⟨0, 0⟩ (rd s (ING_STATUS n)) (b2n (inProgress (chGet n s)))) (b2n (chFull n s)))

/-! ## Pause -/

/-- A pause of some priorities ends: transmission resumes for them, and held messages are sent (R96). -/
def pauseExpiry (port : Nat) (classes : List (Fin 8)) (s : State) : State :=
  let c := chGet (16 + port) s
  let rest := c.paused.filter (fun p => !(classes.map Fin.val).contains p)
  if rest.contains 0 then chSet (16 + port) { c with paused := rest } s
  else c.heldPtp.foldl (fun s m => sendPtp port m s) (chSet (16 + port) { c with paused := rest, heldPtp := [] } s)

/-- A received pause frame: its priorities stop, or resume when its time is 0 (R96); its start ends a packet in progress
(R85). -/
def pauseRx (port : Nat) (classes : List (Fin 8)) (time : Nat) (got : List Nat) (s0 : State) : State :=
  let s := foreignStart (16 + port) got s0
  if time = 0 then pauseExpiry port classes s
  else
    let c := chGet (16 + port) s
    let named := classes.map Fin.val
    chSet (16 + port) { c with paused := named.eraseDups ++ c.paused.filter (fun p => !named.contains p) } s

/-- A PTP frame arrives at a port; on Ethernet its start ends a packet in progress (R60, R85). -/
def ptpArrive (port pad bytes : Nat) (msg : PtpMsg) (frame : List Word) (got : List Nat) (s : State) : State :=
  ptpFrameRx port pad bytes msg frame (if port < 8 then foreignStart (16 + port) got s else s)

/-- The priority of a host frame: its PCP when it carries a VLAN tag, else 0 (R96). -/
def framePrio (f : TxFrame) : Nat :=
  let b := bytesOfWords (f.words.map BitVec.toNat)
  if nth b 12 0 = 0x81 ∧ nth b 13 0 = 0 then nth b 14 0 / 32 else 0

/-- The oldest host frame of a port departs unless its priority is paused; a dropped one leaves in any case. -/
def txDepartOrHold (port : Nat) (sent : Bool) (s : State) : State :=
  match s.ptp.txFrames.find? (fun f => f.port == port) with
  | some f => if sent ∧ pausedPrio port (framePrio f) s then s else txDepart port sent s
  | none => s

/-! ## Links, encoders and SPI -/

/-- A link is gained (R100). -/
def linkUp (n : Nat) (s : State) : State := fput s (ING_STATUS n) ING_STATUS_LINK true

/-- A link is lost: a packet in progress ends ABORTED, and the slave port's loss begins a holdover (R66, R85). -/
def linkLoss (n : Nat) (got : List Nat) (s : State) : State :=
  if 28 ≤ n then s
  else
    let s1 := endPacket n got true false (fput s (ING_STATUS n) ING_STATUS_LINK false)
    if 16 ≤ n ∧ n < 24 ∧ slavePort s1 = some (n - 16) then slaveHoldover s1 else s1

/-- A quadrature edge of an input (R55, R100): FILTER rejects pulses shorter than its time, and an illegal transition is
flagged. It is counted too, in the direction that the decoder reads it to have: R100 only flags it (DESIGN CHOICE, log
entry 81). -/
def encoderEdge (ch input : Nat) (forward illegal index : Bool) (delay width : Nat) (s : State) : State :=
  let n := 30 + ch
  if !bitOf input (fget s (ING_ENC_CFG ch) ING_ENC_CFG_EN) || unitHeld n s
    || decide (width < capFilter (fget s (ING_ENC_CFG ch) ING_ENC_CFG_FILTER)) then s
  else
    let s1 := runTo ((time16 s + delay) * 2 ^ 32) s
    let c := chGet n s1
    let e := nth c.inputs input ⟨0, 0, false, false, 0, false⟩
    let step : Int := if forward then 1 else -1
    let e1 := { e with
      count := e.count + step
      lastEdge := time16 s1
      forward := forward
      illegal := e.illegal || illegal
      index := if index && bitOf input (fget s1 (ING_ENC_CFG ch) ING_ENC_CFG_INDEX_EN) then e.index + 1 else e.index
      changed := true }
    fset (chSet n { c with inputs := setNth c.inputs input e1 } s1) (ING_ENC_COUNT ch input) fWord (unsigned 32 e1.count)

/-- The 16 report bytes of an input (R100). -/
def encBytes (e : EncInput) : List Nat :=
  toBytes 4 (unsigned 32 e.count) ++ toBytes 4 (e.lastEdge / 2 ^ 16 % 2 ^ 32)
    ++ toBytes 4 (e.lastEdge % 2 ^ 16 + b2n e.forward * 2 ^ 16 + b2n e.illegal * 2 ^ 17) ++ toBytes 4 (e.index % 2 ^ 32)

/-- Start the count report packet of an encoder channel: its payload and header word SRC0 (R77, R100). -/
def encoderReportStart (n : Nat) (s : State) : State :=
  if !fbit s (ING_CTRL n) ING_CTRL_EN || unitHeld n s then s
  else
    let c := chGet n s
    let src0 := ((List.range 8).map (fun i => b2n (nth c.inputs i ⟨0, 0, false, false, 0, false⟩).changed * 2 ^ i)).sum
    startPacket n (knownNeed 128) (time16 s) src0 0 s

/-- The report's inputs start anew when its period expires, written or not: R100 speaks of what changed since the last
report (DESIGN CHOICE, log entry 81). -/
def encoderClear (n : Nat) (s : State) : State :=
  let c := chGet n s
  chSet n { c with inputs := c.inputs.map (fun e => { e with illegal := false, changed := false }) } s

/-- The command bytes of a sample read (R100). -/
def spiCommand (ch : Nat) (s : State) : List Nat :=
  (bytesOfWords ((List.range 4).map (fun i => fget s (ING_SPI_CMD ch i) fWord))).take (fget s (ING_SPI_CMD_LEN ch) ING_SPI_CMD_LEN_CMD_LEN)

/-- A bound stamp or the PERIOD timer starts an SPI sample read (R77, R100): chip select asserts and the command bytes are
sent; a read in progress ends ABORTED (R85). -/
def spiStart (ch : Nat) (s0 : State) : State :=
  let n := 28 + ch
  let s := if !unitHeld n s0 then endPacket n [] true false s0 else s0
  let c := chGet n s
  let periodic := fbit s (ING_SPI_CFG ch) ING_SPI_CFG_PERIODIC
  if !fbit s (ING_CTRL n) ING_CTRL_EN || unitHeld n s then s
  else
    let go (stamp : Nat) (rest : List Nat) : State :=
      startPacket n (knownNeed (fget s (ING_SPI_CFG ch) ING_SPI_CFG_LEN)) stamp (c.spiCount % 2 ^ 16) 0
        (emit (.spiCommand ch (spiCommand ch s)) (chSet n { c with bound := rest, spiCount := c.spiCount + 1 } s))
    if periodic then go (time16 s) c.bound
    else match c.bound with
      | t :: r => go t r
      | [] => s

/-- A CAP stamp is delivered to its channel as the channel's sample time (R57). On an enabled IMU channel that reads on it,
it waits for that read; the other kinds take their packets' stamps from R77, and nothing reads it there. -/
def bindStamp (n t : Nat) (s : State) : State :=
  let c := { chGet n s with delivered := some t }
  if (n = 28 ∨ n = 29) ∧ fbit s (ING_CTRL n) ING_CTRL_EN ∧ !unitHeld n s ∧ !fbit s (ING_SPI_CFG (n - 28)) ING_SPI_CFG_PERIODIC then
    chSet n { c with bound := c.bound ++ [t] } s
  else chSet n c s

/-- A qualifying edge on a CAP pin (R56, R57, R70). -/
def capEdge (n : Nat) (falling : Bool) (delay width : Nat) (s0 : State) : State :=
  let s := runTo ((time16 s0 + delay) * 2 ^ 32) s0
  let t := time16 s0 + delay
  match capJudge n falling t width s with
  | .ignored => s
  | .missed => fon s (BLF_CAP_STATUS n) BLF_CAP_STATUS_MISSED
  | .stamped t =>
    let s1 := capSet n { capGet n s with last := some (t : Int) } s
    let a := BLF_CAP_CFG n
    let bound := fbit s1 a BLF_CAP_CFG_BIND_EN
    let s2 := if bound then bindStamp (fget s1 a BLF_CAP_CFG_BIND_CH) t s1 else s1
    let s3 := if !bound || fbit s2 a BLF_CAP_CFG_COPY then capPush n ⟨t, falling⟩ s2 else s2
    if ppsOn s3 && fget s3 BLF_CTRL BLF_CTRL_PPS_PIN == n then ppsEdge t s3 else s3

end Sys2Proof.Machine
end

