-- ==== Sys2Proof/Machine/Ego.lean ====
section
/-! DEFINITION. The ego-motion integrator, its modes, the pose track and the ego state record (R116 to R122). -/
namespace Sys2Proof.Machine

/-! ## Modes (R118) -/

def egoOff : Nat := 0
def egoInit : Nat := 1
def egoFull : Nat := 2
def egoImuOnly : Nat := 3
def egoWheelOnly : Nat := 4
def egoLost : Nat := 5

/-- Replace the integrator state. -/
def egoSet (e : EgoState) (s : State) : State := { s with ego := e }

/-- Seconds between two times in 2⁻¹⁶ ns. -/
def secs (d : Int) : Rat := (d : Rat) / ((2 ^ 16 * 10 ^ 9 : Nat) : Rat)

/-- The ego status bits [7:0] apart from EXTRAP and EXTRAP_CLAMP (R122). -/
def egoStatusBits (s : State) : Nat :=
  let e := s.ego
  e.mode % 8 + b2n e.zupt * 32 + b2n e.biasValid * 64 + b2n e.imuSwitched * 128

/-- The status bits a slice gathers from its start until ALIGN reads its pose (R122). -/
def noteEgo (s : State) : State :=
  { s with slices := s.slices.map (fun r =>
      if r.ego.isEmpty then { r with egoStatus := Nat.lor r.egoStatus (egoStatusBits s / 32 * 32) } else r) }

/-- The IMU block in use: the primary, or the other one after a switch (R118). -/
def imuInUse (s : State) : Nat :=
  let pri := fget s SLC_EGO_CFG SLC_EGO_CFG_IMU_PRI
  if s.ego.onBackup then 1 - pri else pri

/-- The integrator begins INIT (R118). -/
def egoStart (s : State) : State :=
  { s with ego := { EgoState.reset with mode := egoInit } }

/-- The integrator is switched off: the pose is the identity (R118). -/
def egoStop (s : State) : State := { s with ego := EgoState.reset }

/-! ## Inputs (R116) -/

/-- Bytes read as a number in a byte order. -/
def readField (big : Bool) (bs : List Nat) : Nat := ofBytes (if big then bs.reverse else bs)

/-- A raw axis of an IMU read: a signed field at an offset. -/
def imuRaw (i : Nat) (payload : List Nat) (off : Nat) (s : State) : Int :=
  let w := if fbit s (SLC_IMU_GYRO i) SLC_IMU_GYRO_WIDTH then 4 else 2
  signed (8 * w) (readField (fbit s (SLC_IMU_GYRO i) SLC_IMU_GYRO_BIG_ENDIAN) (slice off w payload))

/-- An axis code of AXIS_MAP applied to a vector in IMU axes. -/
def axisPick (code : Nat) (v : List Rat) : Rat := if code < 4 then vget v code else -(vget v (code - 4))

/-- A vector of three raw fields, scaled to 10⁻⁹ units an LSB and turned into B's axes. -/
def imuVector (i scale o0 o1 o2 : Nat) (payload : List Nat) (s : State) : List Rat :=
  let k : Rat := (scale : Rat) / (10 ^ 9 : Nat)
  let v : List Rat := [o0, o1, o2].map (fun o => (imuRaw i payload o s : Rat) * k)
  let m := fget s (SLC_IMU_AXIS_MAP i) SLC_IMU_AXIS_MAP_AXIS_MAP
  [axisPick (natField 2 0 m) v, axisPick (natField 6 4 m) v, axisPick (natField 10 8 m) v]

/-- The measured rate of an IMU read, in rad/s in B. -/
def imuRate (i : Nat) (payload : List Nat) (s : State) : List Rat :=
  let a := SLC_IMU_GYRO i
  imuVector i (fget s (SLC_IMU_GYRO_SCALE i) fWord) (fget s a SLC_IMU_GYRO_GX) (fget s a SLC_IMU_GYRO_GY)
    (fget s a SLC_IMU_GYRO_GZ) payload s

/-- The measured specific force of an IMU read, in m/s² in B. -/
def imuForce (i : Nat) (payload : List Nat) (s : State) : List Rat :=
  let a := SLC_IMU_ACC i
  imuVector i (fget s (SLC_IMU_ACC_SCALE i) fWord) (fget s a SLC_IMU_ACC_AX) (fget s a SLC_IMU_ACC_AY)
    (fget s a SLC_IMU_ACC_AZ) payload s

/-- The mean of a list of numbers; 0 of none. -/
def mean (l : List Rat) : Rat := if l.isEmpty then 0 else l.sum / l.length

/-- The mean speed of the wheel inputs whose SIDE is among those given. -/
def wheelMean (sides : List Nat) (s : State) : Rat :=
  mean (((List.range 16).filter (fun i => sides.contains (fget s (SLC_WHEEL i) SLC_WHEEL_SIDE))).map
    (fun i => nth s.ego.speeds i 0))

/-- The forward wheel speed u_w (R116). -/
def wheelSpeed (s : State) : Rat := wheelMean [1, 2, 3] s

/-! ## Integration (R117) -/

/-- Standard gravity in L. -/
def gravity : List Rat := [0, 0, -(980665 / 100000)]

/-- Note an input the integrator has stepped to. -/
def stepped (t : Int) (p : Pose) (e : EgoState) : EgoState :=
  { e with before := e.pose, beforeT := e.last.getD t, pose := p, last := some t }

/-- A velocity in L with its B components changed. -/
def inBody (q v : List Rat) (f : List Rat → List Rat) : List Rat := qrot q (f (qrot (qconj q) v))

/-- The standstill step of R117: no velocity, and the gyro bias is the mean rate since the wheels stopped. -/
def egoStill (e : EgoState) : EgoState :=
  { e with
    pose := { e.pose with v := vzero }
    gyroBias := if e.gyroCount = 0 then e.gyroBias else vscale (1 / (e.gyroCount : Rat)) e.gyroSum
    biasValid := true
    zupt := true }

/-- Velocity and position of a step of R117 to an attitude q and a rate w, with an acceleration in L: wheel blend, unless
only the IMU is left, lateral and vertical damping, and position. -/
def egoMove (t : Int) (q w acc : List Rat) (s : State) : EgoState :=
  let e := s.ego
  let d := secs (t - e.last.getD t)
  let v1 := vadd e.pose.v (vscale d acc)
  let tw : Rat := (fget s SLC_EGO_TAU SLC_EGO_TAU_TAU_WHEEL : Rat) / 1000
  let tn : Rat := (fget s SLC_EGO_TAU SLC_EGO_TAU_TAU_NHC : Rat) / 1000
  let v2 := if e.mode ≠ egoImuOnly then
      inBody q v1 (fun b => [vget b 0 + (wheelSpeed s - vget b 0) * d / tw, vget b 1, vget b 2])
    else v1
  let v3 := if fbit s SLC_EGO_CFG SLC_EGO_CFG_NHC_EN then
      inBody q v2 (fun b => [vget b 0, vget b 1 * (1 - d / tn), vget b 2 * (1 - d / tn)])
    else v2
  stepped t ⟨vadd e.pose.p (vscale (d / 2) (vadd e.pose.v v3)), q, v3, w⟩ e

/-- One inertial step of R117: attitude, velocity, wheel blend, lateral and vertical damping, position, and standstill
while it lasts. -/
def imuStep (t : Int) (rate force : List Rat) (s : State) : State :=
  let e := s.ego
  let w := vsub rate e.gyroBias
  let q := Config.renormalise (qmul e.pose.q (Config.rotExp (vscale (secs (t - e.last.getD t)) w)))
  let e1 := { egoMove t q w (vadd (qrot q force) gravity) s with
    gyroSum := vadd e.gyroSum rate, gyroCount := e.gyroCount + 1 }
  egoSet (if e.zupt && e.mode == egoFull && fbit s SLC_EGO_CFG SLC_EGO_CFG_ZUPT_EN then egoStill e1 else e1) s

/-- One step of WHEEL_ONLY (R117): the yaw turns about L's vertical, so that roll and pitch are held, and the velocity
follows the wheels; no specific force is known. -/
def wheelStep (t : Int) (s : State) : State :=
  let e := s.ego
  let track : Rat := (fget s SLC_EGO_TRACK SLC_EGO_TRACK_TRACK : Rat) / 1000
  let yaw : List Rat := [0, 0, (wheelMean [2] s - wheelMean [1] s) / track]
  let q := Config.renormalise (qmul (Config.rotExp (vscale (secs (t - e.last.getD t)) yaw)) e.pose.q)
  let e1 := egoMove t q (qrot (qconj q) yaw) vzero s
  egoSet (if e.zupt && fbit s SLC_EGO_CFG SLC_EGO_CFG_ZUPT_EN then { e1 with pose := { e1.pose with v := vzero } } else e1) s

/-- Whether an ego input comes before the newest finalised knot (R120). -/
def egoTooLate (t : Int) (s : State) : Bool :=
  match s.ego.knots with
  | k :: _ => decide (t < (k.t * 2 ^ 16 : Nat))
  | [] => false

/-- Count an ego input that came too late (R120, R122). -/
def countEgoLate (s : State) : State :=
  { bump s SLC_EGO_LATE with slices := updOpen (fun r => { r with egoLate := r.egoLate + 1 }) s.slices }

/-- Count an ego input in the slice whose interval holds its time (R111); LOST integrates none (log entry 67, DEDUCED). -/
def countEgoSample (n : Nat) (t : Int) (s : State) : State :=
  if s.ego.mode = egoLost then s else
  let s1 := bump s (SLC_CH_SAMPLES n)
  { s1 with slices := s1.slices.map (fun r =>
      if ((r.start * 2 ^ 16 : Nat) : Int) < t ∧ t ≤ (r.tov * 2 ^ 16 : Nat) then
        chanUpd n (fun c => { c with samples := clampNat 65535 (c.samples + 1) }) r
      else r) }

/-- Both sources are present again: the mode returns to FULL (R118). -/
def egoRejoin (s : State) : State :=
  let e := s.ego
  if e.imuPresent ∧ e.wheelPresent ∧ (e.mode = egoImuOnly ∨ e.mode = egoWheelOnly ∨ e.mode = egoLost) then
    egoSet { e with mode := egoFull, heldStill := false } s
  else s

/-- An IMU read of block i at time t (R116 to R118). -/
def imuSample (i : Nat) (t : Int) (payload : List Nat) (s : State) : State :=
  if s.ego.mode = egoOff ∨ imuInUse s ≠ i then s
  else if egoTooLate t s then countEgoLate s
  else
    let s1 := countEgoSample (28 + i) t (egoRejoin (egoSet { s.ego with imuTime := some t, imuPresent := true } s))
    let rate := imuRate i payload s1
    let force := imuForce i payload s1
    if s1.ego.mode = egoInit then
      egoSet { s1.ego with forceSum := vadd s1.ego.forceSum force, forceCount := s1.ego.forceCount + 1, last := some t } s1
    else if s1.ego.mode = egoFull ∨ s1.ego.mode = egoImuOnly then imuStep t rate force s1
    else s1

/-- One input of a count report: its speed over the report, and whether it moved (R116). -/
def wheelInput (i : Nat) (rec : List Nat) (s : State) : State × Bool :=
  let e := s.ego
  let raw := signed 32 (ofBytes (slice 0 4 rec))
  let edge := ofBytes (slice 4 4 rec) * 2 ^ 16 + ofBytes (slice 8 2 rec)
  let old := nth e.wheelLast i (0, 0)
  let dc := signed 32 (unsigned 32 (raw - old.1))
  let dt : Nat := (edge + 2 ^ 48 - old.2) % 2 ^ 48
  let mm : Rat := (dc : Rat) * (fget s (SLC_WHEEL i) SLC_WHEEL_SCALE : Rat) / (2 ^ 16 : Nat)
  let sp : Rat := if dc = 0 ∨ dt = 0 then 0 else mm / 1000 / secs (Int.ofNat dt)
  let sp1 := if fbit s (SLC_WHEEL i) SLC_WHEEL_INVERT then -sp else sp
  (egoSet { e with wheelLast := setNth e.wheelLast i (raw, edge), speeds := setNth e.speeds i sp1 } s,
   dc != 0 && fget s (SLC_WHEEL i) SLC_WHEEL_SIDE != 0)

/-- The inputs of a count report, in order. -/
def wheelInputs (base : Nat) (payload : List Nat) (s : State) : State × Bool :=
  (List.range 8).foldl (fun a k =>
    let r := wheelInput (base + k) (slice (16 * k) 16 payload) a.1
    (r.1, a.2 || r.2)) (s, false)

/-- A count report of encoder channel ch (0 or 1) at time t (R116 to R118). While an IMU is in use its samples make the
steps, and a report gives the speed that the next step blends "at the latest wheel report"; R117 also reads as a step at
each report (DESIGN CHOICE, log entry 82). -/
def wheelReport (ch : Nat) (t : Int) (payload : List Nat) (s : State) : State :=
  if s.ego.mode = egoOff then s
  else if egoTooLate t s then countEgoLate s
  else
    let r := wheelInputs (8 * ch) payload s
    let e := r.1.ego
    let e1 := { e with wheelTime := some t, wheelPresent := true }
    let e2 := if r.2 then { e1 with gyroSum := vzero, gyroCount := 0, zupt := false } else e1
    let s1 := countEgoSample (30 + ch) t (egoRejoin (egoSet e2 r.1))
    if s1.ego.mode = egoWheelOnly then wheelStep t s1 else s1

/-! ## Mode changes by time (R117, R118) -/

/-- INIT_TIME from the first IMU sample ends: levelled attitude, forward speed of the wheels, knots from now. -/
def initEnd (s : State) : State :=
  let e := s.ego
  if e.mode ≠ egoInit ∨ e.forceCount = 0 then s
  else
    let q := Config.levelAttitude (vscale (1 / (e.forceCount : Rat)) e.forceSum)
    let p : Pose := ⟨vzero, q, qrot q [wheelSpeed s, 0, 0], vzero⟩
    egoSet { e with
      mode := egoFull, pose := p, before := p, beforeT := e.last.getD 0
      nextKnot := (lin s + 124999) / 125000 * 125000 } s

/-- No wheel report for four report periods. -/
def wheelAbsent (s : State) : State :=
  let e := { s.ego with wheelPresent := false }
  if e.mode = egoFull then egoSet { e with mode := egoImuOnly, zupt := false } s
  else if e.mode = egoWheelOnly then egoSet { e with mode := egoLost } s
  else egoSet e s

/-- No sample from the IMU in use for 2 ms: in any mode but OFF a backup takes over in the same mode. -/
def imuAbsent (s : State) : State :=
  let e := s.ego
  if e.mode ≠ egoOff && fbit s SLC_EGO_CFG SLC_EGO_CFG_IMU_BACKUP && !e.onBackup then
    noteEgo (egoSet { e with onBackup := true, imuSwitched := true } s)
  else if e.mode ≠ egoFull ∧ e.mode ≠ egoImuOnly then egoSet { e with imuPresent := false } s
  else
    let e1 := { e with imuPresent := false }
    if e.mode = egoFull ∧ fget s SLC_EGO_TRACK SLC_EGO_TRACK_TRACK ≠ 0 then egoSet { e1 with mode := egoWheelOnly } s
    else egoSet { e1 with mode := egoLost } s

/-- IMU_ONLY has lasted IMU_ONLY_MAX. -/
def imuOnlyMax (s : State) : State :=
  if s.ego.mode = egoImuOnly then egoSet { s.ego with mode := egoLost } s else s

/-- In LOST, EXTRAP_MAX has passed: the pose is held still. -/
def extrapMax (s : State) : State :=
  if s.ego.mode = egoLost then
    egoSet { s.ego with heldStill := true, pose := { s.ego.pose with v := vzero, w := vzero } } s
  else s

/-- 100 ms of continuous samples of the primary IMU. -/
def primaryReturn (s : State) : State :=
  if s.ego.onBackup then egoSet { s.ego with onBackup := false, imuSwitched := false } s else s

/-- Every used wheel has counted nothing for ZUPT_TIME (R117). -/
def zuptDetect (s : State) : State :=
  let e := s.ego
  if !fbit s SLC_EGO_CFG SLC_EGO_CFG_ZUPT_EN then s
  else if e.mode = egoFull then noteEgo (egoSet (egoStill e) s)
  else if e.mode = egoWheelOnly then noteEgo (egoSet { e with pose := { e.pose with v := vzero }, zupt := true } s)
  else s

/-! ## Knots (R120) -/

/-- The pose at a knot time: a step's own pose, constant motion when LOST, else between two steps. -/
def knotPose (tau : Nat) (s : State) : Pose :=
  let e := s.ego
  let t : Int := (tau * 2 ^ 16 : Nat)
  if e.last = some t then e.pose
  else if e.mode = egoLost then
    match e.knots with
    | k :: _ => if e.heldStill then { k.pose with v := vzero, w := vzero } else poseAhead k.pose (secs (t - (k.t * 2 ^ 16 : Nat)))
    | [] => e.pose
  else
    let span := secs (e.last.getD t - e.beforeT)
    poseOf (Config.knotBetween (poseList e.before) (poseList e.pose)
      (if span = 0 then 0 else secs (t - e.beforeT) / span))

/-- Finalise the next knot: the history keeps the newest 8,192. -/
def finaliseKnot (s : State) : State :=
  let e := s.ego
  egoSet { e with
    knots := (⟨e.nextKnot, knotPose e.nextKnot s⟩ :: e.knots).take 8192, nextKnot := e.nextKnot + 125000 } s

/-- Whether every source in use has been integrated at or past a time. -/
def sourcesPast (tau : Nat) (s : State) : Bool :=
  let t : Int := (tau * 2 ^ 16 : Nat)
  let past (o : Option Int) : Bool := match o with | some x => decide (t ≤ x) | none => false
  let m := s.ego.mode
  (if m = egoFull ∨ m = egoImuOnly then past s.ego.imuTime else true)
    && (if m = egoFull ∨ m = egoWheelOnly then past s.ego.wheelTime else true)

/-- Whether knots are issued (R118, R120). -/
def knotsOn (s : State) : Bool := s.ego.mode != egoOff && s.ego.mode != egoInit

/-- A knot time is reached and every source has passed it. -/
def knotDue (s : State) : State :=
  if knotsOn s && sourcesPast s.ego.nextKnot s && s.ego.mode != egoLost then finaliseKnot s else s

/-- EGO_WAIT has passed after a knot time. -/
def knotWait (s : State) : State :=
  if knotsOn s then
    finaliseKnot (runTo ((s.ego.nextKnot + fget s SLC_EGO_EXTRAP SLC_EGO_EXTRAP_EGO_WAIT * 1000) * unitsPerNs) s)
  else s

/-! ## The pose at a time (R121) -/

/-- A time in 2⁻¹⁶ ns rounded to a multiple of 100 ns of the linear count, ties later. -/
def round100 (t : Int) : Int := (t + 50 * 2 ^ 16) / (100 * 2 ^ 16) * 100

/-- The knots around a linear count, newest first: the pose between them. -/
def poseInside : List Knot → Int → Option Pose
  | b :: a :: r, t =>
    if t ≥ (a.t : Int) then some (poseBetween a.pose b.pose (secs ((b.t - a.t : Int) * 2 ^ 16))
      ((t - a.t : Rat) / ((b.t - a.t : Int) : Rat)))
    else poseInside (a :: r) t
  | _, _ => none

/-- A pose with the EXTRAP and EXTRAP_CLAMP bits of its finding. -/
structure PoseAt where
  pose : Pose
  extrap : Bool
  clamped : Bool
  deriving DecidableEq, Repr

/-- The pose at a rounded linear count (R121). -/
def poseAt (t : Int) (s : State) : PoseAt :=
  if s.ego.mode = egoOff then ⟨Pose.still, false, false⟩
  else match s.ego.knots with
    | [] => ⟨s.ego.pose, true, false⟩
    | k :: r =>
      if t = k.t then ⟨k.pose, false, false⟩
      else if t > k.t then
        let lim : Int := fget s SLC_EGO_EXTRAP SLC_EGO_EXTRAP_EXTRAP_MAX * 1000
        let d := if t - k.t > lim then lim else t - k.t
        ⟨poseAhead k.pose (secs (d * 2 ^ 16)), true, decide (t - k.t > lim)⟩
      else match poseInside (k :: r) t with
        | some p => ⟨p, false, false⟩
        | none => ⟨((k :: r).getLast?.getD k).pose, false, false⟩

/-- The ego state record: 20 words (R122). -/
def egoRecord (t : Int) (a : PoseAt) (status : Nat) : List Nat :=
  let q32 (x : Rat) (k : Nat) : Nat := unsigned 32 (ratFree (x * (2 ^ k : Nat)))
  let q64 (x : Rat) : List Nat :=
    let u := unsigned 64 (ratFree (x * (2 ^ 32 : Nat)))
    [u % 2 ^ 32, u / 2 ^ 32]
  let vb := qrot (qconj a.pose.q) a.pose.v
  (a.pose.p.flatMap q64) ++ a.pose.q.map (fun x => q32 x 30) ++ vb.map (fun x => q32 x 16)
    ++ a.pose.w.map (fun x => q32 x 16) ++ [status] ++ [unsigned 64 t % 2 ^ 32, unsigned 64 t / 2 ^ 32, 0]

/-- EGO_STATUS as it reads live (R126). -/
def egoStatusLive (s : State) : Nat :=
  let a := poseAt (lin s) s
  egoStatusBits s + b2n a.extrap * 8 + b2n a.clamped * 16

end Sys2Proof.Machine
end

