-- ==== Sys2Proof/Machine/Align.lean ====
section
/-! DEFINITION. The slice aligner: sample times, admission, loss notes, sensor clocks and de-skew (R102 to R125). -/
namespace Sys2Proof.Machine

/-! ## Channels -/

/-- The aligner's view of channel n. -/
def alnGet (n : Nat) (s : State) : AlnChan := nth s.aln n AlnChan.reset
/-- Replace it. -/
def alnSet (n : Nat) (c : AlnChan) (s : State) : State := { s with aln := setNth s.aln n c }

/-- Whether a channel's samples are aligned. -/
def chanEn (n : Nat) (s : State) : Bool := fbit s (SLC_CH_CFG n) SLC_CH_CFG_EN

/-- The state code of a channel: UNSYNC before SILENT before OK (R111, R112). -/
def chanState (n : Nat) (s : State) : Nat :=
  let c := alnGet n s
  if !chanEn n s then 0 else if c.unsync then 3 else if c.silent then 2 else 1

/-- SLC_CH_STATUS STATE and LO_ONLY follow the channel's state. -/
def chanStatus (n : Nat) (s : State) : State :=
  fput (fset s (SLC_CH_STATUS n) SLC_CH_STATUS_STATE (chanState n s)) (SLC_CH_STATUS n) SLC_CH_STATUS_LO_ONLY
    (chanEn n s && (alnGet n s).unsync)

/-- A run is in progress for the consumers: a slice is open (R81). -/
def consuming (s : State) : Bool := s.slices.any (fun r => !r.closed)

/-- CFG_REJECT of the channel block. -/
def slcReject (n : Nat) (s : State) : State := fon s (SLC_CH_STATUS n) SLC_CH_STATUS_CFG_REJECT

/-- TIME_BAD of the channel. -/
def timeBad (n : Nat) (s : State) : State := fon s (SLC_CH_STATUS n) SLC_CH_STATUS_TIME_BAD

/-! ## Losses (R111) -/

/-- The losses a packet notes: itself when a STATUS bit is set, and its DROP_GAP in full. -/
def packetLoss (n : Nat) (p : Packet) (s : State) : State :=
  let k := b2n (pktBad p) + p.dropGap
  if k = 0 then s else noteLoss n k s

/-! ## Sample times (R103, R104) -/

/-- The multiple of T_UNIT in ns. -/
def timeUnit (n : Nat) (s : State) : Nat := nth [1, 10, 100, 1000] (fget s (SLC_CH_FMT n) SLC_CH_FMT_T_UNIT) 1

/-- The offset TOFF + TOFF_CAL in force, in 2⁻¹⁶ ns. -/
def chanOffset (n : Nat) (s : State) : Int := (alnGet n s).toff * 2 ^ 14

/-- Whether the channel is timed by its sensor. -/
def sensorTimed (n : Nat) (s : State) : Bool := fbit s (SLC_CH_CFG n) SLC_CH_CFG_TIME_SRC

/-- The packet sensor time at HDR_T_OFF in ns; none when it extends past the payload. -/
def packetTime (n : Nat) (payload : List Nat) (s : State) : Option Nat :=
  let o := fget s (SLC_CH_HDR_T_OFF n) SLC_CH_HDR_T_OFF_HDR_T_OFF
  if o + 8 ≤ payload.length then some (readField (fbit s (SLC_CH_FMT n) SLC_CH_FMT_BIG_ENDIAN) (slice o 8 payload)) else none

/-- The raw time field of a point. -/
def pointTime (n : Nat) (pt : List Nat) (s : State) : Nat :=
  let w := if fbit s (SLC_CH_FMT n) SLC_CH_FMT_T_SIZE then 8 else 4
  readField (fbit s (SLC_CH_FMT n) SLC_CH_FMT_BIG_ENDIAN) (slice (fget s (SLC_CH_OFFS n) SLC_CH_OFFS_T_OFF) w pt)

/-- The sample time of a packet or point, in 2⁻¹⁶ ns (R103): rel is the point's raw time field. A frame that holds no
points has no absolute time of a point: with T_ABS set it takes the packet's sensor time (DESIGN CHOICE, log entry 82). -/
def sampleTime (n stamp sensor rel : Nat) (s : State) : Int :=
  let r := rel * timeUnit n s
  let base : Int :=
    if !sensorTimed n s then ((stamp + r * 2 ^ 16 : Nat) : Int)
    else if fbit s (SLC_CH_FMT n) SLC_CH_FMT_T_ABS && fbit s (SLC_CH_CFG n) SLC_CH_CFG_POINTS then ((r * 2 ^ 16 : Nat) : Int)
    else (((sensor + r) * 2 ^ 16 : Nat) : Int)
  base + chanOffset n s

/-- A coordinate field as FP32 or int32 × SCALE µm (R104). -/
def coordVal (n : Nat) (pt : List Nat) (off : Nat) (s : State) : FpVal :=
  let w := readField (fbit s (SLC_CH_FMT n) SLC_CH_FMT_BIG_ENDIAN) (slice off 4 pt)
  if fbit s (SLC_CH_FMT n) SLC_CH_FMT_COORD then fpDecode fp32 w
  else .num ((signed 32 w : Rat) * (fget s (SLC_CH_FMT n) SLC_CH_FMT_SCALE : Rat) / (10 ^ 6 : Nat))

/-- The three coordinates of a point. -/
def pointCoords (n : Nat) (pt : List Nat) (s : State) : List FpVal :=
  [coordVal n pt (fget s (SLC_CH_OFFS n) SLC_CH_OFFS_X_OFF) s, coordVal n pt (fget s (SLC_CH_OFFS n) SLC_CH_OFFS_Y_OFF) s,
   coordVal n pt (fget s (SLC_CH_OFFS n) SLC_CH_OFFS_Z_OFF) s]

/-- A point whose coordinates are discarded uncounted: a NaN, or all zero while ZERO_INVALID is set. -/
def pointDiscarded (n : Nat) (cs : List FpVal) (s : State) : Bool :=
  cs.contains .nan || (fbit s (SLC_CH_CFG n) SLC_CH_CFG_ZERO_INVALID && cs.all (fun c => c == .num 0))

/-- The number of a coordinate; an infinity has none. -/
def coordNum : FpVal → Rat
  | .num r => r
  | _ => 0

/-- Whether a coordinate is a number. -/
def coordFinite : FpVal → Bool
  | .num _ => true
  | _ => false

/-- The points of a payload: STRIDE bytes each from FIRST. -/
def payloadPoints (n : Nat) (payload : List Nat) (s : State) : List (List Nat) :=
  let first := fget s (SLC_CH_POINT n) SLC_CH_POINT_FIRST
  let stride := fget s (SLC_CH_POINT n) SLC_CH_POINT_STRIDE
  if stride = 0 then [] else (List.range ((payload.length - first) / stride)).map (fun i => slice (first + i * stride) stride payload)

/-! ## Admission (R105 to R109) -/

/-- What a sample brings to the slice it joins. -/
inductive Sample where
  | point (x : List Rat) (finite : Bool)
  | frame (buffer : Nat) (payload : List Nat)
  deriving DecidableEq, Repr

/-- Whether a sample's own slice had closed when it joined slice o: its time is not after the boundary at which o starts,
whatever the slice lengths before (R105, R108, R125). -/
def ownClosed (t : Int) (o : SliceRec) : Bool := decide (t ≤ ((o.start * 2 ^ 16 : Nat) : Int))

/-- LATE_LIMIT in 2⁻¹⁶ ns. -/
def lateLimit (s : State) : Int := ((fget s SLC_LATE_LIMIT SLC_LATE_LIMIT_LATE_LIMIT * 10 ^ 6 * 2 ^ 16 : Nat) : Int)

/-- The sample put into a slice: a point or frame for levels P and F, or evidence for level O alone (R115). -/
def joinSlice (n : Nat) (t : Int) (x : Sample) (unsync : Bool) (est : Nat) (r : SliceRec) : SliceRec :=
  if unsync then
    let e : Evidence := match x with
      | .point p _ => ⟨n, t, p, false, 0, est⟩
      | .frame b _ => ⟨n, t, [], true, b, est⟩
    chanUpd n (fun c => { c with loOnly := true }) { r with evidence := r.evidence ++ [e] }
  else match x with
    | .point p fin => { r with points := r.points ++ [⟨n, t, p, fin⟩] }
    | .frame b pl => { r with frames := r.frames ++ [⟨n, t, b, pl, none⟩] }

/-- The LO evidence list holds 16,384 records (R234). -/
def loFull (r : SliceRec) : Bool := decide (16384 ≤ r.evidence.length)

/-- A LO_ONLY sample that finds the list full (R234). -/
def loDrop (s : State) : State := bump (fon s ATN_STATUS ATN_STATUS_LO_OVF) ATN_LO_DROPPED

/-- The sample joins slice o (R108): its age, its lateness, and what it brings. -/
def admitSample (n : Nat) (t : Int) (x : Sample) (o : SliceRec) (s : State) : State :=
  let c := alnGet n s
  let age := ((o.tov * 2 ^ 16 : Nat) : Int) - t
  let late := ownClosed t o
  let defer := fbit s (SLC_CH_CFG n) SLC_CH_CFG_DEFER
  let est := (signed 32 (fget s (SLC_CH_OFFSET_EST n) fWord)).natAbs
  let full := c.unsync && loFull o
  let up (r : SliceRec) : SliceRec :=
    let r1 := if full then r else joinSlice n t x c.unsync est r
    let r2 := chanUpd n (fun k => { k with
      samples := clampNat 65535 (k.samples + 1), late := k.late || (late && !defer) }) r1
    { r2 with
      lateAdmitted := r2.lateAdmitted + b2n (late && !defer)
      oldestAge := clampNat (2 ^ 32 - 1) (max r2.oldestAge (divFree age (2 ^ 16)).toNat) }
  let s1 := bump { s with slices := s.slices.map (fun r => if r.seq = o.seq then up r else r) } (SLC_CH_SAMPLES n)
  let s2 := if full then loDrop s1 else s1
  if late then (if defer then bump s2 (SLC_CH_DEFERRED n) else bump s2 (SLC_CH_LATE_ADMITTED n)) else s2

/-- Mark DROPPED for a channel in the oldest open slice. -/
def noteDropped (n : Nat) (s : State) : State :=
  { s with slices := updOpen (chanUpd n (fun c => { c with dropped := true })) s.slices }

/-- A sample has been taken: silence ends (R112, R126). -/
def noteTaken (n : Nat) (t : Int) (s : State) : State :=
  let c := alnGet n s
  let s1 := chanStatus n (alnSet n { c with silent := false, quietFrom := upNs s } s)
  fset s1 (SLC_CH_LAST_LIN n) fWord (unsigned 32 (t / 2 ^ 16))

/-- A sample of a PERCEPTION channel is taken (R108). -/
def takeSample (n : Nat) (t : Int) (x : Sample) (s0 : State) : State :=
  let s := noteTaken n t s0
  match s.slices.find? (fun r => !r.closed && decide (t ≤ ((r.tov * 2 ^ 16 : Nat) : Int))) with
  | none => noteDropped n (timeBad n (bump s (SLC_CH_FUTURE_DROPPED n)))
  | some o =>
    if ((o.tov * 2 ^ 16 : Nat) : Int) - t > lateLimit s then
      let s1 := bump s (SLC_CH_LATE_DROPPED n)
      { s1 with slices := s1.slices.map (fun r =>
          if r.seq = o.seq then { chanUpd n (fun c => { c with dropped := true }) r with lateDropped := r.lateDropped + 1 } else r) }
    else admitSample n t x o s

/-! ## Packets the consumer takes (R102, R113, R115) -/

/-- A packet's sensor time enters the channel's offset window (R113). -/
def noteOffset (n stamp sensor : Nat) (s : State) : State :=
  let d : Int := (stamp : Int) - ((sensor + fget s (SLC_CH_NOMLAT n) SLC_CH_NOMLAT_NOMLAT) * 2 ^ 16 : Nat)
  let c := alnGet n s
  alnSet n { c with windowMin := some (match c.windowMin with | some m => if d < m then d else m | none => d) } s

/-- A point of a packet is taken, or discarded uncounted. -/
def takePoint (n stamp sensor : Nat) (s : State) (pt : List Nat) : State :=
  let cs := pointCoords n pt s
  if pointDiscarded n cs s then s
  else takeSample n (sampleTime n stamp sensor (pointTime n pt s) s) (.point (cs.map coordNum) (cs.all coordFinite)) s

/-- The samples of a good Ethernet packet (R102 to R104). -/
def takeEthernet (n : Nat) (p : Packet) (s : State) : State :=
  let needs := sensorTimed n s
  match packetTime n p.payload s, needs with
  | none, true => timeBad n s
  | pt, _ =>
    let sensor := pt.getD 0
    let s1 := if needs then noteOffset n p.stamp sensor s else s
    if fbit s1 (SLC_CH_CFG n) SLC_CH_CFG_POINTS then
      (payloadPoints n p.payload s1).foldl (takePoint n p.stamp sensor) s1
    else takeSample n (sampleTime n p.stamp sensor 0 s1) (.frame 0 p.payload) s1

/-- The samples of a packet that ended, by the channel's role (R102, R116); camera lines are not the aligner's. -/
def takePacket (n : Nat) (p : Packet) (s0 : State) : State :=
  let s := packetLoss n p s0
  if pktBad p || !chanEn n s || decide (n < 16) then s
  else match fget s (SLC_CH_CFG n) SLC_CH_CFG_ROLE with
    | 1 => if chKind n = 3 then imuSample (n - 28) (sampleTime n p.stamp 0 0 s) p.payload (noteTaken n (sampleTime n p.stamp 0 0 s) s) else s
    | 2 => if chKind n = 4 then wheelReport (n - 30) (sampleTime n p.stamp 0 0 s) p.payload (noteTaken n (sampleTime n p.stamp 0 0 s) s) else s
    | _ =>
      if chKind n = 1 then takeEthernet n p s
      else takeSample n (sampleTime n p.stamp 0 0 s) (.frame 0 p.payload) s

/-- Whether the aligner's consumers may take packets: a run is in progress and their unit is not fenced (R81, R99). -/
def alignerTakes (s : State) : Bool := consuming s && !unitFenced flatAligner s && !unitHeld flatAligner s

/-! ## Silence and sensor clocks -/

/-- No sample for 3 × FRAME_PERIOD during a run (R112). -/
def silentTimeout (n : Nat) (s : State) : State :=
  if chanEn n s && consuming s && !(alnGet n s).silent then
    let due := (alnGet n s).quietFrom + 3 * fget s (SLC_CH_FRAME_PERIOD n) SLC_CH_FRAME_PERIOD_FRAME_PERIOD * 1000
    let s1 := runToUp due s
    chanStatus n (alnSet n { alnGet n s1 with silent := true } s1)
  else s

/-- The threshold θ in ns (R114). -/
def syncTheta (n : Nat) (s : State) : Nat :=
  min (sliceLen s) (fget s (SLC_CH_FRAME_PERIOD n) SLC_CH_FRAME_PERIOD_FRAME_PERIOD * 1000)

/-- A window end on one channel (R113, R114). -/
def windowEnd (n : Nat) (s : State) : State :=
  if !chanEn n s || !sensorTimed n s then s
  else
    let c := alnGet n s
    let s1 := match c.windowMin with
      | some d => fset s (SLC_CH_OFFSET_EST n) fWord (unsigned 32 (clampInt (-(2 ^ 31 : Int)) (2 ^ 31 - 1) (divFree d (2 ^ 16))))
      | none => s
    let est := (signed 32 (fget s1 (SLC_CH_OFFSET_EST n) fWord)).natAbs
    let th := syncTheta n s1
    let c0 := { c with windowMin := none }
    if est > th then
      let s2 := fon (alnSet n { c0 with unsync := true, okCount := 0 } s1) (SLC_CH_STATUS n) SLC_CH_STATUS_UNSYNC_SEEN
      chanStatus n { s2 with slices := s2.slices.map (fun r => if r.closed then r else { r with unsync := true }) }
    else if !c.unsync then alnSet n c0 s1
    else if 2 * est ≤ th then
      let k := c.okCount + 1
      if fget s1 SLC_SYNC SLC_SYNC_CNT ≤ k then chanStatus n (alnSet n { c0 with unsync := false, okCount := 0 } s1)
      else alnSet n { c0 with okCount := k } s1
    else alnSet n { c0 with okCount := 0 } s1

/-- The present SLC_SYNC window ends on every channel (R113). -/
def syncWindowEnd (s : State) : State :=
  let w := fget s SLC_SYNC SLC_SYNC_WIN * 10 ^ 6
  if w = 0 then s else forUpTo 32 windowEnd (runTo (nextBoundary (lin s) w * unitsPerNs) s)

/-! ## Slices -/

/-- The correction of a sensor's extrinsic: δθ in nrad, then δt in nm (R170, R175). -/
def corrOf (n : Nat) (s : State) : List Int :=
  (List.range 3).map (fun i => signed 32 (fget s (CAM_DTHETA n i) fWord))
    ++ (List.range 3).map (fun i => signed 32 (fget s (CAM_DT n i) fWord))

/-- A slice starts: its notes are fresh, and the offsets and corrections in force are those written by now (R103, R105,
R115, R123). -/
def freshSlice (seq start tov : Nat) (s : State) : SliceRec where
  seq := seq
  tov := tov
  start := start
  closed := false
  oldestAge := 0
  lateAdmitted := 0
  lateDropped := 0
  chans := List.replicate 32 ChanSlice.fresh
  corr := (List.range 24).map (fun n => corrOf n s)
  unsync := s.aln.any (fun c => c.unsync)
  holdover := false
  points := []
  frames := []
  evidence := []
  deskewed := []
  ego := []
  egoStatus := egoStatusBits s / 32 * 32
  egoLate := 0
  begun := 1
  finished := 0
  levels := List.replicate 8 0
  half := fbit s DEV_RUN DEV_RUN_HALF
  secP := []
  secF := []
  secO := []
  secC := []
  tileCoarse := false
  list := none
  items := []
  minSlack := none
  poisoned := false
  committed := false
  starts := List.replicate 8 0
  raised := false
  golden := false
  goldClear := false
  boost := 0
  hdr := []
  calOut := none
  fRebuilt := false
  strips := []
  spireStages := 0

/-- TOFF and TOFF_CAL written by now apply from this slice start (R103, R126). -/
def latchOffsets (s : State) : State :=
  forUpTo 32 (fun n s => alnSet n { alnGet n s with
    toff := signed 32 (fget s (SLC_CH_TOFF n) fWord) + signed 32 (fget s (SLC_CH_TOFF_CAL n) fWord) } s) s

/-- The older open slice closes; the channels' states at its close enter its status words (R106, R111). -/
def closeSlice (s : State) : State :=
  { s with slices := updOpen (fun r => { r with
      closed := true
      finished := Nat.lor r.finished 1
      chans := (List.range 32).map (fun n => { nth r.chans n ChanSlice.fresh with state := chanState n s }) }) s.slices }

/-- A sensor status word (R111). -/
def statusWord (c : ChanSlice) : Nat :=
  c.state % 4 + b2n c.late * 4 + b2n c.dropped * 8 + b2n c.loss * 16 + b2n c.loOnly * 32
    + clampNat 255 c.lossPkts * 2 ^ 8 + clampNat 65535 c.samples * 2 ^ 16

/-! ## De-skew (R123, R124, R234) -/

/-- The calibrated extrinsic of a sensor applied to a point: nominal after the slice's correction (R123, R170). -/
def extrinsic (r : SliceRec) (sensor : Nat) (x : List Rat) (s : State) : List Rat :=
  let q30 (w : Nat) : Rat := (signed 32 w : Rat) / (2 ^ 30 : Nat)
  let q : List Rat := q30 (fget s (CAM_NOM_QW sensor) fWord) :: (List.range 3).map (fun i => q30 (fget s (CAM_NOM_Q sensor i) fWord))
  let um (w : Nat) : Rat := (signed 32 w : Rat) / (10 ^ 6 : Nat)
  let t := (List.range 3).map (fun i => um (fget s (CAM_NOM_T sensor i) fWord))
  let c : List Rat := (nth r.corr sensor []).map (fun (k : Int) => (k : Rat) / (10 ^ 9 : Nat))
  let dth := slice 0 3 c
  let dt := slice 3 3 c
  vadd (qrot q (vadd (qrot (Config.rotExp dth) x) dt)) t

/-- A point of a slice in B at its ToV, with the pose bits its finding set (R123). -/
def deskewPoint (r : SliceRec) (s : State) (p : PointRec) : DeskewedPoint :=
  if !p.finite then ⟨p.ch, p.t, [0x7F800000, 0x7F800000, 0x7F800000]⟩
  else
    let a := (poseAt (round100 p.t) s).pose
    let b := (poseAt r.tov s).pose
    ⟨p.ch, p.t, (carry a b (extrinsic r p.ch p.x s)).map fp32Free⟩

/-- The pair of poses a frame passes on with (R124). -/
def framePoses (tov : Nat) (s : State) (f : FrameRec) : FrameRec :=
  { f with poses := some ((poseAt (round100 f.t) s).pose, (poseAt tov s).pose) }

/-- The eight words of an evidence record (R234): the position in signed mm, and the inflation radius. -/
def evidenceWords (r : SliceRec) (s : State) (e : Evidence) : List Nat :=
  let b := (poseAt r.tov s).pose
  let pos := if e.isFrame then [0, 0, 0]
    else (carry (poseAt (round100 e.t) s).pose b (extrinsic r e.ch e.x s)).map (fun c => unsigned 32 (ratFree (c * 1000)))
  let speed := Config.root (vdot b.v b.v)
  let infl := (e.offset : Rat) / (10 ^ 9 : Nat) * (speed * 1000 + (fget s SLC_VOBJ SLC_VOBJ_VOBJ : Rat))
  [e.ch % 32 + b2n e.isFrame * 32, unsigned 32 (e.t / 2 ^ 16)] ++ pos
    ++ [(clampInt 0 (2 ^ 32 - 1) (ratFree infl)).toNat, if e.isFrame then e.buffer else 0, 0]

/-- ALIGN reads the ToV pose and de-skews what its slice admitted (R121 to R124). -/
def alignWork (r : SliceRec) (s : State) : SliceRec :=
  let a := poseAt r.tov s
  let ex := a.extrap || r.points.any (fun p => (poseAt (round100 p.t) s).extrap)
  let cl := a.clamped || r.points.any (fun p => (poseAt (round100 p.t) s).clamped)
  let st := Nat.lor (Nat.lor r.egoStatus (egoStatusBits s / 32 * 32)) (b2n ex * 8 + b2n cl * 16) / 8 * 8 + s.ego.mode % 8
  { r with
    deskewed := r.points.map (deskewPoint r s)
    frames := r.frames.map (framePoses r.tov s)
    egoStatus := st
    ego := egoRecord r.tov a (st % 256 + clampNat 255 r.egoLate * 256) }

end Sys2Proof.Machine
end

