-- ==== Sys2Proof/Machine/Camera.lean ====
section
/-! DEFINITION. The camera front end, its frame buffers, and the bird's-eye grid (R157 to R168). -/
namespace Sys2Proof.Machine

/-! ## Lanes and buffers -/

/-- Lane n. -/
def laneGet (n : Nat) (s : State) : Lane := nth s.lanes n Lane.reset
/-- Replace lane n. -/
def laneSet (n : Nat) (l : Lane) (s : State) : State := { s with lanes := setNth s.lanes n l }
/-- Buffer b of a lane. -/
def bufGet (b : Nat) (l : Lane) : FrameBuf := nth l.bufs b FrameBuf.reset
/-- Replace buffer b. -/
def bufSet (b : Nat) (f : FrameBuf) (l : Lane) : Lane := { l with bufs := setNth l.bufs b f }

/-- Whether channel n feeds its lane. -/
def laneOn (n : Nat) (s : State) : Bool := chanEn n s && fbit s (CAM_CFG n) CAM_CFG_EN && !unitHeld flatCamera s

/-- The settings a frame is developed with, latched at Frame Start (R157): BAYER, MODEL, size, BLACK, gains, matrix,
knots, output size, intrinsics and lens. -/
def frameSettings (n : Nat) (s : State) : List Nat :=
  [fget s (CAM_CFG n) CAM_CFG_BAYER, fget s (CAM_CFG n) CAM_CFG_MODEL, fget s (CAM_SIZE n) CAM_SIZE_WIDTH,
   fget s (CAM_SIZE n) CAM_SIZE_HEIGHT, fget s (CAM_BLACK n) CAM_BLACK_BLACK, fget s (CAM_GAIN_RG n) CAM_GAIN_RG_GAIN_R,
   fget s (CAM_GAIN_RG n) CAM_GAIN_RG_GAIN_G, fget s (CAM_GAIN_B n) CAM_GAIN_B_GAIN_B,
   fget s (CAM_OUT n) CAM_OUT_OUT_W, fget s (CAM_OUT n) CAM_OUT_OUT_H]
  ++ (List.range 4).map (fun m => fget s (CAM_MATRIX n m) fWord) ++ [fget s (CAM_C22 n) CAM_C22_C22]
  ++ (List.range 9).map (fun m => fget s (CAM_KNOT n m) fWord)
  ++ (List.range 4).map (fun m => fget s (CAM_RECT n m) fWord)
  ++ (List.range 10).map (fun m => fget s (CAM_LENS n m) fWord)

/-- WIDTH, HEIGHT, OUT_W and OUT_H of a frame. -/
def inWidth (f : FrameBuf) : Nat := nth f.settings 2 0
def inHeight (f : FrameBuf) : Nat := nth f.settings 3 0
def outWidth (f : FrameBuf) : Nat := nth f.settings 8 0
def outHeight (f : FrameBuf) : Nat := nth f.settings 9 0

/-- The number of a free buffer of a lane. -/
def freeBuf (l : Lane) : Option Nat := (List.range 3).find? (fun b => (bufGet b l).st == .free)

/-- The camera phases of slices no longer run on a buffer of a lane. -/
def dropStrips (n b : Nat) (s : State) : State :=
  { s with slices := s.slices.map (fun r => { r with strips := r.strips.filter (fun x => x.lane != n || x.buf != b) }) }

/-- The lane abandons its frame, counting it where the condition names a counter (R159). The lane goes on with the frame
whose Frame Start came next, if one has (DEDUCED, log entry 84). -/
def abandonFrame (n : Nat) (counter : Option Nat) (s : State) : State :=
  let l := laneGet n s
  match l.cur with
  | none => s
  | some b =>
    let s1 := dropStrips n b (laneSet n { bufSet b FrameBuf.reset l with cur := l.next.head?, next := l.next.tail } s)
    match counter with
    | some a => bump s1 a
    | none => s1

/-- A frame's buffer joins its lane: at once, or behind the frame in assembly (R159). -/
def beginFrame (n b : Nat) (f : FrameBuf) (s : State) : State :=
  let l := laneGet n s
  let l1 := { bufSet b f l with lastLine := upNs s }
  laneSet n (if l.cur.isNone then { l1 with cur := some b } else { l1 with next := l.next ++ [b] }) s

/-- A Frame Start short packet of a virtual channel (R55, R159, R160), stamped when the link left LP for HS: the virtual
channel counts its lines anew, and a new frame begins in the lane. -/
def frameStart (n vc number stamp : Nat) (s0 : State) : State :=
  if !fbit s0 (ING_CTRL n) ING_CTRL_EN || unitHeld n s0 then s0
  else
    let c := chGet n s0
    let s := fset (chSet n { c with
        frameNo := setNth c.frameNo vc (number % 65536)
        frameStamp := setNth c.frameStamp vc stamp
        lineNo := setNth (setNth c.lineNo (2 * vc) 0) (2 * vc + 1) 0 } s0)
      (ING_CSI_FRAMES n) ING_CSI_FRAMES_FRAMES (fget s0 (ING_CSI_FRAMES n) ING_CSI_FRAMES_FRAMES + 1)
    if !laneOn n s || !fbit s (CAM_STATUS n) CAM_STATUS_READY then s
    else match freeBuf (laneGet n s) with
      | none => bump s (CAM_LOST_NOBUF n)
      | some b => beginFrame n b { FrameBuf.reset with
          st := .filling, number := number % 65536, stamp := stamp, settings := frameSettings n s } s

/-- The RAW12 pixels of a line: three bytes hold two of them. -/
def unpack12 : List Nat → List Nat
  | a :: b :: c :: r => (a * 16 + c % 16) :: (b * 16 + c / 16) :: unpack12 r
  | _ => []

/-- Black level (R157 stage 2). -/
def blackLevel (black : Nat) (line : List Nat) : List Nat := line.map (fun p => p - black)

/-! ## Development of a pixel (R157) -/

/-- An index mirrored at the edges of n rows or columns, so that the colours of the Bayer order go on (R157 stage 3;
DEDUCED, log entry 84). -/
def edgeIndex (n : Nat) (k : Int) : Nat := if k < 0 then (-k).toNat else if (n : Int) ≤ k then (2 * ((n : Int) - 1) - k).toNat else k.toNat

/-- A raw value of a frame, less the black level. -/
def rawPixel (f : FrameBuf) (row col : Int) : Nat :=
  nth (nth f.lines (edgeIndex (inHeight f) row) []) (edgeIndex (inWidth f) col) 0 - nth f.settings 4 0

/-- The colour that a pixel of a Bayer order measures: 0 R, 1 G, 2 B. -/
def bayerColour (order row col : Nat) : Nat :=
  nth (nth [[0, 1, 1, 2], [1, 0, 2, 1], [1, 2, 0, 1], [2, 1, 1, 0]] order []) (2 * (row % 2) + col % 2) 0

/-- The 5 × 5 window about a pixel, row by row. -/
def bayerWindow (f : FrameBuf) (row col : Nat) : List Nat :=
  (List.range 5).flatMap (fun (i : Nat) => (List.range 5).map (fun (j : Nat) =>
    rawPixel f ((row : Int) + i - 2) ((col : Int) + j - 2)))

/-- The three components of a pixel: the measured one, and two interpolated from the window (R157 stage 3). -/
def demosaicPixel (f : FrameBuf) (row col : Nat) : List Nat :=
  let c := bayerColour (nth f.settings 0 0) row col
  setNth ((List.range 3).map (fun k => Config.demosaic c k (bayerWindow f row col) % 4096)) c (rawPixel f row col)

/-- White balance and colour matrix of a demosaiced pixel: components clamp to 0 to 4,095. -/
def colourPixel (st : List Nat) (rgb : List Nat) : List Int :=
  let wb (k : Nat) : Int := ((nth rgb k 0 : Nat) : Int) * (nth st (5 + k) 0 : Nat)
  let coef (k : Nat) : Int := signed 16 (nth st (10 + k / 2) 0 / 65536 ^ (k % 2))
  (List.range 3).map (fun r => clampInt 0 4095 (divFree
    (coef (3 * r) * wb 0 + coef (3 * r + 1) * wb 1 + coef (3 * r + 2) * wb 2) (4096 * 4096)))

/-- Tone knot i of the settings. -/
def toneKnot (st : List Nat) (i : Nat) : Nat := nth st (15 + i / 4) 0 / 256 ^ (i % 4) % 256

/-- The piecewise-linear tone curve (R157 stage 6). -/
def tone (st : List Nat) (v : Int) : Nat :=
  let x := v.toNat
  let i := x / 128
  let a : Int := toneKnot st i
  let b : Int := toneKnot st (i + 1)
  (a + divFree ((b - a) * ((x % 128 : Nat) : Int)) 128).toNat

/-- A developed pixel of a frame (R157 stages 2 to 6). -/
def developPixel (f : FrameBuf) (row col : Nat) : List Nat :=
  (colourPixel f.settings (demosaicPixel f row col)).map (tone f.settings)

/-! ## Rectification (R158) -/

/-- A lens word of the settings as a number: RAW_FX, RAW_FY, RAW_CX, RAW_CY, K1 to K4, P1, P2. -/
def lensWord (st : List Nat) (i : Nat) : Rat := ofFp32 (nth st (28 + i) 0)
/-- A word of the rectified camera: RECT_FX, RECT_FY, RECT_CX, RECT_CY. -/
def rectWord (st : List Nat) (i : Nat) : Rat := ofFp32 (nth st (24 + i) 0)

/-- Brown–Conrady distortion of a normalised point (PRESUMED, log entry 84). -/
def brownConrady (st : List Nat) (x y : Rat) : Rat × Rat :=
  let r2 := x * x + y * y
  let k := 1 + lensWord st 4 * r2 + lensWord st 5 * r2 * r2 + lensWord st 6 * r2 * r2 * r2
  let p1 := lensWord st 8
  let p2 := lensWord st 9
  (x * k + 2 * p1 * x * y + p2 * (r2 + 2 * x * x), y * k + p1 * (r2 + 2 * y * y) + 2 * p2 * x * y)

/-- Equidistant fisheye distortion of a normalised point (PRESUMED, log entry 84). -/
def fisheye (st : List Nat) (x y : Rat) : Rat × Rat :=
  let r := Config.root (x * x + y * y)
  if r = 0 then (x, y)
  else
    let a := Config.arctan r
    let a2 := a * a
    let d := a * (1 + lensWord st 4 * a2 + lensWord st 5 * a2 * a2 + lensWord st 6 * a2 * a2 * a2 + lensWord st 7 * a2 * a2 * a2 * a2)
    (x * d / r, y * d / r)

/-- The source position that the lens model gives an output pixel: column, row. -/
def lensSource (st : List Nat) (row col : Nat) : Rat × Rat :=
  let x := ((col : Rat) - rectWord st 2) / rectWord st 0
  let y := ((row : Rat) - rectWord st 3) / rectWord st 1
  let d := if nth st 1 0 = 0 then brownConrady st x y else fisheye st x y
  (lensWord st 0 * d.1 + lensWord st 2, lensWord st 1 * d.2 + lensWord st 3)

/-- A mesh point, at every 32nd output pixel: within 0.05 pixels of the model. -/
def meshPoint (st : List Nat) (i j : Nat) : Rat × Rat :=
  let p := lensSource st (32 * i) (32 * j)
  let d := Config.meshDev st i j
  let clip (x : Rat) : Rat := max (-(1 / 20)) (min (1 / 20) x)
  (p.1 + clip d.1, p.2 + clip d.2)

/-- The bilinear mean of four values. -/
def bilinear (fx fy a b c d : Rat) : Rat := (1 - fy) * ((1 - fx) * a + fx * b) + fy * ((1 - fx) * c + fx * d)

/-- The source position of an output pixel, interpolated in the mesh: column, row. -/
def meshSource (st : List Nat) (row col : Nat) : Rat × Rat :=
  let m (i j : Nat) : Rat × Rat := meshPoint st (row / 32 + i) (col / 32 + j)
  let fx : Rat := ((col % 32 : Nat) : Rat) / 32
  let fy : Rat := ((row % 32 : Nat) : Rat) / 32
  (bilinear fx fy (m 0 0).1 (m 0 1).1 (m 1 0).1 (m 1 1).1, bilinear fx fy (m 0 0).2 (m 0 1).2 (m 1 0).2 (m 1 1).2)

/-- Whether an output pixel's source lies inside the developed image (R158). -/
def sourceInside (st : List Nat) (row col : Nat) : Bool :=
  let p := meshSource st row col
  decide (0 ≤ p.1 ∧ p.1 ≤ ((nth st 2 0 : Nat) : Rat) - 1 ∧ 0 ≤ p.2 ∧ p.2 ≤ ((nth st 3 0 : Nat) : Rat) - 1)

/-- An output pixel: the bilinear sample at its source, or 0 outside the image (R158). -/
def outputPixel (f : FrameBuf) (row col : Nat) : List Nat :=
  if !sourceInside f.settings row col then [0, 0, 0]
  else
    let p := meshSource f.settings row col
    let x0 := p.1.floor.toNat
    let y0 := p.2.floor.toNat
    let px (dy dx k : Nat) : Rat := ((nth (developPixel f (y0 + dy) (x0 + dx)) k 0 : Nat) : Rat)
    (List.range 3).map (fun k => (ratFree (bilinear (p.1 - (x0 : Rat)) (p.2 - (y0 : Rat))
      (px 0 0 k) (px 0 1 k) (px 1 0 k) (px 1 1 k))).toNat)

/-- An output row. -/
def outputRow (f : FrameBuf) (row : Nat) : List (List Nat) := (List.range (outWidth f)).map (outputPixel f row)

/-- Whether every developed row that an output row draws from has been written: the rows of its sources, the row below
for the bilinear sample, and two more for the demosaic window. -/
def rowReady (f : FrameBuf) (row : Nat) : Bool :=
  (List.range (outWidth f)).all (fun col => !sourceInside f.settings row col
    || decide (min (inHeight f) ((meshSource f.settings row col).2.floor.toNat + 4) ≤ f.lines.length))

/-- The output rows that the lines written so far make ready. -/
def newRows (f : FrameBuf) : List Nat :=
  ((List.range (outHeight f - f.image.length)).map (f.image.length + ·)).takeWhile (rowReady f)

/-- The ready rows are written to the frame buffer, and a frame with a source outside the image is counted once. -/
def writeRows (n b : Nat) (s : State) : State :=
  let f := bufGet b (laneGet n s)
  let rows := newRows f
  let oob := f.oob || rows.any (fun r => (List.range (outWidth f)).any (fun c => !sourceInside f.settings r c))
  let s1 := laneSet n (bufSet b { f with image := f.image ++ rows.map (outputRow f), oob := oob } (laneGet n s)) s
  if oob && !f.oob then bump s1 (CAM_RECT_OOB n) else s1

/-! ## Lines -/

/-- Whether a packet carries a loss of its frame: a STATUS bit, or dropped packets before it (R82, R159). -/
def packetLossy (p : Packet) : Bool := pktBad p || p.dropGap != 0

/-- The counter of the first condition of R159 that a line of the frame meets, if it meets one. -/
def lineFault (n : Nat) (p : Packet) (f : FrameBuf) : Option Nat :=
  let line := p.src0 % 2 ^ 16
  if p.len ≠ inWidth f * 3 / 2 ∨ line ≥ inHeight f then some (CAM_LOST_SHAPE n)
  else if line ≠ f.lines.length then some (CAM_LOST_SHAPE n)
  else if packetLossy p then some (CAM_LOST_LINE n)
  else none

/-- A line of the frame in buffer b is developed, and the output rows it completes are written (R157, R158). -/
def lineWrite (n b : Nat) (p : Packet) (s : State) : State :=
  let l := laneGet n s
  let f := bufGet b l
  let f1 := { f with lines := f.lines ++ [unpack12 p.payload] }
  let full := f1.lines.length = inHeight f
  let l1 := { bufSet b (if full then { f1 with st := .features } else f1) l with lastLine := upNs s }
  writeRows n b (laneSet n (if full then { l1 with cur := l.next.head?, next := l.next.tail } else l1) s)

/-- Whether frame number a is newer than b, modulo 65,536. -/
def newerFrame (a b : Nat) : Bool := let d := (a + 65536 - b) % 65536; decide (0 < d ∧ d < 32768)

/-- A line of a newer frame has come: the frames before it are abandoned short (R159). -/
def advanceFrame (n number : Nat) : Nat → State → State
  | 0, s => s
  | k + 1, s =>
    match (laneGet n s).cur with
    | none => s
    | some b =>
      if newerFrame number (bufGet b (laneGet n s)).number then advanceFrame n number k (abandonFrame n (some (CAM_LOST_SHORT n)) s)
      else s

/-- A packet of the frame in assembly (R159): embedded data can only carry a loss. -/
def frameTake (n : Nat) (line : Bool) (p : Packet) (s : State) : State :=
  match (laneGet n s).cur with
  | none => s
  | some b =>
    let f := bufGet b (laneGet n s)
    if p.src1 % 2 ^ 16 ≠ f.number then s
    else if !line then (if packetLossy p then abandonFrame n (some (CAM_LOST_LINE n)) s else s)
    else match lineFault n p f with
      | some a => abandonFrame n (some a) s
      | none => lineWrite n b p s

/-- A long packet of a camera channel ends (R157, R159): a line is developed, or its frame is abandoned. -/
def lineDevelop (n : Nat) (p : Packet) (s : State) : State :=
  if !laneOn n s then s
  else
    let line := p.src0 / 2 ^ 16 % 64 == fget s (ING_CSI_DT n) ING_CSI_DT_DT
    frameTake n line p (if line then advanceFrame n (p.src1 % 2 ^ 16) 3 s else s)

/-- No line for 2 × FRAME_PERIOD (R159). -/
def frameLineTimeout (n : Nat) (s : State) : State :=
  let l := laneGet n s
  if l.cur.isSome then
    abandonFrame n (some (CAM_LOST_TMO n)) (runToUp (l.lastLine
      + 2 * fget s (SLC_CH_FRAME_PERIOD n) SLC_CH_FRAME_PERIOD_FRAME_PERIOD * 1000) s)
  else s

/-- The mesh of a lane is built anew: READY and MESH_ERR are clear meanwhile (R158). -/
def meshStart (n : Nat) (s : State) : State :=
  let s1 := fput (fput s (CAM_STATUS n) CAM_STATUS_READY false) (CAM_STATUS n) CAM_STATUS_MESH_ERR false
  laneSet n { laneGet n s1 with meshing := true } s1

/-- Cupola firmware completes the mesh, or cannot build it to accuracy (R158). -/
def meshDone (n : Nat) (built : Bool) (s : State) : State :=
  if (laneGet n s).meshing && fbit s (CAM_CFG n) CAM_CFG_EN then
    let s1 := laneSet n { laneGet n s with meshing := false } s
    if built then fon s1 (CAM_STATUS n) CAM_STATUS_READY else fon s1 (CAM_STATUS n) CAM_STATUS_MESH_ERR
  else s

/-! ## Features (R161, R204) -/

/-- The strips of STRIP rectified rows of a buffer that are complete and have no features yet; the last of a frame may be
shorter (R204). -/
def bufStrips (strip n b : Nat) (f : FrameBuf) : List CamStrip :=
  if strip = 0 ∨ (f.st ≠ .filling ∧ f.st ≠ .features) then []
  else (List.range (outHeight f / strip + 1)).filterMap (fun k =>
    let stop := min ((k + 1) * strip) (outHeight f)
    if f.features < stop ∧ k * strip < stop ∧ stop ≤ f.image.length then some ⟨n, b, stop⟩ else none)

/-- The strips over which a slice's camera phase runs: those complete as its CAMERA stage begins. -/
def dueStrips (strip : Nat) (s : State) : List CamStrip :=
  (List.range 16).flatMap (fun n => (List.range 3).flatMap (fun b => bufStrips strip n b (bufGet b (laneGet n s))))

/-- Whether every feature strip of a frame has been written. -/
def featured (f : FrameBuf) : Bool := f.st == .features && f.features == outHeight f

/-- The last feature strip of the oldest complete frame is written: the frame is taken as a sample (R102, R161). A frame
that joins no slice frees its buffer. -/
def frameReport (n : Nat) (s : State) : State :=
  let l := laneGet n s
  match (List.range 3).filter (fun b => featured (bufGet b l)) with
  | [] => s
  | b0 :: bs =>
    if !alignerTakes s then s
    else
      let b := bs.foldl (fun x y => if (bufGet y l).stamp < (bufGet x l).stamp then y else x) b0
      let f := bufGet b l
      let joined (s : State) : Nat := (s.slices.map (fun r => r.frames.length + r.evidence.length)).sum
      let s1 := takeSample n (sampleTime n f.stamp 0 0 s) (.frame b []) (bump s (CAM_FRAMES_OK n))
      let ok := decide (joined s < joined s1)
      let s2 := if ok then { s1 with cal := { s1.cal with frames := setNth s1.cal.frames n (some (sampleTime n f.stamp 0 0 s)) } } else s1
      laneSet n (bufSet b (if ok then { f with st := .toLift } else FrameBuf.reset) (laneGet n s2)) s2

/-! ## The grid -/

/-- The tile index of a coordinate in L, 6.4 m a tile (R162, R128). -/
def tileOf (x : Rat) : Int := (x / (64 / 10)).floor

/-- GX0 and GY0. -/
def gridX0 (s : State) : Int := signed 32 (fget s CAM_GX0 fWord)
def gridY0 (s : State) : Int := signed 32 (fget s CAM_GY0 fWord)

/-- The 256 tiles of a window. -/
def windowTiles (gx gy : Int) : List (Int × Int) :=
  (List.range 16).flatMap (fun (j : Nat) => (List.range 16).map (fun (i : Nat) => (gx + (i : Int), gy + (j : Int))))

/-- The effective level of the projection engine and the fusion head (R166). -/
def effLevel (half : Bool) (g : Nat) : Nat := if half then max g 1 else g

/-- The window follows the machine's tile at the start of FUSE (R163): features of tiles that leave it are forgotten. -/
def gridShift (r : SliceRec) (s : State) : State :=
  let p := (poseAt r.tov s).pose.p
  let mx := tileOf (vget p 0)
  let my := tileOf (vget p 1)
  let out (m g : Int) : Bool := decide (m - (g + 8) > 1 ∨ (g + 8) - m > 1)
  if out mx (gridX0 s) || out my (gridY0 s) then
    let old := windowTiles (gridX0 s) (gridY0 s)
    let new := windowTiles (mx - 8) (my - 8)
    let s1 := fon (fset (fset s CAM_GX0 fWord (unsigned 32 (mx - 8))) CAM_GY0 fWord (unsigned 32 (my - 8)))
      CAM_GRID_ST CAM_GRID_ST_SHIFT
    { s1 with grid := { s1.grid with
      feats := s1.grid.feats.filter (fun e => new.contains (e.tx, e.ty))
      shifted := true
      entered := new.filter (fun t => !old.contains t) } }
  else { s with grid := { s.grid with shifted := false, entered := [] } }

/-- A point of L in the frame of camera n at a time in 2⁻¹⁶ ns, under the extrinsic calibrated with a correction: E_c⁻¹
T(t)⁻¹ P (R164). -/
def toCamera (n : Nat) (corr : List Int) (t : Int) (p : List Rat) (s : State) : List Rat :=
  let q30 (w : Nat) : Rat := (signed 32 w : Rat) / (2 ^ 30 : Nat)
  let qn : List Rat := q30 (fget s (CAM_NOM_QW n) fWord) :: (List.range 3).map (fun i => q30 (fget s (CAM_NOM_Q n i) fWord))
  let tn := (List.range 3).map (fun i => (signed 32 (fget s (CAM_NOM_T n i) fWord) : Rat) / (10 ^ 6 : Nat))
  let c : List Rat := corr.map (fun (k : Int) => (k : Rat) / (10 ^ 9 : Nat))
  let a := (poseAt (round100 t) s).pose
  let b := qrot (qconj a.q) (vsub p a.p)
  qrot (qconj (Config.rotExp (slice 0 3 c))) (vsub (qrot (qconj qn) (vsub b tn)) (slice 3 3 c))

/-- A camera-frame point projected into the rectified image: column, row. -/
def rectProject (n : Nat) (x : List Rat) (s : State) : Rat × Rat :=
  let k (i : Nat) : Rat := ofFp32 (fget s (CAM_RECT n i) fWord)
  (k 0 * vget x 0 / vget x 2 + k 2, k 1 * vget x 1 / vget x 2 + k 3)

/-- Where a frame sees a point of L, with its rolling shutter: the camera-frame point and the pixel, unless it is out of
the depth range or of the image (R164). -/
def liftPoint (n : Nat) (corr : List Int) (t : Int) (p : List Rat) (s : State) : Option (List Rat × (Rat × Rat)) :=
  let v0 := (rectProject n (toCamera n corr t p s) s).2
  let tr := t + ratFree ((v0 - ofFp32 (fget s (CAM_RECT n 3) fWord)) * (fget s (CAM_ROW_TIME n) CAM_ROW_TIME_ROW_TIME : Rat)
    * (2 ^ 16 : Nat))
  let x := toCamera n corr tr p s
  let uv := rectProject n x s
  if (fget s CAM_GRID_ZNF CAM_GRID_ZNF_ZNEAR : Rat) / 100 ≤ vget x 2 ∧ vget x 2 ≤ (fget s CAM_GRID_ZNF CAM_GRID_ZNF_ZFAR : Rat)
      ∧ 0 ≤ uv.1 ∧ uv.1 ≤ (fget s (CAM_OUT n) CAM_OUT_OUT_W : Rat) - 1 ∧ 0 ≤ uv.2
      ∧ uv.2 ≤ (fget s (CAM_OUT n) CAM_OUT_OUT_H : Rat) - 1 then some (x, uv)
  else none

/-- Height samples a cell. -/
def gridNz (s : State) : Nat :=
  if fget s CAM_GRID_CFG CAM_GRID_CFG_NZ = 0 then 8 else fget s CAM_GRID_CFG CAM_GRID_CFG_NZ

/-- Sample height h of a block of 2^l cells that begins at cell (i, j) of a tile, above the machine's height (R162, R164,
R166). -/
def blockPoint (tx ty : Int) (l i j h : Nat) (pz : Rat) (s : State) : List Rat :=
  let z0 : Rat := (signed 16 (fget s CAM_GRID_Z CAM_GRID_Z_Z0) : Rat) / 100
  let dz : Rat := (fget s CAM_GRID_Z CAM_GRID_Z_DZ : Rat) / 100
  let half : Rat := ((2 ^ l : Nat) : Rat) / 2
  [(64 * (tx : Rat) + (i : Rat) + half) / 10, (64 * (ty : Rat) + (j : Rat) + half) / 10, pz + z0 + (h : Rat) * dz]

/-- The bilinear sample of a frame's feature map at a pixel over the stride. -/
def featureSample (n stamp : Nat) (uv : Rat × Rat) : Rat :=
  let x := uv.1 / (Config.featureStride : Rat)
  let y := uv.2 / (Config.featureStride : Rat)
  let m (dy dx : Nat) : Rat := Config.featureMap n stamp (y.floor.toNat + dy) (x.floor.toNat + dx)
  bilinear (x - (x.floor : Rat)) (y - (y.floor : Rat)) (m 0 0) (m 0 1) (m 1 0) (m 1 1)

/-- What the lift of a frame writes to the cells of one block at one height. -/
def liftBlock (r : SliceRec) (l : Nat) (f : FrameRec) (s : State) (tx ty : Int) (i j h : Nat) : List Feature :=
  match liftPoint f.ch (nth r.corr f.ch []) f.t (blockPoint tx ty l i j h (vget (poseAt r.tov s).pose.p 2) s) s with
  | none => []
  | some (x, uv) =>
    let v := featureSample f.ch f.t.toNat uv
    let w := Config.liftWeight f.ch x
    (List.range (2 ^ l)).flatMap (fun b => (List.range (2 ^ l)).map (fun a =>
      ⟨f.ch, tx, ty, i + a, j + b, h, r.tov, uv.1, uv.2, x, v, w⟩))

/-- Everything that the lift of a frame writes, block by block. -/
def frameFeatures (r : SliceRec) (l : Nat) (f : FrameRec) (s : State) : List Feature :=
  (windowTiles (gridX0 s) (gridY0 s)).flatMap (fun t =>
    (List.range (64 / 2 ^ l)).flatMap (fun b => (List.range (64 / 2 ^ l)).flatMap (fun a =>
      (List.range (gridNz s)).flatMap (liftBlock r l f s t.1 t.2 (a * 2 ^ l) (b * 2 ^ l)))))

/-- Whether two contributions are of one camera to one cell. -/
def sameCell (a b : Feature) : Bool := a.cam == b.cam && a.tx == b.tx && a.ty == b.ty && a.i == b.i && a.j == b.j

/-- A frame that joined the slice is lifted: to each cell it contributes to, it replaces what its camera contributed
before (R164). -/
def liftFrame (r : SliceRec) (level : Nat) (s : State) (f : FrameRec) : State :=
  if f.ch < 16 ∧ fbit s CAM_GRID_CFG CAM_GRID_CFG_EN then
    let new := frameFeatures r (effLevel r.half level) f s
    { s with grid := { s.grid with feats := new ++ s.grid.feats.filter (fun e => !new.any (sameCell e)) } }
  else s

/-- The buffers of the frames a slice lifts are held until its CAMERA ends (R160). -/
def holdBuffers (r : SliceRec) (s : State) : State :=
  let used := (r.frames.filter (fun f => f.ch < 16)).map (fun f => (f.ch, f.buffer))
    ++ (r.evidence.filter (fun e => e.isFrame)).map (fun e => (e.ch, e.buffer))
  used.foldl (fun s u =>
    let l := laneGet u.1 s
    laneSet u.1 (bufSet u.2 { bufGet u.2 l with st := .lifting r.seq } l) s) s

/-- The CAMERA stage that lifted a frame ends: its buffer is released (R160). -/
def releaseBuffers (seq : Nat) (s : State) : State :=
  { s with lanes := s.lanes.map (fun l => { l with bufs := l.bufs.map (fun f => if f.st = .lifting seq then FrameBuf.reset else f) }) }

/-- SEEN_CAM: a camera contributed to the cell within the last 100 ms (R165). -/
def seenCam (tx ty : Int) (i j : Nat) (s : State) : Bool :=
  s.grid.feats.any (fun e => e.tx == tx && e.ty == ty && e.i == i && e.j == j && decide (s.grid.fuseTov ≤ e.tov + 10 ^ 8))

end Sys2Proof.Machine
end

