-- ==== Sys2Proof/Machine/Vhe.lean ====
section
/-! DEFINITION. The voxel hash engine: window, epochs, entries, insertion, coarsening and the level P section (R128 to
R155, R472). -/
namespace Sys2Proof.Machine

/-- Replace the VHE state. -/
def vheSet (v : VheState) (s : State) : State := { s with vhe := v }

/-! ## Window and tiles (R128 to R131) -/

def cxOf (s : State) : Int := signed 32 (fget s VHE_CX fWord)
def cyOf (s : State) : Int := signed 32 (fget s VHE_CY fWord)
/-- ZBASE in units of 0.02 m. -/
def zbaseOf (s : State) : Int := signed 32 (fget s VHE_ZBASE fWord)

/-- The slot of a tile (R130). -/
def slotOf (tx ty : Int) : Nat := ((ty % 51) * 51 + tx % 51).toNat

/-- Whether a tile lies in the window (R129). -/
def inWindow (tx ty cx cy : Int) : Bool :=
  decide (cx - 25 ≤ tx ∧ tx ≤ cx + 25 ∧ cy - 25 ≤ ty ∧ ty ≤ cy + 25)

/-- The tile index of an axis that a slot residue names in the window about c. -/
def axisTile (r : Nat) (c : Int) : Int := c - 25 + ((r : Int) - (c - 25)) % 51

/-- The tile that a slot holds in the window about (cx, cy). -/
def slotTile (sl : Nat) (cx cy : Int) : Int × Int := (axisTile (sl % 51) cx, axisTile (sl / 51) cy)

/-- The absolute voxel index of an axis that a key field names in the window, if it names one (R131). -/
def locate (k : Nat) (c : Int) : Option Int :=
  let base := 320 * (c - 25)
  let d := ((k : Int) - base) % 16384
  if d < 16320 then some (base + d) else none

/-! ## Entries (R139) -/

def entKey (w : Nat) : Nat := w % 2 ^ 38
def entLevel (w : Nat) : Nat := natField 39 38 w
def entEpoch (w : Nat) : Nat := natField 45 40 w
def entHits (w : Nat) : Nat := natField 63 61 w

/-- An entry with its HITS replaced. -/
def withHits (w h : Nat) : Nat := w % 2 ^ 61 + h % 8 * 2 ^ 61

/-- The voxel coordinate of an axis in units of 0.02 m. -/
def gridCoord (x : Rat) : Rat := x * 50

/-- The key of a point at a level: indices with their low bits cleared (R131). -/
def keyOf (x : List Rat) (l : Nat) (zb : Int) : Nat :=
  let cut (i : Int) : Int := i / (2 ^ l : Nat) * (2 ^ l : Nat)
  let ix := cut (gridCoord (vget x 0)).floor
  let iy := cut (gridCoord (vget x 1)).floor
  let iz := cut ((gridCoord (vget x 2)).floor - zb)
  (ix % 16384).toNat + (iy % 16384).toNat * 2 ^ 14 + (iz % 1024).toNat * 2 ^ 28

/-- The offset of a coordinate within its voxel, in 32nds of the edge. -/
def offOf (x : Rat) (l : Nat) : Nat :=
  let e : Rat := gridCoord x / (2 ^ l : Nat)
  ((e - (e.floor : Rat)) * 32).floor.toNat

/-- A new entry of a point (R143): its key, level, epoch and kept position, and one hit. -/
def newEntry (x : List Rat) (l e : Nat) (zb : Int) : Nat :=
  keyOf x l zb + l * 2 ^ 38 + e % 64 * 2 ^ 40 + offOf (vget x 0) l * 2 ^ 46 + offOf (vget x 1) l * 2 ^ 51
    + offOf (vget x 2 - (zb : Rat) / 50) l * 2 ^ 56 + 2 ^ 61

/-- The two candidate buckets of an entry (R140). -/
def hash0 (w : Nat) : Nat := (w % 2 ^ 40 * 0x9E3779B97F4A7C15 % 2 ^ 64) / 2 ^ 46
def hash1 (w : Nat) : Nat :=
  let h := (w % 2 ^ 40 * 0xC2B2AE3D27D4EB4F % 2 ^ 64) / 2 ^ 46
  if h = hash0 w then Nat.xor h 1 else h

/-! ## Epochs and validity (R134 to R137) -/

/-- The length of an epoch in ns. -/
def epochLen (s : State) : Nat := fget s VHE_EPOCH VHE_EPOCH_EPOCH_MS * 10 ^ 6

/-- The epoch of a slice, and whether it is the epoch's first (R134). -/
def sliceEpoch (r : SliceRec) (s : State) : Nat := r.start / epochLen s
def epochFirst (r : SliceRec) (s : State) : Bool := r.start % epochLen s == 0

/-- E modulo 64 of the slice in VOXEL. -/
def nowEpoch (s : State) : Nat := fget s VHE_EPOCH VHE_EPOCH_NOW

/-- age(e). -/
def ageOf (e : Nat) (s : State) : Nat := (nowEpoch s + 64 - e % 64) % 64

/-- The epochs a voxel is kept. -/
def retain (s : State) : Nat := fget s VHE_EPOCH VHE_EPOCH_RETAIN

/-- Whether an age is allowed by a slot's floor. -/
def floorAllows (sl age : Nat) (s : State) : Bool :=
  fbit s (VHE_TILE0 sl) VHE_TILE0_ANCIENT || decide (age ≤ ageOf (fget s (VHE_TILE0 sl) VHE_TILE0_FLOOR) s)

/-- The voxel and tile that an entry names in the window. -/
def entPlace (w : Nat) (s : State) : Option (Int × Int × Int × Int) :=
  match locate (natField 13 0 w) (cxOf s), locate (natField 27 14 w) (cyOf s) with
  | some ix, some iy => some (ix, iy, ix / 320, iy / 320)
  | _, _ => none

/-- The slot of an entry; none when its key names no voxel of the window. -/
def entSlot (w : Nat) (s : State) : Option Nat := (entPlace w s).map (fun p => slotOf p.2.2.1 p.2.2.2)

/-- Whether an entry is valid (R135). -/
def entValid (w : Nat) (s : State) : Bool :=
  decide (entHits w ≠ 0) && match entSlot w s with
  | some sl => decide (ageOf (entEpoch w) s < retain s) && floorAllows sl (ageOf (entEpoch w) s) s
  | none => false

/-- A change of the count of held valid entries of an entry's slot and level. -/
def countBy (w : Nat) (up : Bool) (s : State) : State :=
  match entSlot w s with
  | some sl =>
    let k := 4 * sl + entLevel w
    let n := cellsGet (fun _ => 0) s.vhe.counts k
    vheSet { s.vhe with counts := cellsSet (fun _ => 0) s.vhe.counts k (if up then n + 1 else n - 1) } s
  | none => s

/-- A stale entry leaves: its slot's count falls only when it is valid under the slot's FLOOR (R147). -/
def staleGone (w : Nat) (s : State) : State :=
  match entSlot w s with
  | some sl => if entHits w ≠ 0 ∧ floorAllows sl (ageOf (entEpoch w) s) s then countBy w false s else s
  | none => s

/-- COUNT and CUR_COUNT of a slot. -/
def slotCount (sl : Nat) (s : State) : Nat :=
  ((List.range 4).map (fun l => cellsGet (fun _ => 0) s.vhe.counts (4 * sl + l))).sum
def slotCur (sl : Nat) (s : State) : Nat :=
  cellsGet (fun _ => 0) s.vhe.counts (4 * sl + fget s (VHE_TILE0 sl) VHE_TILE0_LEVEL)

/-! ## Table and stash -/

/-- The entry of a way of a bucket. -/
def wayGet (b w : Nat) (s : State) : Nat := cellsGet (fun _ => 0) s.vhe.table (4 * b + w)

/-- Write a way; a stale entry it held is gone. -/
def wayPut (b w e : Nat) (s : State) : State :=
  let old := wayGet b w s
  let s1 := if old ≠ 0 ∧ !entValid old s then staleGone old s else s
  vheSet { s1.vhe with table := cellsSet (fun _ => 0) s1.vhe.table (4 * b + w) e } s1

/-- The first free way of a bucket: a stale way is free. -/
def freeWay (b : Nat) (s : State) : Option Nat := (List.range 4).find? (fun w => !entValid (wayGet b w s) s)

/-- The valid stash entries. -/
def stashValid (s : State) : List Nat := s.vhe.stash.filter (fun w => entValid w s)

/-- Put an entry into a free stash entry; a stale one makes room when all 4,096 are held. -/
def stashPut (e : Nat) (s : State) : State :=
  if s.vhe.stash.length < 4096 then vheSet { s.vhe with stash := s.vhe.stash ++ [e] } s
  else match s.vhe.stash.find? (fun w => !entValid w s) with
    | some old =>
      let s1 := staleGone old s
      vheSet { s1.vhe with stash := s1.vhe.stash.erase old ++ [e] } s1
    | none => s

/-- Where a lookup finds an entry: a way of a bucket, or the stash. -/
inductive Found where
  | way (b w : Nat)
  | stashed (e : Nat)
  | absent
  deriving DecidableEq, Repr

/-- Whether an entry is the voxel of a key and level. -/
def sameVoxel (e k : Nat) : Bool := e % 2 ^ 40 == k % 2 ^ 40

/-- Look an entry's voxel up in its buckets and the stash (R135, R141). -/
def lookup (e : Nat) (s : State) : Found :=
  let at? (b : Nat) : Option Nat := (List.range 4).find? (fun w => sameVoxel (wayGet b w s) e && entValid (wayGet b w s) s)
  match at? (hash0 e), at? (hash1 e) with
  | some w, _ => .way (hash0 e) w
  | none, some w => .way (hash1 e) w
  | none, none =>
    match (stashValid s).find? (fun w => sameVoxel w e) with
    | some w => .stashed w
    | none => .absent

/-! ## The change log (R150) -/

/-- Log a record of an entry; past 131,072 records the log overflows. -/
def logVoxel (e : Nat) (removed : Bool) (s : State) : State :=
  match entPlace e s with
  | none => s
  | some p =>
    if s.vhe.log.length < 131072 then
      vheSet { s.vhe with log := s.vhe.log ++ [⟨p.2.2.1, p.2.2.2, e, removed⟩] } s
    else fon (vheSet { s.vhe with logOvf := true } s) VHE_STATUS VHE_STATUS_LOG_OVF

/-- Withdraw the newest SET record of an entry. -/
def unlog (e : Nat) (s : State) : State :=
  vheSet { s.vhe with log := (s.vhe.log.reverse.eraseP (fun r => r.entry == e && !r.removed)).reverse } s

/-! ## Insertion and sampling (R143, R144) -/

/-- The entry a sample leaves, by the epochs of the point and the entry and the mode (R144). -/
def sampled (old new : Nat) (hit : Bool) (s : State) : Nat :=
  let ae := ageOf (entEpoch old) s
  let ap := ageOf (entEpoch new) s
  let more := withHits old (clampNat 7 (entHits old + 1))
  let random := !fbit s VHE_CTRL VHE_CTRL_MODE
  if ap < ae then (if !random && fbit s VHE_CTRL VHE_CTRL_COMPAT_FIRST then more else new)
  else if ap = ae then (if random && hit then withHits new (clampNat 7 (entHits old + 1)) else more)
  else old

/-- A lane's draw for a replacement with probability 1 / n. -/
def laneDraw (lane n : Nat) (s : State) : Bool × State :=
  let g := nth s.vhe.gens lane 0
  (n == 1 || Config.laneHit g n, vheSet { s.vhe with gens := setNth s.vhe.gens lane (Config.laneNext g % 2 ^ 32) } s)

/-- Sample an entry with a point's new entry. -/
def sampleEntry (lane old new : Nat) (s : State) : Nat × State :=
  if !fbit s VHE_CTRL VHE_CTRL_MODE ∧ ageOf (entEpoch old) s = ageOf (entEpoch new) s then
    let d := laneDraw lane (min (entHits old + 1) 8) s
    (sampled old new d.1 d.2, d.2)
  else (sampled old new false s, s)

/-- The candidate bucket of an entry that is not b. -/
def otherBucket (e b : Nat) : Nat := if hash0 e = b then hash1 e else hash0 e

/-- The kicks of an insertion: hand and bucket, step n of 8 (R143). Answers the hand that is left, if any. -/
def kicks : Nat → Nat → Nat → State → Option Nat × State
  | 0, hand, _, s => (some hand, s)
  | k + 1, hand, b, s =>
    let w := (8 - (k + 1)) % 4
    let victim := wayGet b w s
    let s1 := bump (vheSet { s.vhe with table := cellsSet (fun _ => 0) s.vhe.table (4 * b + w) hand } s) VHE_KICKS
    let b1 := otherBucket victim b
    match freeWay b1 s1 with
    | some w1 => (none, wayPut b1 w1 victim s1)
    | none => kicks k victim b1 s1

/-- A counter and its slice tally rise together. -/
def tallyUp (addr i k : Nat) (s : State) : State :=
  vheSet { s.vhe with tally := setNth s.vhe.tally i (nth s.vhe.tally i 0 + k) } (bumpBy s addr fWord k)

/-- The hand left after eight kicks goes to the stash or is lost (R143). -/
def handLeft (hand new : Nat) (s : State) : State :=
  if (stashValid s).length < 4096 then bump (stashPut hand s) VHE_STASHED
  else
    let s1 := fon (tallyUp VHE_HASH_LOST 4 1 s) VHE_STATUS VHE_STATUS_HASH_LOST
    let s2 := countBy hand false s1
    if hand = new then unlog new s2 else logVoxel hand true s2

/-- Insert a point's new entry (R143). -/
def insertEntry (lane new : Nat) (s : State) : State :=
  match lookup new s with
  | .way b w =>
    let r := sampleEntry lane (wayGet b w s) new s
    logVoxel r.1 false (wayPut b w r.1 r.2)
  | .stashed e =>
    let r := sampleEntry lane e new s
    logVoxel r.1 false (vheSet { r.2.vhe with stash := r.2.vhe.stash.map (fun x => if x = e then r.1 else x) } r.2)
  | .absent =>
    let b0 := hash0 new
    let b1 := hash1 new
    match freeWay b0 s, freeWay b1 s with
    | some w, _ => logVoxel new false (countBy new true (wayPut b0 w new s))
    | none, some w => logVoxel new false (countBy new true (wayPut b1 w new s))
    | none, none =>
      match kicks 8 new b0 (logVoxel new false (countBy new true s)) with
      | (none, s1) => s1
      | (some hand, s1) => handLeft hand new s1

/-! ## The VOXEL stage -/

/-- The reasons R148 keeps of a slot: 1 STASH, 2 OCC. -/
def slotReasons (sl : Nat) (s : State) : Nat := cellsGet (fun _ => 0) s.vhe.reasons sl
/-- Replace them. -/
def setReasons (sl r : Nat) (s : State) : State :=
  vheSet { s.vhe with reasons := cellsSet (fun _ => 0) s.vhe.reasons sl r } s

/-- Write a slot's floor, counts and level (R132): ANCIENT is cleared, and so are the reasons, which level 0 has none of
(R148). -/
def floorSlot (sl : Nat) (s : State) : State :=
  let a := VHE_TILE0 sl
  let s1 := setReasons sl 0 (fset (fset (fset s a VHE_TILE0_LEVEL 0) a VHE_TILE0_ANCIENT 0) a VHE_TILE0_FLOOR (nowEpoch s))
  vheSet { s1.vhe with counts := cellsClear (fun k => k / 4 == sl) s1.vhe.counts } s1

/-- The machine's position at a ToV. -/
def machineAt (tov : Nat) (s : State) : List Rat := (poseAt tov s).pose.p

/-- The tile index of a coordinate in L. -/
def vheTile (x : Rat) : Int := (x / (64 / 10)).floor

/-- ZBASE for a height: p_z − Z_BELOW, rounded down to 0.02 m. -/
def zbaseFor (z : Rat) (s : State) : Int := (gridCoord z - (fget s VHE_GRID VHE_GRID_Z_BELOW : Rat)).floor

/-- The window and ZBASE are set about p and every slot is floored (R132, R133). -/
def setWindow (p : List Rat) (s : State) : State :=
  let s1 := fset (fset (fset s VHE_CX fWord (unsigned 32 (vheTile (vget p 0)))) VHE_CY fWord (unsigned 32 (vheTile (vget p 1))))
    VHE_ZBASE fWord (unsigned 32 (zbaseFor (vget p 2) s))
  let s2 := forUpTo 2601 floorSlot s1
  vheSet { s2.vhe with needCentre := false, initHold := false, windowSet := true } s2

/-- Recentre the window about p when it has moved out of the centre tile (R132, R150, R154). -/
def recentre (p : List Rat) (s : State) : State :=
  let cx := cxOf s
  let cy := cyOf s
  let far (x : Rat) (c : Int) : Bool :=
    decide (x < (c : Rat) * (64 / 10) - 16 / 10) || decide (x > ((c : Rat) + 1) * (64 / 10) + 16 / 10)
  if !(far (vget p 0) cx) && !(far (vget p 1) cy) then s
  else
    let nx := vheTile (vget p 0)
    let ny := vheTile (vget p 1)
    let changed := (List.range 2601).filter (fun sl => slotTile sl cx cy != slotTile sl nx ny)
    let gone := changed.map (fun sl => slotTile sl cx cy)
    let s1 := fset (fset s VHE_CX fWord (unsigned 32 nx)) VHE_CY fWord (unsigned 32 ny)
    let s2 := changed.foldl (fun s sl => floorSlot sl s) s1
    vheSet { s2.vhe with
      departed := gone, bigMove := decide ((nx - cx).natAbs > 1 ∨ (ny - cy).natAbs > 1) } s2

/-- Re-base ZBASE when p_z has moved beyond the hysteresis (R132). -/
def rebaseZ (p : List Rat) (s : State) : State :=
  let off : Rat := gridCoord (vget p 2) - (zbaseOf s : Rat) - (fget s VHE_GRID VHE_GRID_Z_BELOW : Rat)
  if ratAbs off ≤ (fget s VHE_GRID VHE_GRID_Z_HYST : Rat) then s
  else
    let s1 := fon (fset s VHE_ZBASE fWord (unsigned 32 (zbaseFor (vget p 2) s))) VHE_STATUS VHE_STATUS_ZREBASE
    let s2 := forUpTo 2601 floorSlot s1
    vheSet { s2.vhe with zRebased := true } s2

/-- A slot whose FLOOR has reached an age of 32 becomes ANCIENT (R137). -/
def ancientSlot (sl : Nat) (s : State) : State :=
  if 32 ≤ ageOf (fget s (VHE_TILE0 sl) VHE_TILE0_FLOOR) s then fon s (VHE_TILE0 sl) VHE_TILE0_ANCIENT else s

/-- Whether the integrator's mode allows insertion (R133). -/
def poseBad (s : State) : Bool := s.ego.mode == egoInit || s.ego.mode == egoLost

/-- The first slice of an epoch: old floors become ANCIENT, and the window and ZBASE follow the machine; they are set
anew at the run's first epoch start, and at the first after the integrator has left INIT (R132, R133, R137). -/
def epochStart (tov : Nat) (s : State) : State :=
  let s1 := forUpTo 2601 ancientSlot s
  if !fbit s1 VHE_CTRL VHE_CTRL_EN then s1
  else if s1.vhe.needCentre || (s1.vhe.initHold && s1.ego.mode != egoInit) then setWindow (machineAt tov s1) s1
  else rebaseZ (machineAt tov s1) (recentre (machineAt tov s1) s1)

/-- The scrubber clears a stale way (R138). -/
def scrubWay (k : Nat) (s : State) : State :=
  let e := cellsGet (fun _ => 0) s.vhe.table k
  if e = 0 ∨ entValid e s then s
  else
    let s1 := staleGone e s
    vheSet { s1.vhe with table := cellsSet (fun _ => 0) s1.vhe.table k 0 } s1

/-- The scrub of one slice: 8,192 buckets and the whole stash (R138). -/
def scrub (s : State) : State :=
  let lo := s.vhe.scrubAt
  let inRange (k : Nat) : Bool := decide (lo ≤ k / 4 ∧ k / 4 < lo + 8192)
  let s1 := ((s.vhe.table.map Prod.fst).filter inRange).foldl (fun s k => scrubWay k s) s
  let s2 := (s1.vhe.stash.filter (fun w => !entValid w s1)).foldl (fun s w => staleGone w s) s1
  vheSet { s2.vhe with stash := s2.vhe.stash.filter (fun w => entValid w s2), scrubAt := (lo + 8192) % 262144 } s2

/-- A de-skewed point placed in L: its coordinates, if it lies in the window (R128, R129). -/
def placePoint (pose : Pose) (p : DeskewedPoint) (s : State) : Option (List Rat × Nat) :=
  if !p.xyz.all (fpFinite fp32) then none
  else
    let x := vadd (qrot pose.q (p.xyz.map ofFp32)) pose.p
    let iz := (gridCoord (vget x 2)).floor - zbaseOf s
    let tx := vheTile (vget x 0)
    let ty := vheTile (vget x 1)
    if inWindow tx ty (cxOf s) (cyOf s) ∧ 0 ≤ iz ∧ iz < 1024 then some (x, slotOf tx ty) else none

/-- The range bin of a point in B (R146). -/
def rangeBin (p : DeskewedPoint) : Nat :=
  let r2 := vdot (p.xyz.map ofFp32) (p.xyz.map ofFp32)
  ((List.range 63).filter (fun b => decide ((((4 * (b + 1)) ^ 2 : Nat) : Rat) ≤ r2))).length

/-- Keep points in delivery order, whole range bins dropped from the farthest down to the cap (R146). -/
def capPoints (cap : Nat) (ps : List (Nat × VhePoint)) : List (Nat × VhePoint) :=
  let size (b : Nat) : Nat := (ps.filter (fun p => p.1 == b)).length
  let step (a : List (Nat × Nat) × Nat) (b : Nat) : List (Nat × Nat) × Nat :=
    let d := min a.2 (size b)
    ((b, size b - d) :: a.1, a.2 - d)
  let keep := ((List.range 64).reverse.foldl step ([], ps.length - cap)).1
  (ps.foldl (fun (a : List (Nat × VhePoint) × List (Nat × Nat)) p =>
    let left := (assocGet a.2 p.1).getD 0
    if left = 0 then a else (a.1 ++ [p], assocSet a.2 p.1 (left - 1))) ([], keep)).1

/-- The epoch of a point taken at a time in 2⁻¹⁶ ns: that of its own slice (R105, R134). An epoch begins on a whole
millisecond, so it is that of the millisecond in which the point lies, in either slice mode. -/
def pointEpoch (t : Int) (s : State) : Nat :=
  let ms : Int := -(-t / (10 ^ 6 * 2 ^ 16)) - 1
  (ms * 10 ^ 6 / (epochLen s : Int) % 64).toNat

/-- A point is offered to the VHE: dropped and counted, or kept with its bin (R129, R133, R136). -/
def offerPoint (pose : Pose) (noPose : Bool) (a : List (Nat × VhePoint) × State) (p : DeskewedPoint) :
    List (Nat × VhePoint) × State :=
  let s := tallyUp VHE_PTS_IN 0 1 a.2
  if noPose then (a.1, tallyUp VHE_NO_POSE 5 1 s)
  else match placePoint pose p s with
    | none => (a.1, tallyUp VHE_OUT_OF_GRID 2 1 s)
    | some (x, sl) =>
      let e := pointEpoch p.t s
      if ageOf e s ≥ retain s ∨ !floorAllows sl (ageOf e s) s then (a.1, tallyUp VHE_STALE 3 1 s)
      else (a.1 ++ [(rangeBin p, ⟨x, sl, e⟩)], s)

/-- The effective level of a slot (R147). -/
def effSlot (g sl : Nat) (s : State) : Nat := max (fget s (VHE_TILE0 sl) VHE_TILE0_LEVEL) g

/-- The reasons a slot reports: those R148 keeps, and GOV when the governor's level exceeds its own (R147). -/
def reportReason (g sl : Nat) (s : State) : Nat :=
  slotReasons sl s + b2n (decide (fget s (VHE_TILE0 sl) VHE_TILE0_LEVEL < g)) * 4

/-- VHE_TILE.REASON shows what a slot reports for the slice (R156). -/
def showReason (g sl : Nat) (s : State) : State :=
  if reportReason g sl s = fget s (VHE_TILE0 sl) VHE_TILE0_REASON then s
  else fset s (VHE_TILE0 sl) VHE_TILE0_REASON (reportReason g sl s)

/-- The stage's working state starts afresh. -/
def vheFresh (s : State) : State :=
  vheSet { s.vhe with
    todo := [], log := [], logOvf := false, zRebased := false, windowSet := false, bigMove := false, departed := []
    tally := List.replicate 6 0 } s

/-- VOXEL starts on a slice (R132 to R138, R146). -/
def voxelStart (r : SliceRec) (s0 : State) : State :=
  let s1 := vheFresh s0
  let s2 := fset s1 VHE_EPOCH VHE_EPOCH_NOW (sliceEpoch r s1 % 64)
  let s3 := if epochFirst r s2 then epochStart r.tov s2 else s2
  let hold := s3.vhe.initHold || s3.ego.mode == egoInit
  let s5 := scrub (vheSet { s3.vhe with initHold := hold } s3)
  if !fbit s5 VHE_CTRL VHE_CTRL_EN then s5
  else
    let noPose := poseBad s5 || hold
    let o := r.deskewed.foldl (offerPoint (poseAt r.tov s5).pose noPose) ([], s5)
    let kept := capPoints (fget o.2 VHE_CAP VHE_CAP_MAX_POINTS) o.1
    let s6 := tallyUp VHE_DROPPED_CAP 1 (o.1.length - kept.length) o.2
    vheSet { s6.vhe with todo := kept.map Prod.snd } s6

/-- A lane inserts the next point of the slice at its tile's effective level (R143). -/
def pointInsert (lane g : Nat) (s : State) : State :=
  match s.vhe.todo with
  | [] => s
  | p :: r => insertEntry lane (newEntry p.x (effSlot g p.slot s) p.epoch (zbaseOf s)) (vheSet { s.vhe with todo := r } s)

/-- One valid stash entry is retried into a free way of either bucket (R145). -/
def retryOne (s : State) (e : Nat) : State :=
  let put (b w : Nat) : State :=
    let s1 := wayPut b w e s
    vheSet { s1.vhe with stash := s1.vhe.stash.erase e } s1
  match freeWay (hash0 e) s, freeWay (hash1 e) s with
  | some w, _ => put (hash0 e) w
  | none, some w => put (hash1 e) w
  | none, none => s

/-! ## Coarsening (R148) -/

/-- The RAISE_N slots of the largest counts below level 3 that are not in a list, ties to the lower number. -/
def stashPicks (skip : List Nat) (s : State) : List Nat :=
  let cand := (List.range 2601).filter (fun sl => decide (fget s (VHE_TILE0 sl) VHE_TILE0_LEVEL < 3) && !skip.contains sl)
  let pick (a : List Nat) (_ : Nat) : List Nat :=
    match cand.filter (fun sl => !a.contains sl) with
    | [] => a
    | c :: cs => a ++ [cs.foldl (fun b x => if slotCount b s < slotCount x s then x else b) c]
  (List.range (fget s VHE_COARSEN VHE_COARSEN_RAISE_N)).foldl pick []

/-- A slot rises by one level for a reason: 1 STASH, 2 OCC. -/
def raiseSlot (reason : Nat) (s : State) (sl : Nat) : State :=
  let a := VHE_TILE0 sl
  let s1 := fset s a VHE_TILE0_LEVEL (fget s a VHE_TILE0_LEVEL + 1)
  wr (setReasons sl (Nat.lor (slotReasons sl s1) reason) s1) (VHE_TILE_CALM sl) 0

/-- A slot that is not raised counts calm slices and falls by one level (R148). -/
def relaxSlot (stash sl : Nat) (s : State) : State :=
  let a := VHE_TILE0 sl
  if fget s a VHE_TILE0_LEVEL = 0 then s
  else
    let calm := slotCur sl s ≤ fget s VHE_TILE_RELAX VHE_TILE_RELAX_RELAX ∧ stash ≤ fget s VHE_STASH VHE_STASH_LOW
    let k := if calm then fget s (VHE_TILE_CALM sl) VHE_TILE_CALM_CALM + 1 else 0
    if fget s VHE_COARSEN VHE_COARSEN_CALM_SLICES ≤ k then
      let s1 := fset (fset s (VHE_TILE_CALM sl) VHE_TILE_CALM_CALM 0) a VHE_TILE0_LEVEL (fget s a VHE_TILE0_LEVEL - 1)
      if fget s1 a VHE_TILE0_LEVEL = 0 then setReasons sl 0 s1 else s1
    else fset s (VHE_TILE_CALM sl) VHE_TILE_CALM_CALM k

/-- The coarsening checkpoint at the end of VOXEL (R148). -/
def coarsen (s : State) : State :=
  let stash := (stashValid s).length
  let hit := decide (fget s VHE_STASH VHE_STASH_WM ≤ stash)
  let s0 := if hit then fon s VHE_STATUS VHE_STATUS_STASH_WM_HIT else s
  if !fbit s0 VHE_CTRL VHE_CTRL_AUTO then s0
  else
    let occ := (List.range 2601).filter (fun sl =>
      decide (fget s0 VHE_TILE_LIMIT VHE_TILE_LIMIT_LIMIT < slotCur sl s0 ∧ fget s0 (VHE_TILE0 sl) VHE_TILE0_LEVEL < 3))
    let st := if hit then stashPicks occ s0 else []
    let s1 := st.foldl (raiseSlot 1) (occ.foldl (raiseSlot 2) s0)
    ((List.range 2601).filter (fun sl => !occ.contains sl && !st.contains sl)).foldl (fun s sl => relaxSlot stash sl s) s1

/-! ## Level P (R150 to R154, R472) -/

/-- The two words of a voxel record (R153). -/
def voxelWords (e : Nat) (removed : Bool) (s : State) : List Nat :=
  match entPlace e s with
  | none => []
  | some (ix, iy, tx, ty) =>
    [(ix - 320 * tx).toNat + (iy - 320 * ty).toNat * 2 ^ 9 + natField 37 28 e * 2 ^ 18 + entLevel e * 2 ^ 28 + b2n removed * 2 ^ 30,
     natField 50 46 e + natField 55 51 e * 2 ^ 5 + natField 60 56 e * 2 ^ 10 + entHits e * 2 ^ 15 + entEpoch e * 2 ^ 18]

/-- The level and reason bits of a tile record's word 2. -/
def tileCode (g sl : Nat) (s : State) : Nat := effSlot g sl s + reportReason g sl s * 8

/-- A tile record with its voxel records. -/
def tileRecord (tx ty : Int) (code : Nat) (vox : List (List Nat)) : List Nat :=
  [unsigned 32 tx, unsigned 32 ty, code, vox.length] ++ vox.flatten

/-- Every valid entry of the table and the stash. -/
def allValid (s : State) : List Nat :=
  ((s.vhe.table.map Prod.snd).filter (fun w => entValid w s)) ++ stashValid s

/-- The tile records of a FULL section: every tile of the window, every valid entry as SET. -/
def fullTiles (g : Nat) (s : State) : List (List Nat) :=
  (List.range 2601).map (fun sl =>
    let t := slotTile sl (cxOf s) (cyOf s)
    tileRecord t.1 t.2 (tileCode g sl s)
      (((allValid s).filter (fun w => entSlot w s == some sl)).map (fun w => voxelWords w false s)))

/-- The tile records of a level P section, each as its words: a header of four words and two words a voxel (R151, R153). -/
def sectionTiles : Nat → List Nat → List (List Nat)
  | 0, _ => []
  | n + 1, ws => ws.take (4 + 2 * nth ws 3 0) :: sectionTiles n (ws.drop (4 + 2 * nth ws 3 0))

/-- The tile records of a whole section. -/
def tilesOf (sec : List Nat) : List (List Nat) := sectionTiles (nth sec 1 0) (sec.drop 16)

/-- The tile that a record names, and the code its reader holds for it afterwards: none after CLEARED. -/
def recordTile (t : List Nat) : Int × Int × Nat :=
  (signed 32 (nth t 0 0), signed 32 (nth t 1 0), if bitOf 2 (nth t 2 0) then 0 else nth t 2 0)

/-- What a reader holds of the tiles after a section. -/
def takeSection (held : List (Int × Int × Nat)) (sec : List Nat) : List (Int × Int × Nat) :=
  (tilesOf sec).foldl (fun m t =>
    let r := recordTile t
    let m1 := m.filter (fun e => e.1 != r.1 || e.2.1 != r.2.1)
    if r.2.2 = 0 then m1 else r :: m1) (if bitOf 0 (nth sec 0 0) then [] else held)

/-- What the consumer holds of the tiles once every result in processing has reached it. -/
def heldTiles (s : State) : List (Int × Int × Nat) := s.slices.foldl (fun m r => if r.secP = [] then m else takeSection m r.secP) s.vhe.reported

/-- The code that the previous result reported for a tile (R150). -/
def reportedCode (held : List (Int × Int × Nat)) (tx ty : Int) : Nat :=
  match held.find? (fun r => r.1 == tx && r.2.1 == ty) with
  | some r => r.2.2
  | none => 0

/-- The tile records of a delta: departed tiles CLEARED, then tiles with records or a changed level or reason. Records of
results that were abandoned come first, so that the section is a delta against the previous result (DEDUCED, log
entry 83). -/
def deltaTiles (g : Nat) (s : State) : List (List Nat) :=
  let held := heldTiles s
  s.vhe.owed ++ s.vhe.departed.map (fun t => tileRecord t.1 t.2 4 [])
  ++ (List.range 2601).filterMap (fun sl =>
    let t := slotTile sl (cxOf s) (cyOf s)
    let vox := (s.vhe.log.filter (fun r => r.tx == t.1 && r.ty == t.2)).map (fun r => voxelWords r.entry r.removed s)
    if vox.isEmpty && tileCode g sl s == reportedCode held t.1 t.2 then none
    else some (tileRecord t.1 t.2 (tileCode g sl s) vox))

/-- Whether the slice's result is the first after START: none is published and no older slice is in processing. -/
def firstResult (r : SliceRec) (s : State) : Bool :=
  !s.anyPublished && (s.slices.head?.map SliceRec.seq == some r.seq)

/-- Whether the level P section is FULL (R150, R472). -/
def pFull (r : SliceRec) (s : State) : Bool :=
  let v := s.vhe
  decide (r.seq % 10 = 0) || firstResult r s || v.rebuilt || v.owedFull
    || (fbit s VHE_CTRL VHE_CTRL_EN && (v.logOvf || v.zRebased || v.windowSet || v.bigMove))

/-- STASH_VALID and HELD, as they read now (R156). -/
def stashCount (s : State) : Nat := (stashValid s).length
def heldCount (s : State) : Nat := s.vhe.table.length + s.vhe.stash.length

/-- Whether any tile of the window has an effective level above 0 (R149, R472). -/
def anyCoarse (g : Nat) (s : State) : Bool :=
  fbit s VHE_CTRL VHE_CTRL_EN && (List.range 2601).any (fun sl => effSlot g sl s != 0)

/-- The level P section (R151 to R154, R472). -/
def pSection (r : SliceRec) (g : Nat) (s : State) : List Nat :=
  let en := fbit s VHE_CTRL VHE_CTRL_EN
  let full := pFull r s
  let tiles := if !en then [] else if full then fullTiles g s else deltaTiles g s
  let expired := (nowEpoch s + 64 - retain s) % 64
  let v := s.vhe
  [b2n full + b2n (en && v.zRebased) * 2 + b2n v.rebuilt * 4 + b2n (en && v.logOvf) * 8 + b2n (anyCoarse g s) * 16
     + nowEpoch s * 2 ^ 16,
   tiles.length, fget s VHE_CX fWord, fget s VHE_CY fWord, fget s VHE_ZBASE fWord,
   if epochFirst r s then expired + 2 ^ 31 else 0]
  ++ (if en then v.tally else List.replicate 6 0)
  ++ [(stashValid s).length, v.table.length + v.stash.length, 0, 0] ++ tiles.flatten

/-- The section has been formed: the slots show what they reported, and nothing is owed any more. -/
def noteReported (g : Nat) (s : State) : State :=
  let s1 := forUpTo 2601 (showReason g) s
  vheSet { s1.vhe with rebuilt := false, owed := [], owedFull := false } s1

/-- VOXEL ends: stash retry, the section, and the coarsening checkpoint (R145, R148, R150). Answers the section and
whether a tile was coarse. -/
def voxelEnd (r : SliceRec) (g : Nat) (s0 : State) : (List Nat × Bool) × State :=
  let s := ((stashValid s0).take 256).foldl retryOne s0
  let sec := pSection r g s
  let coarse := anyCoarse g s
  ((sec, coarse), coarsen (noteReported g s))

/-- A result with a level P section is complete: the consumer holds what the section says (R150). -/
def publishP (sec : List Nat) (s : State) : State := vheSet { s.vhe with reported := takeSection s.vhe.reported sec } s

/-- A result with a level P section is abandoned: what the section told is owed to the next one, and so are FULL and
REBUILT (R150, R155; DEDUCED, log entry 83). -/
def oweP (sec : List Nat) (s : State) : State :=
  if sec = [] then s
  else
    let full := bitOf 0 (nth sec 0 0)
    vheSet { s.vhe with
      rebuilt := s.vhe.rebuilt || bitOf 2 (nth sec 0 0)
      owed := tilesOf sec ++ s.vhe.owed
      owedFull := s.vhe.owedFull || full } s

/-! ## Reset of the VHE (R155) -/

/-- The clear of a reset begins: the VHE is empty, every slot ANCIENT at level 0. -/
def vheClear (s : State) : State :=
  let s1 := { s with vhe := { VheState.reset with gens := s.vhe.gens } }
  fon (forUpTo 2601 (fun sl s => wr (wr s (VHE_TILE0 sl) 4) (VHE_TILE_CALM sl) 0) s1) VHE_STATUS VHE_STATUS_CLEARING

/-- The clear is complete. -/
def vheClearDone (s : State) : State := fput s VHE_STATUS VHE_STATUS_CLEARING false

/-- START seeds every lane from VHE_SEED and centres the window at the first epoch start (R132, R144). -/
def vheStartRun (s : State) : State :=
  vheSet { s.vhe with gens := List.replicate 8 (fget s VHE_SEED fWord), needCentre := true } s

end Sys2Proof.Machine
end

