-- ==== Sys2Proof/Machine/Calib.lean ====
section
/-! DEFINITION. On-line calibration: residuals, the clamped step, the proposal, and its acceptance (R169 to R173). -/
namespace Sys2Proof.Machine

/-- A sensor that takes part in calibration now: CAL_EN, a camera or a channel with POINTS, aligned, in sync, and not
the reference (R169, R175). -/
def calTakesPart (n : Nat) (s : State) : Bool :=
  fbit s (CAM_EXT_CAL n) CAM_EXT_CAL_CAL_EN && (decide (n < 16) || fbit s (SLC_CH_CFG n) SLC_CH_CFG_POINTS)
    && chanEn n s && !(alnGet n s).unsync && fget s CAM_CAL_CTRL CAM_CAL_CTRL_REF != n

/-- The sensor whose rank the slice's ToV selects (R169). -/
def calSensor (tov : Nat) (s : State) : Option Nat :=
  let ranked := (List.range 24).filter (fun n => calTakesPart n s)
  if tov % 10 ^ 8 % 10 ^ 6 ≠ 0 then none else ranked[tov % 10 ^ 8 / 10 ^ 6]?

/-- The centre of a voxel in L (R153). -/
def voxelCentre (e : Nat) (s : State) : Option (List Rat) :=
  (entPlace e s).map (fun p =>
    let mid (i : Int) : Rat := ((i : Rat) + ((2 ^ entLevel e : Nat) : Rat) / 2) / 50
    [mid p.1, mid p.2.1, mid (zbaseOf s + natField 37 28 e)])

/-- A point of L in B at a pose. -/
def intoBody (a : Pose) (x : List Rat) : List Rat := qrot (qconj a.q) (vsub x a.p)

/-- What may give a residual, as points of B at the ToV (R169 step 1): a scanner's points of the slice, or the voxels of
level P once a frame of the camera has joined a slice. -/
def calPoints (n : Nat) (r : SliceRec) (s : State) : List (List Rat) :=
  if 16 ≤ n then
    (r.deskewed.filter (fun p => p.ch == n && p.xyz.all (fpFinite fp32))).map (fun p => p.xyz.map ofFp32)
  else if (nth s.cal.frames n none).isNone then []
  else (allValid s).filterMap (fun e => (voxelCentre e s).map (intoBody (poseAt r.tov s).pose))

/-- The row of one residual in the seven scaled unknowns, and its value (R169 step 2): x_B = R_nom (R(θ) y + d) + t_nom
with y the corrected sensor point, and the time offset enters as −(v + ω × x). -/
def calRow (n : Nat) (pose : Pose) (s : State) (x m : List Rat) (v : Rat) : List Rat × Rat :=
  let q30 (w : Nat) : Rat := (signed 32 w : Rat) / (2 ^ 30 : Nat)
  let q : List Rat := q30 (fget s (CAM_NOM_QW n) fWord) :: (List.range 3).map (fun i => q30 (fget s (CAM_NOM_Q n i) fWord))
  let tn := (List.range 3).map (fun i => (signed 32 (fget s (CAM_NOM_T n i) fWord) : Rat) / (10 ^ 6 : Nat))
  let y := qrot (qconj q) (vsub x tn)
  let g := qrot (qconj q) m
  let step (f : Bits) : Rat := (fget s CAM_CAL_STEP f : Rat)
  let rot := Config.degToNrad (step CAM_CAL_STEP_STEP_ROT / 1000) / (10 ^ 9 : Nat)
  let trans := step CAM_CAL_STEP_STEP_TRANS / (10 ^ 6 : Nat)
  let time : Rat := (fget s CAM_CAL_STEP_T CAM_CAL_STEP_T_STEP_T : Rat) / (10 ^ 9 : Nat)
  let motion := vadd (qrot (qconj pose.q) pose.v) (vcross pose.w x)
  (vscale rot (vcross y g) ++ vscale trans g ++ [-(vdot m motion) * time], v)

/-- Up to 4,096 residuals of an update. -/
def calRows (n : Nat) (r : SliceRec) (draw : Nat) (s : State) : List (List Rat × Rat) :=
  (((calPoints n r s).zipIdx).filterMap (fun e =>
    (Config.calResidual draw e.2).map (fun g => calRow n (poseAt r.tov s).pose s e.1 g.1 g.2))).take 4096

/-- The normal equations: each row of JᵀJ with its right-hand side −Jᵀv. -/
def normalRows (rows : List (List Rat × Rat)) : List (List Rat) :=
  let at7 (e : List Rat × Rat) (i : Nat) : Rat := if i = 7 then -e.2 else nth e.1 i 0
  (List.range 7).map (fun i => (List.range 8).map (fun j => (rows.map (fun e => at7 e i * at7 e j)).sum))

/-- FUSE forms the residuals and the normal equations of the update its slice is due, if it is due one (R169). -/
def calResiduals (r : SliceRec) (s : State) : State :=
  if !fbit s CAM_CAL_CTRL CAM_CAL_CTRL_EN then s
  else match calSensor r.tov s with
    | none => s
    | some n =>
      let d := drawFree s
      let rows := calRows n r d.1 d.2
      { d.2 with cal := { d.2.cal with
          updates := d.2.cal.updates ++ [⟨r.seq, r.tov, n, rows.length, normalRows rows, .residuals, vzero, vzero, 0⟩] } }

/-- The outcome of an update enters LAST and AT_BOUND (R170, R175), and the header of every slice between its start and
its PUBLISH (R306). -/
def calOutcome (n last : Nat) (s0 : State) : State :=
  let s := { s0 with slices := s0.slices.map (fun r => if r.hdr = [] then { r with calOut := some (n, last) } else r) }
  fput (fset s (CAM_EXT_LAST n) CAM_EXT_LAST_LAST last) (CAM_EXT_CAL n) CAM_EXT_CAL_AT_BOUND (last == 5)

/-- The squared length of a vector. -/
def vsq (v : List Rat) : Rat := vdot v v

/-- The factor by which a step is divided (R170): never less than 1. -/
def calScale (rot trans : List Rat) (dt : Rat) (s : State) : Rat :=
  let a := Config.root (vsq rot) / ((fget s CAM_CAL_STEP CAM_CAL_STEP_STEP_ROT : Rat) / 1000)
  let b := Config.root (vsq trans) / ((fget s CAM_CAL_STEP CAM_CAL_STEP_STEP_TRANS : Rat) / 1000)
  let c := ratAbs dt / (fget s CAM_CAL_STEP_T CAM_CAL_STEP_T_STEP_T : Rat)
  max 1 (max a (max b c))

/-- The rotation correction of a sensor in degrees, its translation in nm, and TOFF_CAL in 0.25 ns. -/
def calRot (n : Nat) (s : State) : List Rat :=
  (List.range 3).map (fun i => Config.nradToDeg (signed 32 (fget s (CAM_DTHETA n i) fWord) : Rat))
def calTrans (n : Nat) (s : State) : List Rat := (List.range 3).map (fun i => (signed 32 (fget s (CAM_DT n i) fWord) : Rat))
def calToff (n : Nat) (s : State) : Int := signed 32 (fget s (SLC_CH_TOFF_CAL n) fWord)

/-- A step composed into the correction (R170): degrees, nm and 0.25 ns. -/
def calCompose (n : Nat) (rot trans : List Rat) (dt : Rat) (s : State) : List Rat × List Rat × Int :=
  let rad := rot.map (fun d => Config.degToNrad d / (10 ^ 9 : Nat))
  (Config.rotLog rot (calRot n s),
   vadd (qrot (Config.rotExp rad) (calTrans n s)) (vscale ((10 ^ 6 : Nat) : Rat) trans),
   calToff n s + ratFree (dt * 4))

/-- Whether a correction exceeds the bounds (R170). -/
def calExceeds (c : List Rat × List Rat × Int) (s : State) : Bool :=
  let br : Rat := (fget s CAM_CAL_BOUND CAM_CAL_BOUND_BOUND_ROT : Rat) / 1000
  let bt : Rat := (fget s CAM_CAL_BOUND CAM_CAL_BOUND_BOUND_TRANS : Rat) * (10 ^ 6 : Nat)
  let b4 := fget s CAM_CAL_BOUND_T CAM_CAL_BOUND_T_BOUND_T * 4000
  decide (vsq c.1 > br * br) || c.2.1.any (fun x => decide (ratAbs x > bt)) || decide (c.2.2.natAbs > b4)

/-- Replace the update of a sensor and slice, or drop it. -/
def calPut (seq n : Nat) (u : Option CalUpdate) (s : State) : State :=
  { s with cal := { s.cal with
      updates := s.cal.updates.flatMap (fun v => if v.seq = seq ∧ v.sensor = n then u.toList else [v]) } }

/-- Whether a slice's SOLVE has returned, or the slice is no longer in processing. -/
def solveReturned (seq : Nat) (s : State) : Bool :=
  match s.slices.find? (fun r => r.seq == seq) with
  | some r => bitOf 6 r.finished
  | none => true

/-- Whether a SOLVE stage holds the factorisation pipe (R171). -/
def pipeHeld (s : State) : Bool := s.slices.any (fun r => bitOf 6 r.begun && !bitOf 6 r.finished)

/-- Proposals of a slice go to the Spire beside its header copy (R170). -/
def calSend (seq : Nat) (s : State) : State :=
  let due (u : CalUpdate) : Bool := u.seq == seq && u.phase == .proposed
  let s1 := (s.cal.updates.filter due).foldl (fun s u => sendUp (.calStep u.seq u.sensor u.rot u.trans u.dt u.residuals
    (calCompose u.sensor u.rot u.trans u.dt s)) s) s
  { s1 with cal := { s1.cal with
      updates := s1.cal.updates.map (fun u => if due u then { u with phase := .sent } else u) } }

/-- Whether a slice's header copy has been sent, or the slice is gone. -/
def copySent (seq : Nat) (s : State) : Bool :=
  match s.slices.find? (fun r => r.seq == seq) with
  | some r => decide (r.hdr ≠ [])
  | none => true

/-- The rows of an elimination without exchange, each from its pivot on. -/
def eliminate : Nat → List (List Rat) → List (List Rat)
  | 0, _ => []
  | _, [] => []
  | k + 1, r :: rs =>
    let p := nth r 0 0
    r :: eliminate k (rs.map (fun q => (List.zipWith (fun a b => b - nth q 0 0 / p * a) r q).drop 1))

/-- The pivots of a Cholesky factor: the diagonal before its square roots, in FP32 with a free last bit. -/
def calPivots (u : CalUpdate) : List Nat := (eliminate 7 u.normal).map (fun r => fp32Free (nth r 0 0))

/-- The unknowns that eliminated rows give, the last first. -/
def backSolve : List (List Rat) → List Rat
  | [] => []
  | r :: rs =>
    let xs := backSolve rs
    ((r.getLast?.getD 0) - (List.zipWith (· * ·) (r.drop 1) xs).sum) / nth r 0 0 :: xs

/-- The step of an update: rotation in degrees, translation in mm and time offset in ns, in FP32 with free last bits. -/
def calStep (u : CalUpdate) (s : State) : List Rat × List Rat × Rat :=
  let x := (backSolve (eliminate 7 u.normal)).map (fun v => ofFp32 (fp32Free v))
  (vscale ((fget s CAM_CAL_STEP CAM_CAL_STEP_STEP_ROT : Rat) / 1000) (slice 0 3 x),
   vscale ((fget s CAM_CAL_STEP CAM_CAL_STEP_STEP_TRANS : Rat) / 1000) (slice 3 3 x),
   nth x 6 0 * (fget s CAM_CAL_STEP_T CAM_CAL_STEP_T_STEP_T : Rat))

/-- Whether an update is WEAK: too few residuals, or a pivot below PIVOT (R170). -/
def calWeak (u : CalUpdate) (s : State) : Bool :=
  decide (u.residuals < fget s CAM_CAL_MIN_RES CAM_CAL_MIN_RES_MIN_RES)
    || (calPivots u).any (fun p => decide (ofFp32 p < ofFp32 (fget s CAM_CAL_PIVOT fWord)))

/-- A step is small enough for R172. -/
def calSmall (rot trans : List Rat) (dt : Rat) : Bool :=
  decide (vsq rot ≤ 4 / (10 ^ 6 : Nat) ∧ vsq trans ≤ 1 / (100 : Nat) ∧ ratAbs dt ≤ (100 : Nat))

/-- A sensor's run of small accepted steps has a length, of which five make it CONVERGED (R172). -/
def setSmall (n k : Nat) (s : State) : State := { s with cal := { s.cal with smallSteps := setNth s.cal.smallSteps n k } }

/-- A step that breaks a limit of R172 ends CONVERGED, whatever becomes of the step. -/
def calBreak (n : Nat) (small : Bool) (s : State) : State :=
  if small then s else fput (setSmall n 0 s) (CAM_EXT_CAL n) CAM_EXT_CAL_CONVERGED false

/-- The calibration solve ends: WEAK, AT_BOUND, or the clamped step proposed (R170). -/
def calStepOutcome (u : CalUpdate) (s : State) : State :=
  let n := u.sensor
  let s1 := fset s (CAM_EXT_LAST n) CAM_EXT_LAST_RESIDUALS u.residuals
  if calWeak u s1 then calPut u.seq n none (calOutcome n 4 s1)
  else
    let o := calStep u s1
    let f := calScale o.1 o.2.1 o.2.2 s1
    let rot := vscale (1 / f) o.1
    let trans := vscale (1 / f) o.2.1
    let dt := o.2.2 / f
    let s2 := calBreak n (calSmall rot trans dt) s1
    if calExceeds (calCompose n rot trans dt s2) s2 then calPut u.seq n none (calOutcome n 5 s2)
    else
      let s3 := fon (calPut u.seq n (some { u with phase := .proposed, rot := rot, trans := trans, dt := dt }) s2)
        (CAM_EXT_CAL n) CAM_EXT_CAL_PENDING
      if copySent u.seq s3 then calSend u.seq s3 else s3

/-- An update is SKIPPED (R171). -/
def calSkip (u : CalUpdate) (s : State) : State :=
  bump (calPut u.seq u.sensor none (calOutcome u.sensor 6 s)) CAM_CAL_SKIP

/-- The update whose solve runs on the factorisation pipe. -/
def calRunning (s : State) : Option CalUpdate := s.cal.updates.find? (fun u => u.phase == .solving)

/-- A reset of SOLVER while the calibration solve runs: the update is SKIPPED (R171). -/
def calSolverReset (s : State) : State :=
  match calRunning s with
  | some u => calSkip u s
  | none => s

/-- The running calibration solve ends; else the oldest update that waits for its solve claims the pipe, which one command
does and the next one completes, or is SKIPPED after ToV + 880 µs (R171; DESIGN CHOICE, log entry 85). -/
def calSolve (s : State) : State :=
  match calRunning s with
  | some u => calStepOutcome u s
  | none =>
    match s.cal.updates.find? (fun u => u.phase == .residuals && solveReturned u.seq s) with
    | none => s
    | some u =>
      if lin s > u.tov + 880000 then calSkip u s
      else if pipeHeld s || unitFenced flatFactor s || unitHeld flatFactor s then s
      else calPut u.seq u.sensor (some { u with phase := .solving }) s

/-- An accepted small step lengthens its sensor's run, and five in a row make it CONVERGED; a step that is not accepted
ends the run (R172; DEDUCED, log entry 66). -/
def calConverge (u : CalUpdate) (s : State) : State :=
  let k := if calSmall u.rot u.trans u.dt then clampNat 5 (nth s.cal.smallSteps u.sensor 0 + 1) else 0
  let s1 := setSmall u.sensor k s
  if k = 5 then fon s1 (CAM_EXT_CAL u.sensor) CAM_EXT_CAL_CONVERGED else s1

/-- A reply ends a proposal: PENDING is cleared and the outcome noted. -/
def calEnd (u : CalUpdate) (last : Nat) (s : State) : State :=
  calPut u.seq u.sensor none (calOutcome u.sensor last (fput s (CAM_EXT_CAL u.sensor) CAM_EXT_CAL_PENDING false))

/-- No reply by ToV + 5,000 µs (R170). -/
def calMissed (u : CalUpdate) (s : State) : State := bump (setSmall u.sensor 0 (calEnd u 3 s)) CAM_CAL_NOREPLY

/-- The Spire's reply to a proposal arrives (R170): one that comes after the limit finds the proposal ended. -/
def calReply (seq sensor : Nat) (accept : Bool) (s : State) : State :=
  match s.cal.updates.find? (fun u => u.seq == seq && u.sensor == sensor && u.phase == .sent) with
  | none => s
  | some u =>
    let a := CAM_EXT_CNT sensor
    if u.tov + 5000000 < lin s then calMissed u s
    else if accept then
      let s1 := fset s a CAM_EXT_CNT_ACCEPTED (fget s a CAM_EXT_CNT_ACCEPTED + 1)
      let s2 := calConverge u (calEnd u 1 s1)
      { s2 with cal := { s2.cal with accepted := s2.cal.accepted ++ [u] } }
    else setSmall sensor 0 (calEnd u 2 (fset s a CAM_EXT_CNT_REJECTED (fget s a CAM_EXT_CNT_REJECTED + 1)))

/-- The limit of the oldest proposal passes. -/
def calNoReply (s : State) : State :=
  match s.cal.updates.find? (fun u => u.phase == .proposed || u.phase == .sent) with
  | none => s
  | some u => calMissed u (runTo ((u.tov + 5000000) * unitsPerNs) s)

/-- An accepted step is composed into the correction of its sensor (R170). -/
def calApplyOne (s : State) (u : CalUpdate) : State :=
  let n := u.sensor
  let c := calCompose n u.rot u.trans u.dt s
  let put (a : Nat → Nat) (v : List Int) (s : State) : State :=
    forUpTo 3 (fun i s => fset s (a i) fWord (unsigned 32 (nth v i 0))) s
  fset (put (CAM_DT n) (c.2.1.map ratFree) (put (CAM_DTHETA n) (c.1.map (fun d => ratFree (Config.degToNrad d))) s))
    (SLC_CH_TOFF_CAL n) fWord (unsigned 32 c.2.2)

/-- Accepted steps apply at a slice start (R170, R173). -/
def calApply (s : State) : State :=
  let s1 := s.cal.accepted.foldl calApplyOne s
  { s1 with cal := { s1.cal with accepted := [] } }

/-- A write to the nominal extrinsic zeroes the correction and TOFF_CAL (R175). -/
def calZero (n : Nat) (s : State) : State :=
  fset (forUpTo 3 (fun i s => fset (fset s (CAM_DTHETA n i) fWord 0) (CAM_DT n i) fWord 0) s) (SLC_CH_TOFF_CAL n) fWord 0

end Sys2Proof.Machine
end

