-- ==== Sys2Proof/Machine/Fuse.lean ====
section
/-! DEFINITION. The fusion head's cells and the level F section (R163 to R168). -/
namespace Sys2Proof.Machine

/-- Change the grid. -/
def updGrid (f : GridState → GridState) (s : State) : State := { s with grid := f s.grid }

/-- Whether the grid makes a level F. -/
def gridOn (s : State) : Bool := fbit s CAM_GRID_CFG CAM_GRID_CFG_EN

/-- The cells of one axis of a block of 2^l cells that holds cell i. -/
def blockCells (l i : Nat) : List Nat := (List.range (2 ^ l)).map (fun k => i / 2 ^ l * 2 ^ l + k)

/-- Whether a voxel covers a cell's column: 5 voxel edges of level 0 a cell, 2^LEVEL edges the voxel. -/
def columnHit (cx cy : Int) (e : Nat) (s : State) : Bool :=
  match entPlace e s with
  | some (ix, iy, _, _) =>
    decide (ix < 5 * cx + 5 ∧ 5 * cx < ix + 2 ^ entLevel e ∧ iy < 5 * cy + 5 ∧ 5 * cy < iy + 2 ^ entLevel e)
  | none => false

/-- SEEN_RANGE of a cell: level P holds a valid voxel in its column (R165). -/
def seenRange (tx ty : Int) (i j : Nat) (s : State) : Bool :=
  fbit s VHE_CTRL VHE_CTRL_EN && (allValid s).any (fun e => columnHit (64 * tx + i) (64 * ty + j) e s)

/-- A cell's value: the value of its block (R165, R166). A block has a SEEN bit when one of its cells has it (DEDUCED, log
entry 48). -/
def cellWord (tx ty : Int) (i j : Nat) (s : State) : Nat :=
  let l := s.grid.fuseLevel
  let h := Config.fusionHead s.grid.fuseDraw tx ty (i / 2 ^ l * 2 ^ l) (j / 2 ^ l * 2 ^ l)
  let any (f : Nat → Nat → Bool) : Bool := (blockCells l i).any (fun a => (blockCells l j).any (fun b => f a b))
  h.1 % 256 + h.2.1 % 64 * 2 ^ 8 + b2n (any (fun a b => seenCam tx ty a b s)) * 2 ^ 14
    + b2n (any (fun a b => seenRange tx ty a b s)) * 2 ^ 15 + h.2.2 % 65536 * 2 ^ 16

/-- The 4,096 cells of a tile in row order. -/
def tileCells (tx ty : Int) (s : State) : List Nat :=
  (List.range 64).flatMap (fun j => (List.range 64).map (fun i => cellWord tx ty i j s))

/-- Where the reference of cell k of a tile is kept: a window holds one tile of each residue modulo 16. -/
def refKey (tx ty : Int) (k : Nat) : Nat := ((ty % 16).toNat * 16 + (tx % 16).toNat) * 4096 + k

/-- The reference after the n listed tiles that follow (R167). -/
def refTake : Nat → List Nat → Cells Nat → Cells Nat
  | 0, _, m => m
  | n + 1, ws, m =>
    let tx := signed 32 (nth ws 0 0)
    let ty := signed 32 (nth ws 1 0)
    refTake n (ws.drop 4100) (((ws.drop 4).take 4096).zipIdx.foldl (fun m e => cellsSet (fun _ => 0) m (refKey tx ty e.2) e.1) m)

/-- The reference after a whole section. -/
def refSection (m : Cells Nat) (sec : List Nat) : Cells Nat := refTake (nth sec 1 0) (sec.drop 16) m

/-- What the consumer holds once every result in processing has reached it: an abandoned one never does (R167). -/
def heldCells (s : State) : Cells Nat :=
  s.slices.foldl (fun m r => if bitOf 4 r.finished then refSection m r.secF else m) s.grid.reference

/-- The reference value of a cell. -/
def refGet (held : Cells Nat) (tx ty : Int) (k : Nat) : Nat := cellsGet (fun _ => 0) held (refKey tx ty k)

/-- Whether a cell differs from its reference enough for its tile to be listed (R167). -/
def cellDiffers (v w : Nat) (s : State) : Bool :=
  let occ (x : Nat) : Int := natField 7 0 x
  let hgt (x : Nat) : Int := signed 16 (natField 31 16 x)
  let unknown (x : Nat) : Bool := natField 31 16 x == 0x8000
  natField 13 8 v != natField 13 8 w
    || decide ((occ v - occ w).natAbs > fget s CAM_GRID_DELTA CAM_GRID_DELTA_OCC_DELTA)
    || unknown v != unknown w
    || (!unknown v && decide ((hgt v - hgt w).natAbs > fget s CAM_GRID_DELTA CAM_GRID_DELTA_HGT_DELTA))

/-- Whether a tile of the window is listed in a section that is not FULL. -/
def tileListed (held : Cells Nat) (tx ty : Int) (cells : List Nat) (s : State) : Bool :=
  s.grid.entered.contains (tx, ty) || cells.zipIdx.any (fun e => cellDiffers e.1 (refGet held tx ty e.2) s)

/-- Whether the level F section of a slice is FULL (R167). -/
def fFull (r : SliceRec) (s : State) : Bool :=
  let p := nth r.secP 0 0
  decide (r.seq % 10 = 0) || firstResult r s || (bitOf 0 p && (bitOf 1 p || bitOf 2 p)) || s.grid.rebuilt

/-- A tile with its header. -/
def tileWords (tx ty : Int) (cells : List Nat) (s : State) : List Nat :=
  [unsigned 32 tx, unsigned 32 ty, b2n (s.grid.entered.contains (tx, ty)), 0] ++ cells

/-- The cameras of a list of channel numbers, as a mask. -/
def camMask (ns : List Nat) : Nat := ((List.range 16).filter (fun n => ns.contains n)).foldl (fun a n => a + 2 ^ n) 0

/-- Cameras whose frames joined a slice, those marked LO_ONLY among them, and the latter alone (R108, R115). -/
def joinedCams (r : SliceRec) : Nat := camMask (r.frames.map FrameRec.ch ++ (r.evidence.filter Evidence.isFrame).map Evidence.ch)
def loCams (r : SliceRec) : Nat := camMask ((List.range 16).filter (fun n => (nth r.chans n ChanSlice.fresh).loOnly))

/-- The level F section (R168); with the grid's EN clear, its header alone. -/
def fSection (r : SliceRec) (s : State) : List Nat :=
  let full := fFull r s
  let held := heldCells s
  let tiles := if !gridOn s then [] else
    (windowTiles (gridX0 s) (gridY0 s)).filterMap (fun t =>
      let cells := tileCells t.1 t.2 s
      if full || tileListed held t.1 t.2 cells s then some (tileWords t.1 t.2 cells s) else none)
  [b2n full + b2n s.grid.shifted * 2 + s.grid.fuseLevel * 4, tiles.length, fget s CAM_GX0 fWord, fget s CAM_GY0 fWord,
    unsigned 32 s.grid.zref, joinedCams r, loCams r] ++ List.replicate 9 0 ++ tiles.flatten

/-- FUSE starts on a slice (R163, R165, R169): the window follows the machine, the head's values are drawn, the section
is formed, and the residuals of a calibration update due in this slice. -/
def fuseStart (r : SliceRec) (level : Nat) (s : State) : State × List Nat :=
  let d := drawFree (gridShift r s)
  let l := if gridOn s then effLevel r.half level else 0
  let s1 := updGrid (fun g => { g with
    fuseDraw := d.1, fuseTov := r.tov, fuseLevel := l, zref := signed 32 (nth r.secP 4 0) }) d.2
  (calResiduals r (fset s1 CAM_GRID_ST CAM_GRID_ST_LEVEL l), fSection r s1)

/-- FUSE ends: the tiles listed are counted, and a FULL section owed by a rebuild has been formed (R167, R175). -/
def fuseEnd (sec : List Nat) (s : State) : State :=
  updGrid (fun g => { g with rebuilt := false }) (bumpBy s CAM_TILES_SENT fWord (nth sec 1 0))

/-- A result with a level F section is complete: the reference takes its tiles (R167). -/
def publishF (sec : List Nat) (s : State) : State := updGrid (fun g => { g with reference := refSection g.reference sec }) s

/-- A reset of FUSION or SOLVER clears the feature grid and the reference (R173). -/
def gridClear (s : State) : State := updGrid (fun g => { g with feats := [], reference := [], rebuilt := true }) s

end Sys2Proof.Machine
end

