-- ==== Sys2Proof/Machine/TimeCmds.lean ====
section
/-! DEFINITION. The meanings of the time base's commands and of the time opcodes (R39 to R74, R471). -/
namespace Sys2Proof.Machine

/-! ## Registers -/

/-- The word a high-word write commits with: the held low word, else the register's own low word (R10). -/
def takeLow (low : Nat) (s : State) : Nat × State :=
  match assocGet s.heldLow low with
  | some w => (w.toNat, { s with heldLow := assocDel s.heldLow low })
  | none => ((rd s low).toNat, s)

/-- A write of the high word of BLF_RATE commits both words (R10, R40, R44). -/
def rateHighWrite (v : Word) (s : State) : State :=
  rateCommit ((takeLow BLF_RATE_LO s).1 + 2 ^ 32 * v.toNat) (takeLow BLF_RATE_LO s).2

/-- A write of the high word of BLF_ADJ commits both words (R10, R42, R44). -/
def adjHighWrite (v : Word) (s : State) : State :=
  adjCommit ((takeLow BLF_ADJ_LO s).1 + 2 ^ 32 * v.toNat) (takeLow BLF_ADJ_LO s).2

/-- A bus write to a register of compare n: CMP0 to CMP7 belong to the device, whose registers keep their values, with
CFG_REJECT (R46); a firing that is due goes before it (R28, R48). -/
def cmpWordWrite (n : Nat) (f : State → State) (s : State) : State :=
  if n < 8 then blfReject s else f (cmpSettle n s)

/-- A compare's CTRL word is stored; ARM from 0 to 1 arms it (R48). -/
def cmpCtrlStore (n : Nat) (v : Word) (s : State) : State :=
  let was := fbit s (BLF_CMP_CTRL n) BLF_CMP_CTRL_ARM
  let s1 := wr s (BLF_CMP_CTRL n) (BitVec.ofNat 32 (v.toNat % 4))
  if !was && fbit s1 (BLF_CMP_CTRL n) BLF_CMP_CTRL_ARM then cmpBecomesArmed n s1 else s1

/-- A bus write of a compare's CTRL word (R46, R48). -/
def cmpCtrlWrite (n : Nat) (v : Word) (s : State) : State := cmpWordWrite n (cmpCtrlStore n v) s

def execPhaseAdjust (agent : Agent) (high : Word) (s : State) : Host.Outcome State Fault Refusal :=
  onAgent agent (adjHighWrite high) s

def execBlfRateWrite (agent : Agent) (high : Word) (s : State) : Host.Outcome State Fault Refusal :=
  onAgent agent (rateHighWrite high) s

def execXtsCapture (agent : Agent) (_value : Word) (s : State) : Host.Outcome State Fault Refusal :=
  onAgent agent xtsCapture s

def execCmpArm (agent : Agent) (n : Fin 16) (ctrl : Word) (s : State) : Host.Outcome State Fault Refusal :=
  onAgent agent (cmpCtrlWrite n ctrl) s

def execTrigModeWrite (agent : Agent) (n : Fin 16) (word : Word) (s : State) : Host.Outcome State Fault Refusal :=
  onAgent agent (trigModeWord n word) s

def execTrigEdge (n : Fin 16) (s : State) : Host.Outcome State Fault Refusal := onMain (trigEdge n) s

def execTrigPulseEnd (n : Fin 16) (s : State) : Host.Outcome State Fault Refusal := onMain (trigPulseEnd n) s

/-- A read completes with a word. -/
def readDone (r : State × Word) : State := { r.1 with readData := some r.2, readHigh := none }

def execCapPop (agent : Agent) (n : Fin 32) (s : State) : Host.Outcome State Fault Refusal :=
  onAgent agent (fun s => readDone (capPop n s)) s


def execTxqPop (agent : Agent) (s : State) : Host.Outcome State Fault Refusal :=
  onAgent agent (fun s => readDone (txqPop s)) s

def execAnnounceReceiptTimeout (port : Fin 10) (s : State) : Host.Outcome State Fault Refusal := onMain (announceLost port) s

def execSyncReceiptTimeout (s : State) : Host.Outcome State Fault Refusal :=
  onMain slaveHoldover s

def execHostHoldoverTimeout (s : State) : Host.Outcome State Fault Refusal := onMain hostHoldoverTimeout s

def execPpsEdgeMissing (s : State) : Host.Outcome State Fault Refusal := onMain ppsMissing s

def execSlewAbsorbed (s : State) : Host.Outcome State Fault Refusal := onMain slewAbsorbed s


/-! ## Time opcodes (R73) -/

/-- The two words of a 64-bit quantity, low first. -/
def words64 (v : Nat) : List Nat := [v % 2 ^ 32, v / 2 ^ 32 % 2 ^ 32]

/-- The 64-bit quantity of two words, low first. -/
def of64 (ws : List Nat) (i : Nat) : Nat := nth ws i 0 + 2 ^ 32 * nth ws (i + 1) 0

/-- TIME_GET. -/
def cmdTimeGet (ps : List Nat) (s : State) : CmdOut :=
  withParams 0 ps (fun s => ok (t96Words (time16 s) ++ [(rd s BLF_STATUS).toNat] ++ words64 (rd64 s BLF_RATE_LO)
    ++ [match slavePort s with | some p => fget s (BLF_PORT_OFFSET p) fWord | none => 0]
    ++ words64 s.ptp.grandmaster) s) s

/-- TIME_SET. -/
def cmdTimeSet (ps : List Nat) (s : State) : CmdOut :=
  withParams 4 ps (fun s =>
    if nth ps 1 0 ≥ 10 ^ 9 ∨ nth ps 0 0 ≥ 2 ^ 16 ∨ nth ps 3 0 ≥ 2 ^ 16 then fail stParam s
    else if running s then fail stBusy s
    else ok [] (timeStep (t96Of ps * 2 ^ 32) s)) s

/-- TIME_ADJUST. -/
def cmdTimeAdjust (ps : List Nat) (s : State) : CmdOut :=
  withParams 2 ps (fun s =>
    if ptpMode s = ptpInternal then fail stBusy s else ok [] (phaseAdjust (signed 64 (of64 ps 0)) s)) s

/-- TIME_SET_RATE. -/
def cmdTimeSetRate (ps : List Nat) (s : State) : CmdOut :=
  withParams 2 ps (fun s =>
    if ptpMode s = ptpInternal then fail stBusy s
    else
      let s1 := storeRate (signed 64 (of64 ps 0)) s
      ok (words64 (rd64 s1 BLF_RATE_LO)) s1) s

/-- Byte i of a word as a signed number. -/
def sbyte (w i : Nat) : Int := signed 8 (w / 256 ^ i)

/-- Whether the three log message intervals lie in the ranges of R59. -/
def intervalsOk (w : Nat) : Bool :=
  decide (-7 ≤ sbyte w 0 ∧ sbyte w 0 ≤ 1) && decide (-3 ≤ sbyte w 1 ∧ sbyte w 1 ≤ 3)
    && decide (-7 ≤ sbyte w 2 ∧ sbyte w 2 ≤ 3) && decide (w / 2 ^ 24 = 0)

/-- PTP_CONFIG. -/
def cmdPtpConfig (ps : List Nat) (s : State) : CmdOut :=
  withParams 5 ps (fun s =>
    let v : Word := BitVec.ofNat 32 (nth ps 0 0)
    let slew := getBits BLF_CTRL_SLEW_PPM v
    let lock : Word := BitVec.ofNat 32 (nth ps 2 0)
    if nth ps 0 0 ≥ 2 ^ 26 ∨ getBits BLF_CTRL_PTP_MODE v = 3 ∨ getBits BLF_CTRL_ROLE v = 3 ∨ slew = 0 ∨ slew > 100
        ∨ nth ps 2 0 ≥ 2 ^ 24 ∨ getBits BLF_LOCK_COUNT lock = 0 ∨ !intervalsOk (nth ps 3 0) then fail stParam s
    else if ctrlFrozen v s then fail stBusy s
    else
      let s1 := fset (ctrlStore v s) BLF_STEP_LIMIT fWord (nth ps 1 0)
      let s2 := slewStatus (lockWrite lock s1)
      ok [] { s2 with ptp := { s2.ptp with
        logIntervals := BitVec.ofNat 32 (nth ps 3 0), clockAttrs := BitVec.ofNat 32 (nth ps 4 0) } }) s

/-- PTP_PORT_CONFIG. -/
def cmdPtpPortConfig (ps : List Nat) (s : State) : CmdOut :=
  withParams 5 ps (fun s =>
    let p := nth ps 0 0
    let v : Word := BitVec.ofNat 32 (nth ps 1 0)
    if p > 9 ∨ getBits BLF_PORT_CFG_TRANSPORT v = 3 ∨ nth ps 1 0 ≥ 2 ^ 7 then fail stParam s
    else ok [] (fset (fset (fset (portCfgWrite p v s) (BLF_PORT_INGRESS_LAT p) fWord (nth ps 2 0))
      (BLF_PORT_EGRESS_LAT p) fWord (nth ps 3 0)) (BLF_PORT_ASYM p) fWord (nth ps 4 0))) s

/-- PTP_STATUS. -/
def cmdPtpStatus (ps : List Nat) (s : State) : CmdOut :=
  withParams 1 ps (fun s =>
    let p := nth ps 0 0
    if p > 9 then fail stParam s
    else
      let parent := (portRec p s).parent
      ok ([fget s (BLF_PORT_STATE p) BLF_PORT_STATE_STATE, fget s (BLF_PORT_PATH_DELAY p) fWord,
        fget s (BLF_PORT_OFFSET p) fWord, fget s (BLF_PORT_RX_EVENTS p) fWord, fget s (BLF_PORT_TX_EVENTS p) fWord]
        ++ words64 parent ++ [parent / 2 ^ 64 % 2 ^ 32]) s) s

/-- Whether an image's schedule words differ from generator n's stored ones (R471). -/
def trigImageDiffers (n : Nat) (img : List Nat) (s : State) : Bool :=
  let v : Word := BitVec.ofNat 32 (nth img 0 0)
  getBits BLF_TRIG_MODE_DIV v != fget s (BLF_TRIG_MODE n) BLF_TRIG_MODE_DIV
    || nth img 1 0 != fget s (BLF_TRIG_START n) fWord
    || nth img 2 0 != fget s (BLF_TRIG_START_FRAC n) fWord
    || nth img 3 0 != fget s (BLF_TRIG_PERIOD n) fWord
    || nth img 4 0 != fget s (BLF_TRIG_PERIOD_FRAC n) fWord
    || nth img 6 0 != fget s (BLF_TRIG_PHASE n) fWord

/-- Store an image's words other than MODE. -/
def trigImageStore (n : Nat) (img : List Nat) (s : State) : State :=
  fset (fset (fset (fset (fset (fset s (BLF_TRIG_START n) fWord (nth img 1 0))
    (BLF_TRIG_START_FRAC n) BLF_TRIG_START_FRAC_START_FRAC (nth img 2 0)) (BLF_TRIG_PERIOD n) fWord (nth img 3 0))
    (BLF_TRIG_PERIOD_FRAC n) BLF_TRIG_PERIOD_FRAC_PERIOD_FRAC (nth img 4 0))
    (BLF_TRIG_WIDTH n) BLF_TRIG_WIDTH_WIDTH (nth img 5 0)) (BLF_TRIG_PHASE n) BLF_TRIG_PHASE_PHASE (nth img 6 0)

/-- The words of a generator's block that an image holds, in address order (R73). -/
def trigWords (n : Nat) : List Nat :=
  [BLF_TRIG_MODE n, BLF_TRIG_START n, BLF_TRIG_START_FRAC n, BLF_TRIG_PERIOD n, BLF_TRIG_PERIOD_FRAC n, BLF_TRIG_WIDTH n, BLF_TRIG_PHASE n]

/-- Whether an image holds a reserved bit or a value outside its field's range (R289; DEDUCED, log entry 59). -/
def trigImageBad (n : Nat) (img : List Nat) : Bool :=
  (List.range 7).any (fun i => reservedSet (nth (trigWords n) i 0) (nth img i 0))
    || decide (2 ^ 31 ≤ nth img 3 0) || decide (999999 < nth img 6 0)

/-- TRIG_CONFIG (R471). -/
def cmdTrigConfig (ps : List Nat) (s : State) : CmdOut :=
  withParams 8 ps (fun s =>
    let n := nth ps 0 0
    let img := ps.drop 1
    let v : Word := BitVec.ofNat 32 (nth img 0 0)
    let m0 := fget s (BLF_TRIG_MODE n) BLF_TRIG_MODE_MODE
    let m1 := getBits BLF_TRIG_MODE_MODE v
    let div := getBits BLF_TRIG_MODE_DIV v
    if n > 15 ∨ trigImageBad n img then fail stParam s
    else if m0 = 0 ∧ m1 ≠ 0 ∧ trigRefused n m1 div (trigImageStore n img s) then fail stParam s
    else if m0 ≠ 0 ∧ m1 ≠ 0 ∧ (m1 ≠ m0 ∨ trigImageDiffers n img s) then fail stBusy s
    else if m0 ≠ 0 ∧ m1 = 0 then
      ok [] (trigModeWord n v (trigImageStore n img (trigModeWord n (rd s (BLF_TRIG_MODE n) &&& 0xFFFFFFFC) s)))
    else ok [] (trigModeWord n v (trigImageStore n img s))) s

/-- CAP_CONFIG. -/
def cmdCapConfig (ps : List Nat) (s : State) : CmdOut :=
  withParams 2 ps (fun s =>
    if nth ps 0 0 > 31 ∨ nth ps 1 0 ≥ 2 ^ 11 then fail stParam s
    else ok [] (wr s (BLF_CAP_CFG (nth ps 0 0)) (BitVec.ofNat 32 (nth ps 1 0)))) s

/-- CMP_CONFIG. -/
def cmdCmpConfig (ps : List Nat) (s : State) : CmdOut :=
  withParams 4 ps (fun s =>
    let n := nth ps 0 0
    if n < 8 ∨ n > 15 ∨ nth ps 3 0 ≥ 4 then fail stParam s
    else ok [] (cmpWordWrite n (fun s => cmpCtrlStore n (BitVec.ofNat 32 (nth ps 3 0))
      (fset (fset s (BLF_CMP_VAL n) fWord (nth ps 1 0)) (BLF_CMP_RELOAD n) fWord (nth ps 2 0))) s)) s

/-- Take up to k TX stamps and their reply words. -/
def takeStamps : Nat → State → List (List Nat) × State
  | 0, s => ([], s)
  | k + 1, s =>
    match takeStamp s with
    | (none, s1) => ([], s1)
    | (some t, s1) => (([stampWord t] ++ t96Words t.t) :: (takeStamps k s1).1, (takeStamps k s1).2)

/-- TXQ_READ. -/
def cmdTxqRead (ps : List Nat) (s : State) : CmdOut :=
  withParams 1 ps (fun s =>
    let m := nth ps 0 0
    if m = 0 ∨ m > 32 then fail stParam s
    else
      let r := takeStamps m s
      ok (r.1.length :: r.1.flatten) r.2) s

/-- PTP_TX_FRAME. -/
def cmdPtpTxFrame (ps : List Nat) (s : State) : CmdOut :=
  let p := nth ps 0 0
  let len := nth ps 3 0
  if ps.length < 4 ∨ p > 7 ∨ len < 60 ∨ len > 1514 ∨ ps.length ≠ 4 + (len + 3) / 4 ∨ nth ps 1 0 > 1 ∨ nth ps 2 0 ≥ 2 ^ 16 then
    fail stParam s
  else if (s.ptp.txFrames.filter (fun f => f.port == p)).length ≥ 8 then fail stNoResource s
  else
    let f : TxFrame := ⟨p, nth ps 2 0, nth ps 1 0 == 1, (ps.drop 4).map (BitVec.ofNat 32)⟩
    ok [] { s with ptp := { s.ptp with txFrames := s.ptp.txFrames ++ [f] } }

/-- PTP_RX_FRAME. -/
def cmdPtpRxFrame (ps : List Nat) (s : State) : CmdOut :=
  withParams 0 ps (fun s =>
    if ptpMode s ≠ ptpHost then fail stNoResource s
    else match s.ptp.rxQueue with
      | [] => ok [0, 0, 0, 0, 0, 0] s
      | f :: r => ok ([f.port] ++ t96Words f.t ++ [f.bytes] ++ f.words.map BitVec.toNat)
          { s with ptp := { s.ptp with rxQueue := r } }) s

/-- What the block does while no command waits: one Belfry cycle passes, unless the main die is stopped (DESIGN CHOICE, log entry 2). -/
def idle (s : State) : State := if mainRuns s then elapse 1 s else s

def execTimeGet (h : CmdHead) (ps : List Word) (s : State) : Host.Outcome State Fault Refusal := onCmd h 0x0301 cmdTimeGet ps s
def execTimeSet (h : CmdHead) (ps : List Word) (s : State) : Host.Outcome State Fault Refusal := onCmd h 0x0302 cmdTimeSet ps s
def execTimeAdjust (h : CmdHead) (ps : List Word) (s : State) : Host.Outcome State Fault Refusal := onCmd h 0x0303 cmdTimeAdjust ps s
def execTimeSetRate (h : CmdHead) (ps : List Word) (s : State) : Host.Outcome State Fault Refusal := onCmd h 0x0304 cmdTimeSetRate ps s
def execPtpConfig (h : CmdHead) (ps : List Word) (s : State) : Host.Outcome State Fault Refusal := onCmd h 0x0305 cmdPtpConfig ps s
def execPtpPortConfig (h : CmdHead) (ps : List Word) (s : State) : Host.Outcome State Fault Refusal := onCmd h 0x0306 cmdPtpPortConfig ps s
def execPtpStatus (h : CmdHead) (ps : List Word) (s : State) : Host.Outcome State Fault Refusal := onCmd h 0x0307 cmdPtpStatus ps s
def execTrigConfig (h : CmdHead) (ps : List Word) (s : State) : Host.Outcome State Fault Refusal := onCmd h 0x0308 cmdTrigConfig ps s
def execCapConfig (h : CmdHead) (ps : List Word) (s : State) : Host.Outcome State Fault Refusal := onCmd h 0x0309 cmdCapConfig ps s
def execCmpConfig (h : CmdHead) (ps : List Word) (s : State) : Host.Outcome State Fault Refusal := onCmd h 0x030A cmdCmpConfig ps s
def execTxqRead (h : CmdHead) (ps : List Word) (s : State) : Host.Outcome State Fault Refusal := onCmd h 0x030B cmdTxqRead ps s
def execPtpTxFrame (h : CmdHead) (ps : List Word) (s : State) : Host.Outcome State Fault Refusal := onCmd h 0x0310 cmdPtpTxFrame ps s
def execPtpRxFrame (h : CmdHead) (ps : List Word) (s : State) : Host.Outcome State Fault Refusal := onCmd h 0x0311 cmdPtpRxFrame ps s

end Sys2Proof.Machine
end

