-- ==== Sys2Proof/Machine/Valid.lean ====
section
/-! DEFINITION. The ranges of the alignment and ego-motion registers, shared by register writes and opcodes (R126). -/
namespace Sys2Proof.Machine

/-- Whether a channel is one of ING16 to ING23. -/
def isEth (n : Nat) : Bool := decide (16 ≤ n ∧ n < 24)

/-- Whether SLC_CH_CFG may take a word: the roles and the settings of Ethernet channels (R126). -/
def slcCfgOk (n v : Nat) : Bool :=
  let role := natField 2 1 v
  (role == 0 || (role == 1 && decide (28 ≤ n ∧ n < 30)) || (role == 2 && decide (30 ≤ n)))
    && (!bitOf 4 v || isEth n) && (!bitOf 5 v || isEth n)

/-- Whether every point field lies within STRIDE (R126): words +0x14, +0x18 and +0x1C. -/
def slcPointsOk (w14 w18 w1c : Nat) : Bool :=
  let stride := natField 23 16 w14
  let wt := if bitOf 2 w1c then 8 else 4
  decide (natField 7 0 w18 + 4 ≤ stride ∧ natField 15 8 w18 + 4 ≤ stride ∧ natField 23 16 w18 + 4 ≤ stride
    ∧ natField 31 24 w18 + wt ≤ stride)

/-- Whether the word at +0x1C is valid beside a CFG word: T_ABS needs SENSOR time and 64 bits, SCALE is not 0. -/
def slcFmtOk (cfg w1c : Nat) : Bool :=
  (!bitOf 1 w1c || (bitOf 4 cfg && bitOf 2 w1c)) && decide (natField 31 16 w1c ≠ 0)

/-- Whether FRAME_PERIOD is in range. -/
def framePeriodOk (v : Nat) : Bool := decide (125 ≤ natField 19 0 v ∧ natField 19 0 v ≤ 1000000)

/-- Whether STRIDE is in range. -/
def strideOk (v : Nat) : Bool := decide (8 ≤ natField 23 16 v)

/-- Store a channel's CFG word: EN starts the silence count, and a channel without SENSOR time has no offset (R112,
R113). -/
def slcCfgStore (n : Nat) (v : Word) (s : State) : State :=
  let was := chanEn n s
  let s1 := storeRw (SLC_CH_CFG n) v s
  let c := alnGet n s1
  let c1 := if !was && chanEn n s1 then { c with silent := false, quietFrom := upNs s1 } else c
  let c2 := if sensorTimed n s1 && chanEn n s1 then c1 else { c1 with unsync := false, windowMin := none, okCount := 0 }
  let s2 := alnSet n c2 s1
  chanStatus n (if sensorTimed n s2 then s2 else fset s2 (SLC_CH_OFFSET_EST n) fWord 0)

/-- Whether a global register's word is in range, by its offset from 0x0041_0000 (R126). -/
def slcGlobalOk (off v : Nat) : Bool :=
  match off with
  | 0x0 => decide (natField 5 0 v ≤ 40)
  | 0x4 => decide (1 ≤ natField 9 0 v ∧ natField 9 0 v ≤ 1000)
  | 0x8 => decide (1 ≤ natField 15 0 v ∧ natField 15 0 v ≤ 1000 ∧ 1 ≤ natField 23 16 v)
  | _ => true

/-- A write of CLOSE re-aims CMP2 (R106). -/
def slcCloseStore (v : Word) (s : State) : State := reaim (storeRw SLC_CLOSE v s)

/-- Whether an axis map is a permutation of the axes. -/
def axisMapOk (m : Nat) : Bool :=
  let a := natField 2 0 m
  let b := natField 6 4 m
  let c := natField 10 8 m
  decide (a % 4 < 3 ∧ b % 4 < 3 ∧ c % 4 < 3 ∧ a % 4 ≠ b % 4 ∧ a % 4 ≠ c % 4 ∧ b % 4 ≠ c % 4)

/-- Whether the three field offsets of an IMU format word lie within the read of its channel. -/
def imuOffsOk (i w width : Nat) (s : State) : Bool :=
  let len := fget s (ING_SPI_CFG i) ING_SPI_CFG_LEN
  decide (natField 7 0 w + width ≤ len ∧ natField 15 8 w + width ≤ len ∧ natField 23 16 w + width ≤ len)

/-- Whether an ego register's word is in range, by its offset from 0x0041_1000 (R126). -/
def egoOk (off v : Nat) (s : State) : Bool :=
  match off with
  | 0x04 => decide (1 ≤ natField 15 0 v ∧ 1 ≤ natField 31 16 v)
  | 0x08 => decide (10 ≤ natField 15 0 v ∧ 10 ≤ natField 31 16 v)
  | 0x0C => decide (125 ≤ natField 15 0 v ∧ natField 15 0 v ≤ 10000 ∧ 125 ≤ natField 31 16 v ∧ natField 31 16 v ≤ 10000)
  | 0x100 | 0x120 =>
    let i := (off - 0x100) / 0x20
    let width := if bitOf 24 v then 4 else 2
    imuOffsOk i v width s && imuOffsOk i (rd s (SLC_IMU_ACC i)).toNat width s
  | 0x104 | 0x124 =>
    let i := (off - 0x104) / 0x20
    imuOffsOk i v (if fbit s (SLC_IMU_GYRO i) SLC_IMU_GYRO_WIDTH then 4 else 2) s
  | 0x110 | 0x130 => axisMapOk v
  | _ => true

/-- Store SLC_EGO_CFG: a change of EN starts or stops the integrator (R118). -/
def egoCfgStore (v : Word) (s : State) : State :=
  let was := fbit s SLC_EGO_CFG SLC_EGO_CFG_EN
  let s1 := storeRw SLC_EGO_CFG v s
  let en := fbit s1 SLC_EGO_CFG SLC_EGO_CFG_EN
  if en && !was then egoStart s1 else if was && !en then egoStop s1 else s1

end Sys2Proof.Machine
end

