-- ==== Sys2Proof/Machine/Sensors.lean ====
section
/-! DEFINITION. The meanings of the ingress, alignment, ego-motion, camera and calibration commands (R77 to R127,
R157 to R173, R329). -/
namespace Sys2Proof.Machine

/-! ## The ingress tap (R97, R329) -/

/-- A word of the Spire configuration. -/
def cfgWord (i : Nat) (s : State) : Nat := nth s.spr.config i 0

/-- One point of a tapped frame: the LFSR moves on, and a selected point is sent over the bridge. -/
def tapOne (ch stamp : Nat) (s : State) (pt : List Nat) : State :=
  let l := nth s.tapLfsr ch 0
  let s1 := { s with tapLfsr := setNth s.tapLfsr ch (Config.tapNext l % 65536) }
  if Config.tapPick l then sendUp (.tapPoint ch stamp pt) s1 else s1

/-- A whole, good Ethernet frame is copied to the tap. -/
def tapCopy (ch stamp : Nat) (bytes : List Nat) (s : State) : State :=
  let w := cfgWord (40 + 4 * ch) s
  let first := natField 15 0 w
  let stride := natField 23 16 w
  if !bitOf ch (cfgWord 39 s) ∨ stride = 0 then s
  else ((List.range ((bytes.length - first) / stride)).map (fun i => slice (first + i * stride) stride bytes)).foldl
    (tapOne ch stamp) s

/-! ## Consumers (R81, R82, R102) -/

/-- Whether the consumer of a channel takes packets: a run is in progress, and neither its unit nor the channel is fenced
or held; the inputs of the ego-motion integrator wait in the banks while it is (R119, R369, R372). -/
def consumerTakes (n : Nat) (s : State) : Bool :=
  let ego := fget s (SLC_CH_CFG n) SLC_CH_CFG_ROLE != 0
  if unitFenced n s || unitHeld n s then false
  else if ego && (unitFenced flatEgo s || unitHeld flatEgo s) then false
  else if n < 16 then consuming s && !unitFenced flatCamera s && !unitHeld flatCamera s else alignerTakes s

/-- The consumer starts on the oldest packet once it may (R81), and admits or drops it once it has ended (R82, R102). -/
def takeNext (n : Nat) (s : State) : State :=
  match (chGet n s).packets with
  | [] => s
  | p :: r =>
    let on := p.taken || (pktStartable p && consumerTakes n s)
    if !on || p.used then s
    else
      let c := chGet n s
      let s1 := chSet n { c with packets := { p with taken := true, used := p.ended } :: r } s
      if !p.ended then s1
      else if n < 16 then lineDevelop n p (packetLoss n p s1) else takePacket n p s1

/-- A packet ends (R77, R97, R102). -/
def packetEnd (n : Nat) (bytes : List Nat) (err : Bool) (s : State) : State :=
  let c := chGet n s
  let frame := c.macBytes ++ bytes
  let tap := chKind n == 1 && c.arriving && !err && decide (64 ≤ frame.length + 4)
  let s1 := takeNext n (endPacket n bytes false err (chSet n { c with arriving := false, macBytes := [] } s))
  if tap then tapCopy (n - 16) c.macStamp frame s1 else s1

/-- A packet ends ABORTED (R85). -/
def packetAbort (n : Nat) (got : List Nat) (s : State) : State :=
  takeNext n (endPacket n got true false (chSet n { chGet n s with arriving := false, macBytes := [] } s))

/-- More bytes of the packet in progress have arrived, at the MAC too. -/
def moreBytes (n : Nat) (more : List Nat) (s : State) : State :=
  let c := chGet n s
  bytesArrive n more (chSet n { c with macBytes := if c.arriving then c.macBytes ++ more else c.macBytes } s)

/-- The consumer finishes its packet and starts on the next one (R80, R81); more bytes of the packet in progress have
arrived by then. -/
def consumerDone (n : Nat) (more : List Nat) (s0 : State) : State :=
  let s1 := takeNext n (moreBytes n more s0)
  match (chGet n s1).packets.head? with
  | some p => if p.taken && p.ended then takeNext n (finishPacket n s1) else s1
  | none => s1

def execPacketStart (ch : Fin 32) (stamp : Nat) (start : RxStart) (got early : List Nat) (s : State) :
    Host.Outcome State Fault Refusal := onMain (fun s => takeNext ch (packetStart ch stamp start got early s)) s

def execPacketEnd (ch : Fin 32) (bytes : List Nat) (err : Bool) (s : State) : Host.Outcome State Fault Refusal :=
  onMain (packetEnd ch bytes err) s

def execPacketTimeout (ch : Fin 32) (got : List Nat) (s : State) : Host.Outcome State Fault Refusal :=
  onMain (packetAbort ch got) s

def execLinkLoss (ch : Fin 32) (got : List Nat) (s : State) : Host.Outcome State Fault Refusal :=
  onMain (fun s =>
    let s1 := linkLoss ch got s
    takeNext ch (chSet ch { chGet ch s1 with arriving := false, macBytes := [] } s1)) s

def execLinkUp (ch : Fin 32) (s : State) : Host.Outcome State Fault Refusal := onMain (linkUp ch) s

def execConsumerPacketDone (ch : Fin 32) (more : List Nat) (s : State) : Host.Outcome State Fault Refusal :=
  onMain (consumerDone ch more) s

def execPfcRefresh (ch : Fin 32) (s : State) : Host.Outcome State Fault Refusal := onMain (pfcRefresh ch) s

def execBankInFlightTimeout (ch : Fin 32) (s : State) : Host.Outcome State Fault Refusal := onMain (bankTimeout ch) s

def execBankPassageComplete (ch : Fin 32) (s : State) : Host.Outcome State Fault Refusal :=
  onMain (fun s => chSet ch (passageDone (chGet ch s)) s) s

def execFlushTakeEffect (ch : Fin 32) (s : State) : Host.Outcome State Fault Refusal :=
  onMain (flushEffect ch) s

def execReceiverStop (ch : Fin 32) (s : State) : Host.Outcome State Fault Refusal := onMain (receiverStop ch) s

def execPauseFrameRx (port : Fin 8) (classes : List (Fin 8)) (time : Nat) (got : List Nat) (s : State) :
    Host.Outcome State Fault Refusal := onMain (fun s => takeNext (16 + port) (pauseRx port classes time got s)) s

def execPtpFrameRx (port : Fin 10) (pad bytes : Nat) (msg : PtpMsg) (frame : List Word) (got : List Nat) (s : State) :
    Host.Outcome State Fault Refusal :=
  onMain (fun s =>
    let s1 := ptpArrive port pad bytes msg frame got s
    if port.val < 8 then takeNext (16 + port) s1 else s1) s

def execPauseExpiry (port : Fin 8) (classes : List (Fin 8)) (s : State) : Host.Outcome State Fault Refusal :=
  onMain (pauseExpiry port classes) s

def execTxStamp (port : Fin 8) (sent : Bool) (s : State) : Host.Outcome State Fault Refusal :=
  onMain (txDepartOrHold port sent) s

def execPtpMessageIntervalExpiry (port : Fin 10) (kind : PtpTx) (s : State) : Host.Outcome State Fault Refusal :=
  onMain (ptpInterval port kind) s

def execCapEdge (n : Fin 32) (falling : Bool) (delay width : Nat) (s : State) : Host.Outcome State Fault Refusal :=
  onMain (capEdge n falling delay width) s

def execEncoderEdge (ch : Fin 2) (input : Fin 8) (forward illegal index : Bool) (delay width : Nat) (s : State) :
    Host.Outcome State Fault Refusal := onMain (encoderEdge ch input forward illegal index delay width) s

/-- The report period of an encoder channel expires: one whole packet is written and taken (R77, R100). -/
def encoderReport (ch : Nat) (s : State) : State :=
  let n := 30 + ch
  let s0 := endPacket n [] true false s
  let s1 := encoderReportStart n s0
  takeNext n (encoderClear n (endPacket n ((chGet n s0).inputs.flatMap encBytes) false false s1))

def execEncoderReport (ch : Fin 2) (s : State) : Host.Outcome State Fault Refusal := onMain (encoderReport ch) s

def execSpiSampleRead (ch : Fin 2) (s : State) : Host.Outcome State Fault Refusal :=
  onMain (fun s => takeNext (28 + ch) (spiStart ch s)) s

def execFrameStart (ch : Fin 16) (vc : Fin 4) (number stamp : Nat) (s : State) : Host.Outcome State Fault Refusal :=
  onMain (frameStart ch vc number stamp) s

/-! ## Sensor opcodes (R101) -/

/-- Every ingress opcode is FENCED while the INGRESS partition is. -/
def ingCmd (f : State → CmdOut) (s : State) : CmdOut := if partFenced partIngress s then fail stFenced s else f s

/-- An access to the registers of a channel held in reset is unmapped (R469). -/
def unlessHeld (n : Nat) (f : State → State) (s : State) : State :=
  if unitHeld n s then accessErr errUnmapped (ING_CTRL n) .cupola s else f s

/-- ING_CONFIG. -/
def cmdIngConfig (ps : List Nat) : State → CmdOut :=
  ingCmd (withParams 8 ps (fun s =>
    let n := nth ps 0 0
    let w (i : Nat) : Word := BitVec.ofNat 32 (nth ps i 0)
    if n > 31 ∨ nth ps 1 0 ≥ 16 ∨ !cutOk (nth ps 2 0) ∨ !wmOk (nth ps 3 0) ∨ reservedSet (ING_WM n) (nth ps 3 0)
        ∨ !maxframeOk (nth ps 4 0) ∨ reservedSet (ING_MAXFRAME n) (nth ps 4 0) ∨ nth ps 5 0 = 0 ∨ nth ps 5 0 ≥ 2 ^ 16
        ∨ reservedSet (ING_PFC n) (nth ps 6 0) ∨ nth ps 7 0 = 0 ∨ nth ps 7 0 > getBits ING_PFC_QUANTA (w 6) then
      fail stParam s
    else if fbit s (ING_CTRL n) ING_CTRL_EN then fail stBusy s
    else
      ok [] (unlessHeld n (fun s =>
        let s1 := fset (fset s (ING_CTRL n) ING_CTRL_XOFF_EN (getBits ING_CTRL_XOFF_EN (w 1)))
          (ING_CTRL n) ING_CTRL_PFC_EN (getBits ING_CTRL_PFC_EN (w 1))
        xoffUpdate n (storeRw (ING_PFC_REFRESH n) (w 7) (storeRw (ING_PFC n) (w 6) (storeRw (ING_PKT_TMO n) (w 5)
          (storeRw (ING_MAXFRAME n) (w 4) (storeRw (ING_WM n) (w 3) (storeRw (ING_CUT n) (w 2) s1))))))) s)))

/-- The address of word i of a channel's source block. -/
def sourceAddr (n i : Nat) : Nat := ING_CTRL n + 0x100 + 4 * i

/-- Whether a source-block word is refused: out of range, or not of its register's fields. -/
def sourceRefused (n i v : Nat) : Bool :=
  (regAt (sourceAddr n i)).isSome && (!sourceOk (chKind n) (0x100 + 4 * i) v || reservedSet (sourceAddr n i) v)

/-- Whether a source-block register is read-only: the words of live counts are not written. -/
def sourceLive (n i : Nat) : Bool :=
  match regAt (sourceAddr n i) with
  | some h => accMask .rw h.row == 0
  | none => true

/-- ING_SOURCE_CONFIG. -/
def cmdIngSourceConfig (ps : List Nat) : State → CmdOut :=
  ingCmd (fun s =>
    let n := nth ps 0 0
    let w := nth ps 1 0
    let ws := ps.drop 2
    if ps.length < 2 ∨ n > 31 ∨ w = 0 ∨ w > 128 ∨ ws.length ≠ w
        ∨ (List.range w).any (fun i => !sourceLive n i && sourceRefused n i (nth ws i 0)) then fail stParam s
    else if fbit s (ING_CTRL n) ING_CTRL_EN then fail stBusy s
    else
      ok [] (unlessHeld n (fun s => (List.range w).foldl
        (fun s i => storeRw (sourceAddr n i) (BitVec.ofNat 32 (nth ws i 0)) s) s) s))

/-- The EN bits of all channels. -/
def enMask (s : State) : Nat := ((List.range 32).map (fun n => b2n (fbit s (ING_CTRL n) ING_CTRL_EN) * 2 ^ n)).sum

/-- Set EN of a channel; a retired channel stays disabled (R381). -/
def setEn (on : Bool) (s : State) (n : Nat) : State :=
  unlessHeld n (fun s =>
    let en := on && !fbit s (RST_UNIT n) RST_UNIT_RETIRED
    enStore n en (fput s (ING_CTRL n) ING_CTRL_EN en)) s

/-- ING_ENABLE. -/
def cmdIngEnable (ps : List Nat) : State → CmdOut :=
  ingCmd (withParams 2 ps (fun s =>
    let a := nth ps 0 0
    let b := nth ps 1 0
    if Nat.land a b ≠ 0 then fail stParam s
    else
      let s1 := (maskBits 32 b).foldl (setEn false) ((maskBits 32 a).foldl (setEn true) s)
      ok [enMask s1] s1))

/-- Request a flush of a channel. -/
def askFlush (s : State) (n : Nat) : State := unlessHeld n (fun s => fon s (ING_CTRL n) ING_CTRL_FLUSH) s

/-- ING_FLUSH. -/
def cmdIngFlush (ps : List Nat) : State → CmdOut :=
  ingCmd (withParams 1 ps (fun s =>
    let s1 := (maskBits 32 (nth ps 0 0)).foldl askFlush s
    if (maskBits 32 (nth ps 0 0)).all (fun n => unitHeld n s) then ok [0] s1 else later s1))

/-- The addresses of a channel's seven counters. -/
def ingCounters (n : Nat) : List Nat :=
  [ING_RX_PKTS n, ING_OVR_PKTS n, ING_TRUNC_PKTS n, ING_BAD_PKTS n, ING_MALF_PKTS n, ING_ABORT_PKTS n, ING_FLUSH_PKTS n]

/-- ING_STATUS. -/
def cmdIngStatus (ps : List Nat) : State → CmdOut :=
  ingCmd (withParams 1 ps (fun s =>
    let n := nth ps 0 0
    if n > 31 then fail stParam s
    else if unitHeld n s then ok (List.replicate 10 0) (accessErr errUnmapped (ING_CTRL n) .cupola s)
    else
      let r := takeCounts (ingCounters n) s
      ok ([ingStatusWord n s, occupancy (chGet n s), ingBanksWord n s] ++ r.1) r.2))

/-- ING_LEDGER. -/
def cmdIngLedger (ps : List Nat) : State → CmdOut :=
  ingCmd (withParams 0 ps (fun s => ok [ingLedgerWord s] s))

/-- ING_GROUP_MASK. -/
def cmdIngGroupMask (ps : List Nat) : State → CmdOut :=
  ingCmd (withParams 2 ps (fun s =>
    if nth ps 0 0 > 7 then fail stParam s else ok [] (fset s (ING_GRP_MASK (nth ps 0 0)) fWord (nth ps 1 0))))

def execIngConfig (h : CmdHead) (ps : List Word) (s : State) : Host.Outcome State Fault Refusal := onCmd h 0x0401 cmdIngConfig ps s
def execIngSourceConfig (h : CmdHead) (ps : List Word) (s : State) : Host.Outcome State Fault Refusal := onCmd h 0x0402 cmdIngSourceConfig ps s
def execIngEnable (h : CmdHead) (ps : List Word) (s : State) : Host.Outcome State Fault Refusal := onCmd h 0x0403 cmdIngEnable ps s
def execIngFlush (h : CmdHead) (ps : List Word) (s : State) : Host.Outcome State Fault Refusal := onCmd h 0x0404 cmdIngFlush ps s
def execIngStatus (h : CmdHead) (ps : List Word) (s : State) : Host.Outcome State Fault Refusal := onCmd h 0x0405 cmdIngStatus ps s
def execIngLedger (h : CmdHead) (ps : List Word) (s : State) : Host.Outcome State Fault Refusal := onCmd h 0x0406 cmdIngLedger ps s
def execIngGroupMask (h : CmdHead) (ps : List Word) (s : State) : Host.Outcome State Fault Refusal := onCmd h 0x0407 cmdIngGroupMask ps s

/-! ## Alignment and ego-motion -/

def execSyncWindowEnd (s : State) : Host.Outcome State Fault Refusal := onMain syncWindowEnd s

def execSilentTimeout (ch : Fin 32) (s : State) : Host.Outcome State Fault Refusal := onMain (silentTimeout ch) s

/-- An event of the ego-motion integrator, which does nothing while held in reset. -/
def onEgo (f : State → State) (s : State) : Host.Outcome State Fault Refusal :=
  onMain (fun s => if unitHeld flatEgo s then s else f s) s

def execKnotDue (s : State) : Host.Outcome State Fault Refusal := onEgo knotDue s
def execKnotWaitExpiry (s : State) : Host.Outcome State Fault Refusal := onEgo knotWait s
def execInitEnd (s : State) : Host.Outcome State Fault Refusal := onEgo initEnd s
def execWheelAbsentTimeout (s : State) : Host.Outcome State Fault Refusal := onEgo wheelAbsent s
def execImuAbsentTimeout (s : State) : Host.Outcome State Fault Refusal := onEgo imuAbsent s
def execImuOnlyMaxExpiry (s : State) : Host.Outcome State Fault Refusal := onEgo imuOnlyMax s
def execExtrapMaxExpiry (s : State) : Host.Outcome State Fault Refusal := onEgo extrapMax s
def execImuPrimaryReturn (s : State) : Host.Outcome State Fault Refusal := onEgo primaryReturn s
def execZuptDetect (s : State) : Host.Outcome State Fault Refusal := onEgo zuptDetect s

/-- Every alignment opcode is FENCED while FUSION is. -/
def slcCmd (f : State → CmdOut) (s : State) : CmdOut := if partFenced partFusion s then fail stFenced s else f s

/-- SLC_CH_CONFIG. -/
def cmdSlcChConfig (ps : List Nat) : State → CmdOut :=
  slcCmd (withParams 8 ps (fun s =>
    let n := nth ps 0 0
    let w (i : Nat) : Word := BitVec.ofNat 32 (nth ps i 0)
    let addrs := [SLC_CH_CFG n, SLC_CH_NOMLAT n, SLC_CH_FRAME_PERIOD n, SLC_CH_POINT n, SLC_CH_OFFS n, SLC_CH_FMT n,
      SLC_CH_HDR_T_OFF n]
    if n > 31 ∨ (List.range 7).any (fun i => reservedSet (nth addrs i 0) (nth ps (i + 1) 0))
        ∨ !slcCfgOk n (nth ps 1 0) ∨ !framePeriodOk (nth ps 3 0) ∨ !strideOk (nth ps 4 0)
        ∨ !slcPointsOk (nth ps 4 0) (nth ps 5 0) (nth ps 6 0) ∨ !slcFmtOk (nth ps 1 0) (nth ps 6 0) then fail stParam s
    else if fbit s (ING_CTRL n) ING_CTRL_EN then fail stBusy s
    else ok [] (slcCfgStore n (w 1) (storeRw (SLC_CH_HDR_T_OFF n) (w 7) (storeRw (SLC_CH_FMT n) (w 6)
      (storeRw (SLC_CH_OFFS n) (w 5) (storeRw (SLC_CH_POINT n) (w 4) (storeRw (SLC_CH_FRAME_PERIOD n) (w 3)
        (storeRw (SLC_CH_NOMLAT n) (w 2) s)))))))))

/-- The addresses of a channel's five counts of samples. -/
def chanCounts (n : Nat) : List Nat :=
  [SLC_CH_LATE_ADMITTED n, SLC_CH_LATE_DROPPED n, SLC_CH_FUTURE_DROPPED n, SLC_CH_DEFERRED n, SLC_CH_SAMPLES n]

/-- SLC_CH_STATUS. -/
def cmdSlcChStatus (ps : List Nat) : State → CmdOut :=
  slcCmd (withParams 1 ps (fun s =>
    let n := nth ps 0 0
    if n > 31 then fail stParam s
    else
      let r := takeCounts (chanCounts n) s
      ok ([(rd s (SLC_CH_STATUS n)).toNat, fget s (SLC_CH_OFFSET_EST n) fWord, fget s (SLC_CH_TOFF n) fWord,
        fget s (SLC_CH_TOFF_CAL n) fWord] ++ r.1 ++ [fget s (SLC_CH_LAST_LIN n) fWord]) r.2))

/-- SLC_LIMITS. -/
def cmdSlcLimits (ps : List Nat) : State → CmdOut :=
  slcCmd (withParams 4 ps (fun s =>
    let w (i : Nat) : Word := BitVec.ofNat 32 (nth ps i 0)
    if !slcGlobalOk 0 (nth ps 0 0) ∨ !slcGlobalOk 4 (nth ps 1 0) ∨ !slcGlobalOk 8 (nth ps 2 0)
        ∨ reservedSet SLC_CLOSE (nth ps 0 0) ∨ reservedSet SLC_LATE_LIMIT (nth ps 1 0) ∨ reservedSet SLC_SYNC (nth ps 2 0)
        ∨ reservedSet SLC_VOBJ (nth ps 3 0) then fail stParam s
    else if running s then fail stBusy s
    else ok [] (slcCloseStore (w 0) (storeRw SLC_LATE_LIMIT (w 1) (storeRw SLC_SYNC (w 2) (storeRw SLC_VOBJ (w 3) s))))))

/-- SLC_SET_TOFF. -/
def cmdSlcSetToff (ps : List Nat) : State → CmdOut :=
  slcCmd (withParams 2 ps (fun s =>
    if nth ps 0 0 > 31 then fail stParam s else ok [] (fset s (SLC_CH_TOFF (nth ps 0 0)) fWord (nth ps 1 0))))

/-- The addresses of EGO_CONFIG's words, in order. -/
def egoAddrs : List Nat :=
  [SLC_EGO_CFG, SLC_EGO_TAU, SLC_EGO_TIMES, SLC_EGO_EXTRAP, SLC_EGO_IMU_ONLY, SLC_EGO_TRACK,
   SLC_IMU_GYRO 0, SLC_IMU_ACC 0, SLC_IMU_GYRO_SCALE 0, SLC_IMU_ACC_SCALE 0, SLC_IMU_AXIS_MAP 0,
   SLC_IMU_GYRO 1, SLC_IMU_ACC 1, SLC_IMU_GYRO_SCALE 1, SLC_IMU_ACC_SCALE 1, SLC_IMU_AXIS_MAP 1]
  ++ (List.range 16).map SLC_WHEEL

/-- Whether the IMU format words of an EGO_CONFIG are within range. -/
def egoImuOk (ps : List Nat) (s : State) : Bool :=
  (List.range 2).all (fun i =>
    let width := if bitOf 24 (nth ps (6 + 5 * i) 0) then 4 else 2
    imuOffsOk i (nth ps (6 + 5 * i) 0) width s && imuOffsOk i (nth ps (7 + 5 * i) 0) width s
      && axisMapOk (nth ps (10 + 5 * i) 0))

/-- EGO_CONFIG. -/
def cmdEgoConfig (ps : List Nat) : State → CmdOut :=
  slcCmd (withParams 32 ps (fun s =>
    if (List.range 32).any (fun i => reservedSet (nth egoAddrs i 0) (nth ps i 0)) ∨ !egoOk 0x04 (nth ps 1 0) s
        ∨ !egoOk 0x08 (nth ps 2 0) s ∨ !egoOk 0x0C (nth ps 3 0) s ∨ !egoImuOk ps s then fail stParam s
    else if running s then fail stBusy s
    else
      let s1 := (List.range 31).foldl (fun s i => storeRw (nth egoAddrs (i + 1) 0) (BitVec.ofNat 32 (nth ps (i + 1) 0)) s) s
      ok [] (egoCfgStore (BitVec.ofNat 32 (nth ps 0 0)) s1)))

/-- Whether EGO_GET answers a rounded linear count with PARAM (R121, R127). -/
def egoGetRefused (t : Int) (s : State) : Bool :=
  s.ego.mode != egoOff && match s.ego.knots with
  | [] => true
  | k :: r => decide (t < (((k :: r).getLast?.getD k).t : Int)) || (poseAt t s).clamped

/-- EGO_GET. -/
def cmdEgoGet (ps : List Nat) : State → CmdOut :=
  slcCmd (withParams 2 ps (fun s =>
    let q := of64 ps 0
    let t : Int := if q = 2 ^ 64 - 1 then
        match s.ego.knots with
        | k :: _ => (k.t : Int)
        | [] => round100 (time16 s)
      else round100 (q * 2 ^ 16 : Nat)
    if egoGetRefused t s then fail stParam s
    else
      let a := poseAt t s
      ok (egoRecord t a (egoStatusBits s + b2n a.extrap * 8 + b2n a.clamped * 16)) s))

/-- EGO_RESET. -/
def cmdEgoReset (ps : List Nat) : State → CmdOut :=
  slcCmd (withParams 0 ps (fun s =>
    if running s then fail stBusy s else ok [] (if fbit s SLC_EGO_CFG SLC_EGO_CFG_EN then egoStart s else s)))

def execSlcChConfig (h : CmdHead) (ps : List Word) (s : State) : Host.Outcome State Fault Refusal := onCmd h 0x0420 cmdSlcChConfig ps s
def execSlcChStatus (h : CmdHead) (ps : List Word) (s : State) : Host.Outcome State Fault Refusal := onCmd h 0x0421 cmdSlcChStatus ps s
def execSlcLimits (h : CmdHead) (ps : List Word) (s : State) : Host.Outcome State Fault Refusal := onCmd h 0x0422 cmdSlcLimits ps s
def execSlcSetToff (h : CmdHead) (ps : List Word) (s : State) : Host.Outcome State Fault Refusal := onCmd h 0x0423 cmdSlcSetToff ps s
def execEgoConfig (h : CmdHead) (ps : List Word) (s : State) : Host.Outcome State Fault Refusal := onCmd h 0x0424 cmdEgoConfig ps s
def execEgoGet (h : CmdHead) (ps : List Word) (s : State) : Host.Outcome State Fault Refusal := onCmd h 0x0425 cmdEgoGet ps s
def execEgoReset (h : CmdHead) (ps : List Word) (s : State) : Host.Outcome State Fault Refusal := onCmd h 0x0426 cmdEgoReset ps s

/-! ## Camera and calibration -/

def execFrameLineTimeout (ch : Fin 16) (s : State) : Host.Outcome State Fault Refusal := onMain (frameLineTimeout ch) s

def execMeshBuildDone (ch : Fin 16) (built : Bool) (s : State) : Host.Outcome State Fault Refusal :=
  onCupola (meshDone ch built) s

def execFrameReport (ch : Fin 16) (s : State) : Host.Outcome State Fault Refusal := onMain (frameReport ch) s

def execCalSolve (s : State) : Host.Outcome State Fault Refusal := onMain calSolve s

/-- The oldest calibration reply waiting on the bridge, and the messages left. -/
def popCalReply : List DownMsg → Option (Nat × Nat × Bool) × List DownMsg
  | [] => (none, [])
  | .calReply q n a :: r => (some (q, n, a), r)
  | m :: r => ((popCalReply r).1, m :: (popCalReply r).2)

def execCalReply (s : State) : Host.Outcome State Fault Refusal :=
  onMain (fun s => match popCalReply s.bridgeDown with
    | (some (q, n, a), r) => calReply q n a { s with bridgeDown := r }
    | (none, _) => s) s

def execCalNoreply (s : State) : Host.Outcome State Fault Refusal := onMain calNoReply s

end Sys2Proof.Machine
end

