-- ==== Sys2Proof/Machine/Numeric.lean ====
section
/-! DEFINITION. The operand and output formats of the matrix arrays and their arithmetic (R177 to R183). -/
namespace Sys2Proof.Machine

/-! ## Formats (R177) -/

/-- The classes of R177. -/
inductive FmtClass where
  | float8 | float4 | float16 | integer | output | reserved
  deriving DecidableEq, Repr

/-- The class of a format code. -/
def fmtClass : Nat → FmtClass
  | 0x0 | 0x1 | 0x3 | 0x4 | 0x5 | 0x6 => .float8
  | 0x7 => .float4
  | 0x2 | 0x8 => .integer
  | 0x9 | 0xA => .float16
  | 0xB => .output
  | _ => .reserved

/-- Whether a code may be an operand. -/
def fmtOperand (f : Nat) : Bool := fmtClass f != .output && fmtClass f != .reserved
/-- Whether a code may be an output. -/
def fmtOutput (f : Nat) : Bool := [0x0, 0x1, 0x3, 0x7, 0x9, 0xA, 0xB].contains f
/-- Whether a code has block scales. -/
def fmtMx (f : Nat) : Bool := decide (3 ≤ f ∧ f ≤ 8)

/-- Whether two operand formats pair: integer with integer, float with float (R178). -/
def fmtPair (a b : Nat) : Bool :=
  fmtOperand a && fmtOperand b && ((fmtClass a == .integer) == (fmtClass b == .integer))

/-- The rows of K a B tile holds for a pair (R178). -/
def tileK (a b : Nat) : Nat := if fmtClass a == .float4 && fmtClass b == .float4 then 128 else 64

/-- Handshakes per A row for a pair (R178). -/
def rowHandshakes (a b : Nat) : Nat := if fmtClass a == .float16 || fmtClass b == .float16 then 2 else 1

/-- The products of a row that one handshake takes. -/
def handshakeK (a b : Nat) : Nat := tileK a b / rowHandshakes a b

/-- Bits of an element. -/
def fmtBits (f : Nat) : Nat :=
  match f with
  | 0x5 | 0x6 => 6
  | 0x7 => 4
  | 0x9 | 0xA => 16
  | 0xB => 32
  | _ => 8

/-- Element n of packed bytes: elements contiguous, least significant first (R179). -/
def packedElem (f : Nat) (bytes : List Nat) (n : Nat) : Nat :=
  let b := fmtBits f
  let o := n * b
  ofBytes (slice (o / 8) 5 bytes) / 2 ^ (o % 8) % 2 ^ b

/-- Elements packed into bytes, least significant first. -/
def packElems (f : Nat) (es : List Nat) : List Nat :=
  let b := fmtBits f
  let v := es.foldr (fun e acc => e % 2 ^ b + acc * 2 ^ b) 0
  toBytes ((es.length * b + 7) / 8) v

/-- The small float formats. -/
def fmtE4M3 : FpFmt := ⟨4, 3, false⟩
def fmtE5M2 : FpFmt := ⟨5, 2, true⟩
def fmtE2M3 : FpFmt := ⟨2, 3, false⟩
def fmtE3M2 : FpFmt := ⟨3, 2, false⟩
def fmtE2M1 : FpFmt := ⟨2, 1, false⟩

/-- The value of an element pattern: E4M3 has no infinity and one NaN magnitude; MXINT8 counts 2⁻⁶ (R179). -/
def elemVal (f w : Nat) : FpVal :=
  match f with
  | 0x0 | 0x3 => if w % 128 = 127 then .nan else fpDecode fmtE4M3 w
  | 0x1 | 0x4 => fpDecode fmtE5M2 w
  | 0x2 => .num (signed 8 w : Rat)
  | 0x5 => fpDecode fmtE2M3 w
  | 0x6 => fpDecode fmtE3M2 w
  | 0x7 => fpDecode fmtE2M1 w
  | 0x8 => .num ((signed 8 w : Rat) / 64)
  | 0x9 => fpDecode bf16 w
  | 0xA => fpDecode fp16 w
  | 0xB => fpDecode fp32 w
  | _ => .nan

/-! ## Exact sums with infinities and NaN -/

/-- The sign of a number or infinity: true when negative. -/
def fpNeg : FpVal → Bool
  | .num r => decide (r < 0)
  | .inf n => n
  | .nan => false

/-- A product. -/
def fpMul : FpVal → FpVal → FpVal
  | .nan, _ | _, .nan => .nan
  | .num a, .num b => .num (a * b)
  | .inf n, .num b => if b = 0 then .nan else .inf (n != decide (b < 0))
  | .num a, .inf n => if a = 0 then .nan else .inf (n != decide (a < 0))
  | .inf a, .inf b => .inf (a != b)

/-- An exact sum. -/
def fpAdd : FpVal → FpVal → FpVal
  | .nan, _ | _, .nan => .nan
  | .num a, .num b => .num (a + b)
  | .inf n, .num _ | .num _, .inf n => .inf n
  | .inf a, .inf b => if a = b then .inf a else .nan

/-- A quotient. -/
def fpDiv : FpVal → FpVal → FpVal
  | .num a, .num b => if b = 0 then (if a = 0 then .nan else .inf (decide (a < 0))) else .num (a / b)
  | .num _, .inf _ => .num 0
  | .inf n, .num b => .inf (n != decide (b < 0))
  | _, _ => .nan

/-- The FP32 pattern of a value; a NaN is the quiet NaN. -/
def fp32Pat : FpVal → Nat
  | .num r => toFp32 r
  | .inf n => 0x7F800000 + b2n n * 2 ^ 31
  | .nan => 0x7FC00000

/-- One rounding to FP32 (R181). -/
def roundAcc (v : FpVal) : FpVal := fpDecode fp32 (fp32Pat v)

/-- The value of a block scale: 2^(scale − 127), NaN at 0xFF (R179). -/
def blockScale (s : Nat) : FpVal := if s = 255 then .nan else .num (pow2 ((s : Int) - 127))

/-- Element k of a row with its block scale applied. -/
def scaledElem (f : Nat) (bytes scales : List Nat) (k : Nat) : FpVal :=
  let v := elemVal f (packedElem f bytes k)
  if fmtMx f then fpMul v (blockScale (nth scales (k / 32) 127)) else v

/-- One handshake: the products of a run of K are summed exactly and added to the accumulator with one rounding. -/
def accStep (fa fb : Nat) (a sa b sb : List Nat) (acc : FpVal) (ks : List Nat) : FpVal :=
  roundAcc (fpAdd acc (ks.foldl (fun t k => fpAdd t (fpMul (scaledElem fa a sa k) (scaledElem fb b sb k))) (.num 0)))

/-- The accumulator of one output: a row of A against a column of B over all K, handshake by handshake (R181). -/
def accumulate (fa fb k : Nat) (a sa b sb : List Nat) : FpVal :=
  (chunks (handshakeK fa fb) (List.range k)).foldl (accStep fa fb a sa b sb) (.num 0)

/-! ## Output conversion (R182) -/

/-- A value rounded into a format, with the pattern past the largest finite value replaced as OUT_SAT says: the largest
value, or infinity, or the format's NaN where it has no infinity. -/
def convertTo (f : FpFmt) (maxPat beyond nan : Nat) (sat : Bool) (v : FpVal) : Nat :=
  let sign (n : Bool) : Nat := b2n n * 2 ^ (f.ebits + f.mbits)
  match v with
  | .nan => nan
  | .inf n => sign n + (if sat then maxPat else beyond)
  | .num r =>
    let m := fpRoundMag f (ratAbs r)
    sign (decide (r < 0)) + (if m > maxPat then (if sat then maxPat else beyond) else m)

/-- A value as an element of an output format without block scales. -/
def outElem (f : Nat) (sat : Bool) (v : FpVal) : Nat :=
  match f with
  | 0x0 | 0x3 => convertTo fmtE4M3 0x7E 0x7F 0x7F sat v
  | 0x1 => convertTo fmtE5M2 0x7B 0x7C 0x7F sat v
  | 0x7 => convertTo fmtE2M1 0x7 0x7 0x7 true v
  | 0x9 => convertTo bf16 0x7F7F 0x7F80 0x7FC0 sat v
  | 0xA => convertTo fp16 0x7BFF 0x7C00 0x7E00 sat v
  | _ => convertTo fp32 0x7F7FFFFF 0x7F800000 0x7FC00000 sat v

/-- The block scale of an output block: floor(log2 of its largest magnitude) less the format's largest exponent, 0x00
for zeros. -/
def outScale (f : Nat) (vs : List FpVal) : Nat :=
  let mag (v : FpVal) : Rat := match v with | .num r => ratAbs r | _ => 0
  let m := vs.foldl (fun a v => max a (mag v)) 0
  if m = 0 then 0 else (clampInt 0 254 (ratLog2 m - (if f = 0x7 then 2 else 8) + 127)).toNat

/-- A value divided by a block scale. -/
def unscale (s : Nat) (v : FpVal) : FpVal :=
  match v with
  | .num r => .num (r * pow2 (127 - (s : Int)))
  | x => x

/-- Whether a value is past the largest MXFP4 magnitude. -/
def overFp4 (s : Nat) (v : FpVal) : Bool :=
  match unscale s v with
  | .num r => decide (fpRoundMag fmtE2M1 (ratAbs r) > 7)
  | .inf _ => true
  | .nan => true

/-- An output block of up to 32 values: its scale and element patterns (R182). -/
def outBlock (f : Nat) (sat : Bool) (vs : List FpVal) : Nat × List Nat :=
  let s := outScale f vs
  if f = 0x7 ∧ (vs.contains .nan ∨ (!sat ∧ vs.any (overFp4 s))) then (255, vs.map (fun _ => 0))
  else (s, vs.map (fun v => outElem f sat (unscale s v)))

/-- A row of outputs: its scales and its packed bytes. -/
def outRow (f : Nat) (sat : Bool) (vs : List FpVal) : List Nat × List Nat :=
  if fmtMx f then
    let bs := (chunks 32 vs).map (outBlock f sat)
    (bs.map Prod.fst, packElems f (bs.flatMap Prod.snd))
  else ([], packElems f (vs.map (outElem f sat)))

end Sys2Proof.Machine
end

