-- ==== Sys2Proof/Machine/Images.lean ====
section
/-! DEFINITION. Model and work-list images, their placement and their checks, and the opcodes that load and activate
them (R201 to R207, R473). -/
namespace Sys2Proof.Machine

/-! ## Placement -/

/-- Whether two address ranges given by start and length overlap. -/
def overlaps (a n b m : Nat) : Bool := decide (a < b + m ∧ b < a + n)

/-- The end of the LPDDR5X address space (R198). -/
def ddrEnd : Nat := 2 ^ 36

/-- The end of the two device-reserved ranges at the bottom of package 0 (R374). -/
def reservedEnd : Nat := 0x08000000

/-- The result ring: base and length in bytes (R304). -/
def ringBase (s : State) : Nat := rd64 s CMD_RES_BASE_LO
def slotBytes (s : State) : Nat := fget s CMD_RES_SLOTS CMD_RES_SLOTS_SLOT_MIB * 2 ^ 20
def ringBytes (s : State) : Nat := fget s CMD_RES_SLOTS CMD_RES_SLOTS_SLOTS * slotBytes s

/-- The work lists that are loaded: ACTIVE, STANDBY and the old lists not yet released (R205). -/
def loadedLists (s : State) : List WorkList := s.img.active.toList ++ s.img.standby.toList ++ s.img.old

/-- Address and length of every loaded image (R201, R205, R274). -/
def loadedImages (s : State) : List (Nat × Nat) :=
  s.img.models.filterMap id ++ (loadedLists s).map (fun w => (w.addr, w.len)) ++ s.img.slvActive.toList
    ++ s.img.slvStandby.toList

/-- Whether a range overlaps a loaded image. -/
def inImage (a n : Nat) (s : State) : Bool := (loadedImages s).any (fun i => overlaps a n i.1 i.2)

/-- Whether a range overlaps the stored result ring. -/
def inRing (a n : Nat) (s : State) : Bool := overlaps a n (ringBase s) (ringBytes s)

/-- Whether an image may not lie at a range: device-reserved, the result ring, a loaded image, or outside LPDDR5X
(R206 reason 11, R304). -/
def placeBad (a n : Nat) (s : State) : Bool := decide (a < reservedEnd ∨ a + n > ddrEnd) || inImage a n s || inRing a n s

/-! ## Work-list images (R202, R203) -/

/-- Word i of an image. -/
def imgWord (addr i : Nat) (s : State) : Nat := ddrWord s (addr + 4 * i)

/-- The header fields of a list. -/
def wlWord (w : WorkList) (i : Nat) (s : State) : Nat := imgWord w.addr i s
def wlDomeBytes (w : WorkList) (s : State) : Nat := wlWord w 3 s
def wlModels (w : WorkList) (s : State) : Nat := natField 7 0 (wlWord w 4 s)
def wlSyncs (w : WorkList) (s : State) : Nat := natField 28 16 (wlWord w 4 s)
def wlStrip (w : WorkList) (s : State) : Nat := natField 9 0 (wlWord w 5 s)
def wlCtxFirst (w : WorkList) (s : State) : Nat := natField 15 0 (wlWord w 2 s)
def wlCtxCount (w : WorkList) (s : State) : Nat := natField 31 16 (wlWord w 2 s)

/-- The offset of the table of a variant; 0 is absent. -/
def wlTable (w : WorkList) (v : Nat) (s : State) : Nat := wlWord w (8 + v) s

/-- Whether a variant is present; variant 0 always is (R23). -/
def wlPresent (w : WorkList) (v : Nat) (s : State) : Bool := v == 0 || (decide (v < 4) && wlTable w v s != 0)

/-- The variants present, ascending. -/
def wlVariants (w : WorkList) (s : State) : List Nat := (List.range 4).filter (fun v => wlPresent w v s)

/-- The critical-path handshakes of a stage in a variant. -/
def wlPath (w : WorkList) (v stage : Nat) (s : State) : Nat := ddrWord s (w.addr + wlTable w v s + 4 * stage)

/-- The number of items of a variant and the offset of the first. -/
def wlCount (w : WorkList) (v : Nat) (s : State) : Nat := ddrWord s (w.addr + wlTable w v s + 32)
def wlItems (w : WorkList) (v : Nat) (s : State) : Nat := ddrWord s (w.addr + wlTable w v s + 36)

/-- The eight words of item i of a variant. -/
def wlItem (w : WorkList) (v i : Nat) (s : State) : List Nat := ddrWords s (w.addr + wlItems w v s + 32 * i) 8

/-- The fields of an item (R203). -/
def itUnit (it : List Nat) : Nat := natField 1 0 (nth it 0 0)
def itStage (it : List Nat) : Nat := natField 5 2 (nth it 0 0)
def itIndex (it : List Nat) : Nat := natField 15 8 (nth it 0 0)
def itContext (it : List Nat) : Nat := natField 31 16 (nth it 0 0)
def itBudget (it : List Nat) : Nat := nth it 1 0
def itWaitSync (it : List Nat) : Nat := natField 11 0 (nth it 2 0)
def itWaitEn (it : List Nat) : Bool := bitOf 12 (nth it 2 0)
def itSignalSync (it : List Nat) : Nat := natField 27 16 (nth it 2 0)
def itSignalEn (it : List Nat) : Bool := bitOf 28 (nth it 2 0)
def itWaitValue (it : List Nat) : Nat := nth it 3 0
def itDescOff (it : List Nat) : Nat := nth it 4 0
def itDescLen (it : List Nat) : Nat := nth it 5 0
def itFmtA (it : List Nat) : Nat := natField 3 0 (nth it 6 0)
def itFmtB (it : List Nat) : Nat := natField 7 4 (nth it 6 0)
def itFmtOut (it : List Nat) : Nat := natField 11 8 (nth it 6 0)
def itOutSat (it : List Nat) : Bool := bitOf 12 (nth it 6 0)

/-- The item classes of R203. -/
def unitArray : Nat := 0
def unitVector : Nat := 1
def unitScalar : Nat := 2
def unitEngine : Nat := 3
def engAttention : Nat := 0x20
def engTollis : Nat := 0x30

/-! ## Reasons of a PARAM status (R206) -/

def rsnHeader : Nat := 1
def rsnFormat : Nat := 2
def rsnDome : Nat := 3
def rsnModel : Nat := 4
def rsnUnit : Nat := 5
def rsnBudget : Nat := 6
def rsnSync : Nat := 7
def rsnSize : Nat := 8
def rsnContext : Nat := 9
def rsnStrip : Nat := 10
def rsnRange : Nat := 11

/-- A reason that applies when a check fails. -/
def rsnIf (r : Nat) (bad : Bool) : List Nat := if bad then [r] else []

/-- The lowest of the reasons of failing checks. -/
def lowest (rs : List Nat) : Option Nat := rs.foldl (fun m r => match m with | none => some r | some a => some (min a r)) none

/-- Whether an item's INDEX is beyond its class (R203, R206). -/
def itUnitBad (it : List Nat) : Bool :=
  let i := itIndex it
  if itUnit it = unitArray then decide (32 ≤ i ∧ i ≠ 0xFF)
  else if itUnit it = unitVector then decide (128 ≤ i ∧ i ≠ 0xFF)
  else if itUnit it = unitScalar then decide (64 ≤ i ∧ i ≠ 0xFF)
  else decide (i ≠ engAttention ∧ i ≠ engTollis ∧ i ≠ engTollis + 1)

/-- The failing checks of one item. -/
def itReasons (w : WorkList) (it : List Nat) (s : State) : List Nat :=
  rsnIf rsnFormat (itUnit it == unitArray && !(fmtPair (itFmtA it) (itFmtB it) && fmtOutput (itFmtOut it)))
    ++ rsnIf rsnUnit (itUnitBad it || decide (7 < itStage it))
    ++ rsnIf rsnBudget (itBudget it == 0)
    ++ rsnIf rsnSync ((itWaitEn it && decide (wlSyncs w s ≤ itWaitSync it))
        || (itSignalEn it && decide (wlSyncs w s ≤ itSignalSync it)))
    ++ rsnIf rsnSize (decide (w.len < itDescOff it + itDescLen it))
    ++ rsnIf rsnContext (decide (itContext it < wlCtxFirst w s ∨ wlCtxFirst w s + wlCtxCount w s ≤ itContext it))

/-- The failing checks of a variant's table and items. -/
def variantReasons (w : WorkList) (s : State) (v : Nat) : List Nat :=
  if wlTable w v s = 0 then []
  else if w.len < wlTable w v s + 40 then [rsnSize]
  else if 65536 < wlCount w v s ∨ w.len < wlItems w v s + 32 * wlCount w v s then [rsnSize]
  else (List.range (wlCount w v s)).flatMap (fun i => itReasons w (wlItem w v i s) s)

/-- The failing content checks of a work-list image (R202, R204, R206): an image too short for its header fails
HEADER; a header count outside its range fails under its own subject (DEDUCED, log entry 40). -/
def wlReasons (w : WorkList) (s : State) : List Nat :=
  if w.len < 68 then [rsnHeader]
  else
    let n := natField 18 16 (wlWord w 1 s)
    let present := ((List.range 4).filter (fun v => wlTable w v s != 0)).length
    rsnIf rsnHeader (wlWord w 0 s != 0x4C574C44 || natField 15 0 (wlWord w 1 s) != 1 || decide (n < 1 ∨ 4 < n)
        || wlTable w 0 s == 0 || n != present)
      ++ rsnIf rsnDome (wlDomeBytes w s % 8192 != 0 || w.base % 8192 != 0 || decide (0x05800000 < w.base + wlDomeBytes w s))
      ++ rsnIf rsnModel ((maskBits 8 (wlModels w s)).any (fun i => (nth s.img.models i none).isNone))
      ++ rsnIf rsnSync (decide (4096 < wlSyncs w s))
      ++ rsnIf rsnContext (decide (wlCtxCount w s < 1 ∨ 256 < wlCtxCount w s))
      ++ rsnIf rsnStrip (wlStrip w s % 16 != 0 || decide (wlStrip w s < 16 ∨ 512 < wlStrip w s))
      ++ (List.range 4).flatMap (variantReasons w s)

/-! ## The governor's level on a list (R23, R205) -/

/-- SLC_GOV_LEVEL.LEVEL. -/
def govLevel (s : State) : Nat := fget s SLC_GOV_LEVEL SLC_GOV_LEVEL_LEVEL

/-- The highest present level at or below a bound. -/
def presentBelow (w : WorkList) (bound : Nat) (s : State) : Nat :=
  ((wlVariants w s).filter (fun v => decide (v ≤ bound))).foldl max 0

/-- The level carries over to a list: the highest level it has at or below the present one (R205). -/
def carryLevel (w : WorkList) (s : State) : State :=
  fset s SLC_GOV_LEVEL SLC_GOV_LEVEL_LEVEL (presentBelow w (govLevel s) s)

/-! ## Activation (R205) -/

/-- Release the old lists that no slice still runs on: one that has published or been abandoned no longer does. -/
def releaseOld (s : State) : State :=
  let used (w : WorkList) : Bool := s.slices.any (fun r => r.list == some w && !bitOf 7 r.finished)
  { s with img := { s.img with old := s.img.old.filter used } }

/-- The switch to the STANDBY list. -/
def switchList (s : State) : State :=
  match s.img.standby with
  | none => { s with img := { s.img with pending := false } }
  | some w => carryLevel w { s with img := { s.img with
      active := some w
      standby := none
      pending := false
      old := s.img.old ++ s.img.active.toList } }

/-- The work-list switch at the ALIGN start of a slice. -/
def alignSwitch (s : State) : State := if s.img.pending then switchList s else s

/-- The low linear count of the ToV of the slice that next starts ALIGN: of an open or waiting slice, or of the first one
of a run, which starts at the first boundary from the run's start on (R45, R207, R301). -/
def nextAlignTov (s : State) : Nat :=
  match s.slices.find? (fun r => !bitOf 1 r.begun) with
  | some r => r.tov % 2 ^ 32
  | none =>
    let b := fget s (BLF_CMP_VAL 0) fWord
    if runState s ≠ stArmed then b
    else if s.runStart ≤ dueLin b s then (b + sliceLen s) % 2 ^ 32 else (b + 2 * sliceLen s) % 2 ^ 32

/-! ## The opcodes (R207) -/

/-- An image load that fails: a status, and the reason of a PARAM status. -/
def loadFail (st rsn : Nat) (s : State) : CmdOut := (s, some ⟨st, [rsn]⟩)

/-- MODEL_LOAD. -/
def cmdModelLoad (ps : List Nat) (s : State) : CmdOut :=
  if ps.length ≠ 6 then loadFail stParam 0 s
  else
    let slot := nth ps 0 0
    let a := nth ps 1 0 + 2 ^ 32 * nth ps 2 0
    let n := nth ps 3 0 + 2 ^ 32 * nth ps 4 0
    match lowest (rsnIf rsnSize (decide (n = 0 ∨ 2 ^ 32 < n)) ++ rsnIf rsnRange (placeBad a n s)) with
    | some r => loadFail stParam r s
    | none =>
      if 7 < slot then loadFail stParam 0 s
      else if (nth s.img.models slot none).isSome then loadFail stNoResource 0 s
      else if crc32c (getBytes s.lpddr a n) ≠ nth ps 5 0 then loadFail stCrc 0 s
      else ok [0] { s with img := { s.img with models := setNth s.img.models slot (some (a, n)) } }

/-- MODEL_UNLOAD. -/
def cmdModelUnload (ps : List Nat) (s : State) : CmdOut :=
  withParams 1 ps (fun s =>
    let slot := nth ps 0 0
    if 7 < slot ∨ (nth s.img.models slot none).isNone then fail stParam s
    else if (loadedLists s).any (fun w => bitOf slot (wlModels w s)) then fail stBusy s
    else ok [] { s with img := { s.img with models := setNth s.img.models slot none } }) s

/-- The total critical-path handshakes of a variant; 0 for an absent one. -/
def wlTotal (w : WorkList) (v : Nat) (s : State) : Nat :=
  if wlPresent w v s then ((List.range 8).map (fun st => wlPath w v st s)).foldl (· + ·) 0 else 0

/-- WL_LOAD. The CRC parameter is the image's last word, the CRC-32C of every byte before it (DEDUCED, log entry 41). -/
def cmdWlLoad (ps : List Nat) (s : State) : CmdOut :=
  if ps.length ≠ 5 then loadFail stParam 0 s
  else
    let w : WorkList := ⟨nth ps 0 0 + 2 ^ 32 * nth ps 1 0, nth ps 2 0, nth ps 4 0⟩
    match lowest (rsnIf rsnSize (decide (w.len = 0 ∨ 2 ^ 26 < w.len)) ++ rsnIf rsnRange (placeBad w.addr w.len s)) with
    | some r => loadFail stParam r s
    | none =>
      if s.img.standby.isSome then loadFail stNoResource 0 s
      else if w.len < 4 ∨ crc32c (getBytes s.lpddr w.addr (w.len - 4)) ≠ nth ps 3 0
          ∨ ofBytes (getBytes s.lpddr (w.addr + w.len - 4) 4) ≠ nth ps 3 0 then loadFail stCrc 0 s
      else match lowest (wlReasons w s) with
        | some r => loadFail stParam r s
        | none =>
          ok ([0, ((wlVariants w s).map (2 ^ ·)).foldl (· + ·) 0, wlDomeBytes w s]
              ++ (List.range 4).map (fun v => wlTotal w v s))
            { s with img := { s.img with standby := some w } }

/-- Whether the STANDBY footprint overlaps that of a list in use (R205). -/
def footprintClash (w : WorkList) (s : State) : Bool :=
  (s.img.active.toList ++ s.img.old).any (fun o => overlaps w.base (wlDomeBytes w s) o.base (wlDomeBytes o s))

/-- The end of every context refusal at a WL_ACTIVATE (R378). -/
def unrefuseAll (s : State) : State :=
  forUpTo 16 (fun i s => fset s (RST_REFUSED i) RST_REFUSED_VALID 0) s

/-- WL_ACTIVATE. -/
def cmdWlActivate (ps : List Nat) (s : State) : CmdOut :=
  withParams 0 ps (fun s =>
    match s.img.standby with
    | none => fail stNoResource s
    | some w =>
      if s.img.pending || (running s && footprintClash w s) then fail stBusy s
      else if running s then
        ok [nextAlignTov s] (unrefuseAll { s with img := { s.img with pending := true } })
      else ok [0] (releaseOld (switchList (unrefuseAll s)))) s

/-- WL_DISCARD. -/
def cmdWlDiscard (ps : List Nat) (s : State) : CmdOut :=
  withParams 0 ps (fun s =>
    if s.img.standby.isNone then fail stNoResource s
    else if s.img.pending then fail stBusy s
    else ok [] { s with img := { s.img with standby := none } }) s

/-- The six words of a list in WL_INFO. -/
def wlInfo (w : Option WorkList) (s : State) : List Nat :=
  match w with
  | none => [0, 0, 0, 0, 0, 0]
  | some w => [1, w.addr % 2 ^ 32, w.addr / 2 ^ 32, w.base, wlDomeBytes w s, natField 18 16 (wlWord w 1 s)]

/-- The model slots in use, as a mask. -/
def modelMask (s : State) : Nat :=
  (((List.range 8).filter (fun i => (nth s.img.models i none).isSome)).map (2 ^ ·)).foldl (· + ·) 0

/-- WL_INFO. -/
def cmdWlInfo (ps : List Nat) (s : State) : CmdOut :=
  withParams 0 ps (fun s => ok (wlInfo s.img.active s ++ wlInfo s.img.standby s ++ [modelMask s]) s) s

def execModelLoad (h : CmdHead) (ps : List Word) (s : State) : Host.Outcome State Fault Refusal := onCmd h 0x0501 cmdModelLoad ps s
def execModelUnload (h : CmdHead) (ps : List Word) (s : State) : Host.Outcome State Fault Refusal := onCmd h 0x0502 cmdModelUnload ps s
def execWlLoad (h : CmdHead) (ps : List Word) (s : State) : Host.Outcome State Fault Refusal := onCmd h 0x0503 cmdWlLoad ps s
def execWlActivate (h : CmdHead) (ps : List Word) (s : State) : Host.Outcome State Fault Refusal := onCmd h 0x0504 cmdWlActivate ps s
def execWlDiscard (h : CmdHead) (ps : List Word) (s : State) : Host.Outcome State Fault Refusal := onCmd h 0x0505 cmdWlDiscard ps s
def execWlInfo (h : CmdHead) (ps : List Word) (s : State) : Host.Outcome State Fault Refusal := onCmd h 0x0506 cmdWlInfo ps s

end Sys2Proof.Machine
end

