-- ==== Sys2Proof/Machine/Fabric.lean ====
section
/-! DEFINITION. Work items on the arrays, vector cores and scalar cores, and their stores (R176 to R189, R197, R203,
R369). -/
namespace Sys2Proof.Machine

/-! ## Units -/

/-- The flat index of an item's unit, or 400 + l for Tollis DMA l. -/
def itemFlat (cls index : Nat) : Nat :=
  if cls = unitArray then 48 + index
  else if cls = unitVector then 80 + index
  else if cls = unitScalar then 208 + index
  else if index = engAttention then flatAttention
  else 400 + (index - engTollis)

/-- How many logical units a class has. -/
def classSize (cls : Nat) : Nat := if cls = unitArray then 32 else if cls = unitVector then 128 else if cls = unitScalar then 64 else 0

/-- Whether a unit is in service (R381): a scalar core leaves with its vector cores. -/
def inService (flat : Nat) (s : State) : Bool :=
  if flat < 48 then true
  else if flat < 80 then !fbit s (CUP_MAP_MXA (flat - 48)) CUP_MAP_MXA_NONE
  else if flat < 208 then !fbit s (CUP_MAP_VEC (flat - 80)) CUP_MAP_VEC_NONE
  else if flat < 272 then !fbit s (RST_UNIT flat) RST_UNIT_RETIRED
  else true

/-- Whether a unit refuses items (R369, R381): fenced, held in reset or out of service. -/
def unitRefuses (flat : Nat) (s : State) : Bool :=
  !inService flat s || (decide (flat < 272) && (unitFenced flat s || unitHeld flat s))

/-- Show whether a unit has an item in progress. -/
def setBusy (flat : Nat) (b : Bool) (s : State) : State :=
  if 48 ≤ flat ∧ flat < 80 then fput s (MXA_STATUS (mxaSlot (flat - 48) s)) MXA_STATUS_BUSY b
  else if 80 ≤ flat ∧ flat < 208 then fput s (VEC_STATUS (vecSlot (flat - 80) s)) VEC_STATUS_BUSY b
  else if 208 ≤ flat ∧ flat < 272 then fput s (VEC_SC_STATUS (flat - 208)) VEC_SC_STATUS_BUSY b
  else if flat = flatAttention then fput s ATN_STATUS ATN_STATUS_BUSY b
  else s

/-- Count a completed item of a unit. -/
def countItem (flat : Nat) (s : State) : State :=
  if 48 ≤ flat ∧ flat < 80 then bump s (MXA_ITEMS (mxaSlot (flat - 48) s))
  else if 80 ≤ flat ∧ flat < 208 then bump s (VEC_ITEMS (vecSlot (flat - 80) s))
  else if 208 ≤ flat ∧ flat < 272 then bump s (VEC_SC_ITEMS (flat - 208))
  else s

/-- Change the fabric. -/
def updFab (f : FabricState → FabricState) (s : State) : State := { s with fab := f s.fab }

/-! ## Slices and their items -/

/-- The oldest slice in a stage. -/
def inStage (stage : Nat) (s : State) : Option SliceRec :=
  s.slices.find? (fun r => bitOf stage r.begun && !bitOf stage r.finished)

/-- Change the slice of a sequence number. -/
def updSeq (seq : Nat) (f : SliceRec → SliceRec) (s : State) : State :=
  { s with slices := s.slices.map (fun r => if r.seq = seq then f r else r) }

/-- The list a slice runs on: its own from its ALIGN start, before that the ACTIVE one. -/
def sliceList (r : SliceRec) (s : State) : Option WorkList := if r.list.isSome then r.list else s.img.active

/-- The variant that a slice runs in a stage: the governor level at which the stage began (R20). -/
def stageVariant (r : SliceRec) (stage : Nat) : Nat := nth r.levels stage 0

/-- The number of an item over all stages of a slice. -/
def itemId (stage item : Nat) : Nat := stage * 65536 + item

/-- Whether an item's WAIT is satisfied: the signed difference is zero or positive (R197). -/
def waitMet (it : List Nat) (s : State) : Bool :=
  !itWaitEn it || decide (0 ≤ linDiff (fget s (DOME_SYNC (itWaitSync it)) fWord) (itWaitValue it))

/-- An item held by its WAIT goes on once the WAIT is satisfied: it issues, and its budget runs from now (R188, R197). -/
def waitRelease (x : RunItem) (s : State) : State :=
  if x.waits && waitMet x.words s then
    setBusy x.unit true (updFab (fun f => { f with
      items := f.items.map (fun i => if i.unit = x.unit then { i with waits := false, started := upNs s } else i) }) s)
  else s

/-- Perform an item's SIGNAL; the waits that it satisfies end (R197). -/
def doSignal (it : List Nat) (s : State) : State :=
  if itSignalEn it then
    let s1 := wr s (DOME_SYNC (itSignalSync it)) (BitVec.ofNat 32 ((fget s (DOME_SYNC (itSignalSync it)) fWord + 1) % 2 ^ 32))
    s1.fab.items.foldl (fun t x => waitRelease x t) s1
  else s

/-- Whether every item of a slice's stage is done. -/
def stageItemsDone (r : SliceRec) (stage : Nat) (s : State) : Bool :=
  match sliceList r s with
  | none => true
  | some w =>
    let v := stageVariant r stage
    (List.range (wlCount w v s)).all (fun i =>
      itStage (wlItem w v i s) != stage || r.items.contains (itemId stage i))

/-- A strip's features are written: the items of the camera phase may run over the next one (R161, R204). -/
def stripDone (seq : Nat) (x : CamStrip) (s : State) : State :=
  let l := nth s.lanes x.lane Lane.reset
  let f := nth l.bufs x.buf FrameBuf.reset
  updSeq seq (fun r => { r with strips := r.strips.tail, items := r.items.filter (fun i => i / 65536 != 3) })
    { s with lanes := setNth s.lanes x.lane { l with bufs := setNth l.bufs x.buf { f with features := x.stop } } }

/-- Up to n strips of a slice's camera phase end: the phase has run whole over each. -/
def stripsAdvance (seq : Nat) : Nat → State → State
  | 0, s => s
  | n + 1, s =>
    match s.slices.find? (fun r => r.seq == seq) with
    | none => s
    | some r =>
      match r.strips with
      | [] => s
      | x :: _ => if stageItemsDone r 3 s then stripsAdvance seq n (stripDone seq x s) else s

/-- An item is done in its slice; the last one of the camera phase ends its strip. -/
def markDone (seq id : Nat) (poison : Bool) (s : State) : State :=
  stripsAdvance seq 1 (updSeq seq (fun r => { r with items := id :: r.items, poisoned := r.poisoned || poison }) s)

/-- A refused item: no effect, outputs poisoned, its SIGNAL performed (R369). -/
def refuseItem (seq id : Nat) (it : List Nat) (s : State) : State := doSignal it (markDone seq id true s)

/-- Whether some unit of a class takes items. -/
def classHasUnit (cls : Nat) (s : State) : Bool :=
  (List.range (classSize cls)).any (fun i => !unitRefuses (itemFlat cls i) s)

/-- Whether an item may go to a unit: INDEX names it, or is 0xFF and the unit is one of its class. -/
def unitFits (it : List Nat) (unit : Nat) : Bool :=
  if itIndex it = 0xFF then decide (unit < classSize (itUnit it)) else itIndex it == unit

/-- Whether a unit is idle. -/
def unitIdle (flat : Nat) (s : State) : Bool := !s.fab.items.any (fun i => i.unit == flat)

/-- An item comes to a unit: it starts there, is refused, or holds the unit until its WAIT is satisfied (R197, R369,
R378). A held unit is not BUSY and the item has not issued (DESIGN CHOICE, log entry 88). -/
def itemReady (r : SliceRec) (id : Nat) (it : List Nat) (unit : Nat) (job : ArrayJob) (s : State) : State :=
  let flat := itemFlat (itUnit it) unit
  if contextRefused (itContext it) s then refuseItem r.seq id it s
  else if unitRefuses flat s then
    if itIndex it = 0xFF ∧ classHasUnit (itUnit it) s then s else refuseItem r.seq id it s
  else if unitIdle flat s && !(flat == flatAttention && fbit s ATN_STATUS ATN_STATUS_REBUILDING) then
    setBusy flat (waitMet it s) (updFab (fun f => { f with
      items := f.items ++ [⟨r.seq, id, it, flat, upNs s, !waitMet it s, false, false, false, false, 0, job⟩] }) s)
  else s

/-- ITEM_START: item number `item` of the slice in a stage, on a logical unit (R197, R203). The items of the camera phase
run once over each strip (R161, R204). -/
def itemStart (stage item unit : Nat) (job : ArrayJob) (s : State) : State :=
  match inStage stage s with
  | none => s
  | some r =>
    match sliceList r s with
    | none => s
    | some w =>
      let v := stageVariant r stage
      let it := wlItem w v item s
      let id := itemId stage item
      if item < wlCount w v s ∧ itStage it = stage ∧ unitFits it unit ∧ id ∉ r.items ∧ (stage = 3 → r.strips ≠ [])
          ∧ !s.fab.items.any (fun i => i.seq == r.seq && i.id == id) then itemReady r id it unit job s
      else s

/-- Whether a slice has an item of a stage in progress. -/
def stageItemsRunning (r : SliceRec) (stage : Nat) (s : State) : Bool :=
  s.fab.items.any (fun i => i.seq == r.seq && i.id / 65536 == stage)

/-! ## Buffers -/

/-- The address of a unit's buffer byte in the buffer store: an array buffer has 512 KiB, a local store 128 KiB. -/
def bufKey (flat off : Nat) : Nat := flat * 2 ^ 20 + off % (if flat < 80 then 2 ^ 19 else 2 ^ 17)

/-- Read n bytes of a unit's buffer. -/
def bufBytes (flat off n : Nat) (s : State) : List Nat :=
  (List.range n).map (fun i => (cellsGet emptyByte s.fab.bufs (bufKey flat (off + i))).toNat)

/-- Write bytes into a unit's buffer. -/
def bufPut (flat off : Nat) (bs : List Nat) (s : State) : State :=
  updFab (fun f => { f with
    bufs := (bs.zipIdx).foldl (fun m e => cellsSet emptyByte m (bufKey flat (off + e.2)) (BitVec.ofNat 8 e.1)) f.bufs }) s

/-- The mark of a clean word. -/
def unmarked (_ : Nat) : Nat := 0
/-- Marks of Dome words, LPDDR5X words and buffer words. -/
def domeMark (a : Nat) : Nat := a / 8
def ddrMark (a : Nat) : Nat := 2 ^ 40 + a / 8
def bufMark (flat off : Nat) : Nat := 2 ^ 41 + bufKey flat off / 8

/-- The marks over n bytes from an address. -/
def markSpan (key : Nat → Nat) (a n : Nat) : List Nat := (List.range ((n + a % 8 + 7) / 8)).map (fun i => key (a / 8 * 8 + 8 * i))

/-- Mark words poisoned or clean (R193). -/
def setMarks (ks : List Nat) (p : Bool) (s : State) : State :=
  updFab (fun f => { f with marks := ks.foldl (fun m k => cellsSet unmarked m k (b2n p)) f.marks }) s

/-- Whether a word is marked poisoned. -/
def anyMark (ks : List Nat) (s : State) : Bool := ks.any (fun k => cellsGet unmarked s.fab.marks k != 0)

/-! ## Array arithmetic over the buffer (R176 to R183) -/

/-- Bytes of a row of n elements of a format. -/
def rowBytes (f n : Nat) : Nat := (n * fmtBits f + 7) / 8
/-- Block scales of a row. -/
def rowScales (f n : Nat) : Nat := if fmtMx f then (n + 31) / 32 else 0

/-- The product of the tensor scales of the non-MX operands (R180). -/
def tensorScale (fa fb : Nat) (j : ArrayJob) : FpVal :=
  fpMul (if fmtMx fa then .num 1 else fpDecode fp32 j.tensorA) (if fmtMx fb then .num 1 else fpDecode fp32 j.tensorB)

/-- The scaled accumulators of output row i. -/
def arrayRow (flat fa fb : Nat) (j : ArrayJob) (s : State) (i : Nat) : List FpVal :=
  let a := bufBytes flat (j.aOff + i * rowBytes fa j.k) (rowBytes fa j.k) s
  let sa := bufBytes flat (j.aScale + i * rowScales fa j.k) (rowScales fa j.k) s
  (List.range j.n).map (fun c =>
    let b := bufBytes flat (j.bOff + c * rowBytes fb j.k) (rowBytes fb j.k) s
    let sb := bufBytes flat (j.bScale + c * rowScales fb j.k) (rowScales fb j.k) s
    fpMul (accumulate fa fb j.k a sa b sb) (tensorScale fa fb j))

/-- Write output row i: its elements and its block scales. -/
def arrayPutRow (flat fo : Nat) (sat : Bool) (j : ArrayJob) (s : State) (i : Nat) (vs : List FpVal) : State :=
  let o := outRow fo sat vs
  bufPut flat (j.outScale + i * rowScales fo j.n) o.1 (bufPut flat (j.outOff + i * rowBytes fo j.n) o.2 s)

/-- Handshakes with work done: each row meets each tile once, at the pair's rate (R178). -/
def arrayHandshakes (fa fb : Nat) (j : ArrayJob) : Nat :=
  j.rows * ((j.k + tileK fa fb - 1) / tileK fa fb) * ((j.n + 63) / 64) * rowHandshakes fa fb

/-- The buffer words an array job reads. -/
def jobInputs (flat fa fb : Nat) (j : ArrayJob) : List Nat :=
  markSpan (bufMark flat) j.aOff (j.rows * rowBytes fa j.k) ++ markSpan (bufMark flat) j.aScale (j.rows * rowScales fa j.k)
    ++ markSpan (bufMark flat) j.bOff (j.n * rowBytes fb j.k) ++ markSpan (bufMark flat) j.bScale (j.n * rowScales fb j.k)

/-- The buffer words it writes. -/
def jobOutputs (flat fo : Nat) (j : ArrayJob) : List Nat :=
  markSpan (bufMark flat) j.outOff (j.rows * rowBytes fo j.n) ++ markSpan (bufMark flat) j.outScale (j.rows * rowScales fo j.n)

/-- The effect of an array item on its buffer and registers. -/
def arrayRun (x : RunItem) (poison : Bool) (s : State) : State :=
  let j := x.job
  let fa := itFmtA x.words
  let fb := itFmtB x.words
  let fo := itFmtOut x.words
  let slot := mxaSlot (x.unit - 48) s
  let rows := (List.range j.rows).map (arrayRow x.unit fa fb j s)
  let s1 := (rows.zipIdx).foldl (fun t e => arrayPutRow x.unit fo (itOutSat x.words) j t e.2 e.1) s
  let s2 := if rows.any (fun vs => vs.contains .nan) then fon s1 (MXA_STATUS slot) MXA_STATUS_NAN_SEEN else s1
  setMarks (jobOutputs x.unit fo j) poison (bumpBy s2 (MXA_HS slot) fWord (arrayHandshakes fa fb j))

/-! ## Completion -/

/-- Errors of the unit's own store seen during an item: corrected bits, and whether one was uncorrectable. -/
def storeErrors (flat corr : Nat) (uncorr : Bool) (s : State) : State :=
  let st (a : Nat) (c u : Bits) (bit : Nat) (s : State) : State :=
    let s1 := if corr = 0 then s else fon s a c
    if uncorr then reportFault bit (flatUnit flat) (fon s1 a u) else s1
  if 48 ≤ flat ∧ flat < 80 then
    let p := mxaSlot (flat - 48) s
    bumpBy (st (MXA_STATUS p) MXA_STATUS_ECC_CORR MXA_STATUS_ECC_UNCORR 25 s) (MXA_ECC_CNT p) fWord corr
  else if 80 ≤ flat ∧ flat < 208 then
    st (VEC_STATUS (vecSlot (flat - 80) s)) VEC_STATUS_ECC_CORR VEC_STATUS_ECC_UNCORR 26 s
  else if 208 ≤ flat ∧ flat < 272 then st (VEC_SC_STATUS (flat - 208)) VEC_SC_STATUS_ECC_CORR VEC_SC_STATUS_ECC_UNCORR 26 s
  else s

/-- Remove a unit's item in progress. -/
def dropItem (flat : Nat) (s : State) : State :=
  setBusy flat false (updFab (fun f => { f with items := f.items.filter (fun i => i.unit != flat) }) s)

/-- The list that an item runs on. -/
def itemList (x : RunItem) (s : State) : Option WorkList :=
  match s.slices.find? (fun r => r.seq == x.seq) with
  | some r => sliceList r s
  | none => s.img.active

/-- Word i of an item's descriptor in its image (R203). -/
def descWord (x : RunItem) (i : Nat) (s : State) : Nat :=
  match itemList x s with
  | some w => ddrWord s (w.addr + itDescOff x.words + 4 * i)
  | none => 0

/-- The operation of an attention item; 0 for another unit's (R224). -/
def attnOp (x : RunItem) (s : State) : Nat := if x.unit = flatAttention then descWord x 0 s % 16 else 0

/-- Change the item in progress on a unit. -/
def updItem (flat : Nat) (f : RunItem → RunItem) (s : State) : State :=
  updFab (fun b => { b with items := b.items.map (fun i => if i.unit = flat then f i else i) }) s

/-- An attention item fails: no further effect, its outputs poisoned, the fault reported (R232). -/
def attnFail (outs : List Nat) (s : State) : State :=
  reportFault 27 (flatUnit flatAttention)
    (setMarks outs true (updItem flatAttention (fun i => { i with opDone := true, failed := true }) s))

/-- An attention item whose operation is none of R224 fails when it comes to be carried out. -/
def attnReady (x : RunItem) (s : State) : State :=
  if x.unit = flatAttention ∧ !x.opDone ∧ (attnOp x s = 0 ∨ 6 < attnOp x s) then attnFail [] s else s

/-- The item in progress on a unit, once its WAIT is over. -/
def itemOn (flat : Nat) (s : State) : Option RunItem := s.fab.items.find? (fun i => i.unit == flat && !i.waits)

/-- The vector core whose local store a core's byte offset reaches: a scalar core reaches its two cores' stores one after
the other (R187). -/
def coreStore (flat off : Nat) : Nat := if 208 ≤ flat ∧ flat < 272 then 80 + 2 * (flat - 208) + off / 2 ^ 17 % 2 else flat

/-- A subnormal FP32 pattern as a zero with its sign (R186). -/
def flush32 (on : Bool) (w : Nat) : Nat := if on ∧ w / 2 ^ 23 % 256 = 0 then w / 2 ^ 31 * 2 ^ 31 else w

/-- An FP32 pattern some ulp away, with its sign. -/
def ulpAway (w : Nat) (k : Int) : Nat := w / 2 ^ 31 * 2 ^ 31 + min ((w % 2 ^ 31 : Nat) + k).toNat 0x7F800000

/-- The number of a function, for its free values. -/
def vecFnNo : VecFn → Nat
  | .exp => 0
  | .log => 1
  | .recip => 2
  | .rsqrt => 3
  | .sin => 4
  | .cos => 5

/-- The FP32 pattern nearest a function's value. -/
def vecNearest (f : VecFn) (w : Nat) : Nat :=
  if f = .recip ∧ fpFinite fp32 w ∧ ofFp32 w ≠ 0 then toFp32 (1 / ofFp32 w) else Config.vecReal (vecFnNo f) w % 2 ^ 32

/-- A function of an FP32 pattern, at most 2 ulp off, under FTZ (R186). -/
def vecValue (ftz : Bool) (f : VecFn) (w0 : Nat) : Nat :=
  let w := flush32 ftz w0
  let e := vecNearest f w
  let k := Config.vecUlp (vecFnNo f) w
  flush32 ftz (if fpFinite fp32 e then ulpAway e (max (-2) (min 2 k)) else e)

/-- Write a core's local store, with the item's poison mark. -/
def corePut (flat off : Nat) (bs : List Nat) (poison : Bool) (s : State) : State :=
  let st := coreStore flat off
  setMarks (markSpan (bufMark st) off bs.length) poison (bufPut st off bs s)

/-- One result of a core's item lands in its local store. -/
def coreResult (flat : Nat) (ftz poison : Bool) (s : State) : CoreResult → State
  | .bytes off bs => corePut flat off bs poison s
  | .fp32 off ws => corePut flat off (bytesOfWords (ws.map (fun w => flush32 ftz (w % 2 ^ 32)))) poison s
  | .func f src dst => corePut flat dst (bytesOfWords [vecValue ftz f (ofBytes (bufBytes (coreStore flat src) src 4 s))]) poison s

/-- Whether a core flushes subnormals: VEC_CFG.FTZ of a vector core. -/
def coreFtz (flat : Nat) (s : State) : Bool :=
  decide (80 ≤ flat ∧ flat < 208) && fbit s (VEC_CFG (vecSlot (flat - 80) s)) VEC_CFG_FTZ

/-- The buffer words that an item has read. -/
def itemInputs (x : RunItem) (reads : List (Nat × Nat)) : List Nat :=
  let cls := itUnit x.words
  if cls = unitArray then jobInputs x.unit (itFmtA x.words) (itFmtB x.words) x.job
  else if cls = unitEngine then []
  else reads.flatMap (fun e => markSpan (bufMark (coreStore x.unit e.1)) e.1 e.2)

/-- ITEM_COMPLETE: the item on a unit completes (R186 to R188, R193, R197). A vector or scalar item leaves results in a
local store; the programs are the toolchain's, so which spans it reads and what it leaves are the command's (DESIGN CHOICE,
log entry 42). -/
def itemEnd (flat corr : Nat) (uncorr : Bool) (results : List CoreResult) (reads : List (Nat × Nat)) (s : State) : State :=
  match itemOn flat s with
  | none => s
  | some x =>
    let cls := itUnit x.words
    let poison := x.poisoned || anyMark (itemInputs x reads) s
    let s1 :=
      if cls = unitArray then arrayRun x poison s
      else if cls = unitEngine then s
      else results.foldl (coreResult flat (coreFtz flat s) poison) s
    let s2 := if poison then reportFault 22 (flatUnit flat) s1 else s1
    doSignal x.words (markDone x.seq x.id (poison || x.failed) (countItem flat (dropItem flat (storeErrors flat corr uncorr
      (noteErrors flat corr (dmaSent flat s2))))))

/-- The same, once an attention item has carried out its operation. -/
def itemComplete (flat corr : Nat) (uncorr : Bool) (results : List CoreResult) (reads : List (Nat × Nat)) (s : State) : State :=
  match itemOn flat s with
  | none => s
  | some x =>
    let s1 := attnReady x s
    if flat = flatAttention ∧ !s1.fab.items.any (fun i => i.unit == flat && i.opDone) then s
    else itemEnd flat corr uncorr results reads s1

/-- The item on a unit completes as a refused item; one for any unit that has not issued leaves the unit instead (R369). -/
def refuseRunning (flat : Nat) (s : State) : State :=
  match s.fab.items.find? (fun i => i.unit == flat) with
  | none => s
  | some x =>
    if x.waits ∧ itIndex x.words = 0xFF then dropItem flat s else refuseItem x.seq x.id x.words (dropItem flat s)

/-- ITEM_BUDGET_EXPIRY: a vector or scalar item's budget passes (R188). -/
def itemBudget (flat : Nat) (s : State) : State :=
  match s.fab.items.find? (fun i => i.unit == flat && !i.overrun && !i.waits) with
  | none => s
  | some x =>
    if itUnit x.words ≠ unitVector ∧ itUnit x.words ≠ unitScalar then s
    else
      let s1 := runToUp (x.started + itBudget x.words) s
      let s2 := updFab (fun f => { f with
        items := f.items.map (fun i => if i.unit = flat then { i with overrun := true } else i) }) s1
      reportFault 16 (flatUnit flat)
        (if flat < 208 then bump s2 (VEC_BUDGET_OVR (vecSlot (flat - 80) s2)) else bump s2 (VEC_SC_BUDGET_OVR (flat - 208)))

/-! ## Commands -/

def execItemStart (stage : Fin 8) (item unit : Nat) (job : ArrayJob) (s : State) : Host.Outcome State Fault Refusal :=
  onMain (itemStart stage item unit job) s

def execItemComplete (unit : Nat) (corr : Nat) (uncorr : Bool) (results : List CoreResult) (reads : List (Nat × Nat))
    (s : State) : Host.Outcome State Fault Refusal := onMain (itemComplete unit corr uncorr results reads) s

def execItemBudgetExpiry (unit : Nat) (s : State) : Host.Outcome State Fault Refusal := onMain (itemBudget unit) s

end Sys2Proof.Machine
end

