-- ==== Sys2Proof/Machine/SolverMath.lean ====
section
/-! DEFINITION. The solver's model images and parameter blocks, its starting point and its assembly (R244 to R250, R256,
R257). -/
namespace Sys2Proof.Machine

/-! ## Model images (R247, R248) -/

/-- Word i of the model header. -/
def smWord (a i : Nat) (s : State) : Nat := imgWord a i s
def smNx (a : Nat) (s : State) : Nat := natField 5 0 (smWord a 2 s)
def smNu (a : Nat) (s : State) : Nat := natField 12 8 (smWord a 2 s)
def smM (a : Nat) (s : State) : Nat := natField 22 16 (smWord a 2 s)
def smN (a l : Nat) (s : State) : Nat := natField (8 * l + 7) (8 * l) (smWord a 3 s)
def smDt (a : Nat) (s : State) : Nat := smWord a 4 s
def smXfrac (a : Nat) (s : State) : Nat := natField 5 0 (smWord a 5 s)
def smUfrac (a : Nat) (s : State) : Nat := natField 13 8 (smWord a 5 s)
def smParamBytes (a : Nat) (s : State) : Nat := smWord a 9 s
def smAsmBytes (a : Nat) (s : State) : Nat := smWord a 10 s
def smUnom (a : Nat) (s : State) : Bool := bitOf 0 (smWord a 11 s)

/-- The largest horizon of a model. -/
def smMaxN (a : Nat) (s : State) : Nat := ((List.range 4).map (fun l => smN a l s)).foldl max 0

/-- The block descriptors: word 0 and offset. -/
def smBlocks (a : Nat) (s : State) : List (Nat × Nat) :=
  (List.range (smWord a 7 s)).map (fun i => (ddrWord s (a + smWord a 6 s + 16 * i), ddrWord s (a + smWord a 6 s + 16 * i + 4)))

/-- The block IDs. -/
def bkA : Nat := 0
def bkB : Nat := 1
def bkC : Nat := 2
def bkQ : Nat := 3
def bkS : Nat := 4
def bkR : Nat := 5
def bkq : Nat := 6
def bkr : Nat := 7
def bkD : Nat := 8
def bkE : Nat := 9
def bkd : Nat := 10
def bkQN : Nat := 11
def bkqN : Nat := 12
def bkDN : Nat := 13
def bkdN : Nat := 14
def bkUnom : Nat := 15

/-- Values of a block per stage (R248). -/
def bkSize (id nx nu m : Nat) : Nat :=
  nth [nx * nx, nx * nu, nx, nx * nx, nu * nx, nu * nu, nx, nu, m * nx, m * nu, m, nx * nx, nx, m * nx, m, nu] id 0

/-- The descriptor of a block. -/
def bkFind (a id : Nat) (s : State) : Option (Nat × Nat) := (smBlocks a s).find? (fun b => b.1 % 16 == id)

/-- Fraction bits of a block, whether the parameter block holds it, and whether it varies by stage. -/
def bkFrac (w : Nat) : Nat := 32 - natField 13 8 w
def bkParam (w : Nat) : Bool := bitOf 4 w
def bkVarying (w : Nat) : Bool := bitOf 5 w

/-- Row table entry i: KIND, input index, σ and ρ. -/
def rowWord (a i k : Nat) (s : State) : Nat := ddrWord s (a + smWord a 8 s + 16 * i + 4 * k)
def rowKind (a i : Nat) (s : State) : Nat := natField 1 0 (rowWord a i 0 s)
def rowInput (a i : Nat) (s : State) : Nat := natField 11 8 (rowWord a i 0 s)
def rowSigma (a i : Nat) (s : State) : Nat := rowWord a i 1 s
def rowRho (a i : Nat) (s : State) : Nat := rowWord a i 2 s
def kSoft : Nat := 0
def kUpper : Nat := 1
def kLower : Nat := 2

/-! ## Values and formats -/

/-- The model of a solve, the bytes of its parameter block as the assembly reads it, and its sizes. -/
structure SlvEnv where
  a : Nat
  block : List Nat
  n : Nat
  nx : Nat
  nu : Nat
  m : Nat
  xf : Nat
  uf : Nat
  deriving DecidableEq, Repr

/-- Its sizes read from the model header. -/
def slvEnv (a : Nat) (block : List Nat) (n : Nat) (s : State) : SlvEnv :=
  ⟨a, block, n, smNx a s, smNu a s, smM a s, smXfrac a s, smUfrac a s⟩

/-- A word of the parameter block. -/
def pbWord (e : SlvEnv) (off : Nat) : Nat := ofBytes (slice off 4 e.block)

/-- The raw word of a block value: stage k, index i. -/
def bkWord (e : SlvEnv) (id k i : Nat) (s : State) : Option (Nat × Nat) :=
  match bkFind e.a id s with
  | none => none
  | some b =>
    let o := b.2 + 4 * ((if bkVarying b.1 then k * bkSize id e.nx e.nu e.m else 0) + i)
    some (b.1, if bkParam b.1 then pbWord e o else ddrWord s (e.a + o))

/-- A block value before conversion: an FP32 value of the parameter block, or a fixed-point value of the image. -/
def bkRaw (e : SlvEnv) (id k i : Nat) (s : State) : Option FpVal :=
  (bkWord e id k i s).map (fun w =>
    if bkParam w.1 then fpDecode fp32 w.2 else .num ((signed 32 w.2 : Rat) / ((2 ^ bkFrac w.1 : Nat) : Rat)))

/-- A value in a block's format: to nearest, ties to even, and to the nearest end of the range past it (R250 step 3);
and whether it saturated. -/
def toFormat (frac : Nat) (v : Rat) : Rat × Bool :=
  let i := rneInt (v * pow2 frac)
  let c := clampInt (-(2 ^ 31 : Int)) (2 ^ 31 - 1) i
  ((c : Rat) * pow2 (-(frac : Int)), c != i)

/-- A block value as assembled; an absent block is zero. -/
def bkVal (e : SlvEnv) (id k i : Nat) (s : State) : Rat :=
  match bkWord e id k i s, bkRaw e id k i s with
  | some w, some (.num v) => if bkParam w.1 then (toFormat (bkFrac w.1) v).1 else v
  | _, _ => 0

/-- Whether a block value saturates in its format. -/
def bkSat (e : SlvEnv) (id k i : Nat) (s : State) : Bool :=
  match bkWord e id k i s, bkRaw e id k i s with
  | some w, some (.num v) => bkParam w.1 && (toFormat (bkFrac w.1) v).2
  | _, _ => false

/-- The fraction bits of a block, 0 for an absent one. -/
def bkFracOf (e : SlvEnv) (id : Nat) (s : State) : Nat := match bkFind e.a id s with | some b => bkFrac b.1 | none => 0

/-- A 40-bit value of a number of fraction bits: to nearest, ties to even, and to the nearest end past the range
(DEDUCED, log entry 45); and whether it saturated. -/
def to40 (frac : Nat) (v : Rat) : Int × Bool :=
  let i := rneInt (v * pow2 frac)
  let c := clampInt (-(2 ^ 39 : Int)) (2 ^ 39 - 1) i
  (c, c != i)

/-- The number of a 40-bit value. -/
def of40 (frac : Nat) (i : Int) : Rat := (i : Rat) * pow2 (-(frac : Int))

/-- An exact sum held in an 80-bit accumulator aligned to a fraction: saturated when it would overflow (R250). -/
def acc80 (frac : Nat) (v : Rat) : Rat × Bool :=
  let i := (v * pow2 frac).floor
  if i > 2 ^ 79 - 1 then (((2 ^ 79 - 1 : Int) : Rat) * pow2 (-(frac : Int)), true)
  else if i < -(2 ^ 79 : Int) then ((-(2 ^ 79 : Int) : Int) * pow2 (-(frac : Int)), true)
  else (v, false)

/-- Inputs and states of a point as numbers. -/
def ptU (e : SlvEnv) (z : SlvPoint) (k j : Nat) : Rat := of40 e.uf (nth (nth z.us k []) j 0)
def ptX (e : SlvEnv) (z : SlvPoint) (k j : Nat) : Rat := of40 e.xf (nth (nth z.xs k []) j 0)

/-- A sum of rationals. -/
def ratSum (l : List Rat) : Rat := l.foldl (· + ·) 0

/-! ## Box rows (R246, R250 step 1) -/

/-- The kind of row i at stage k: terminal rows are SOFT (R246). -/
def kindAt (e : SlvEnv) (k i : Nat) (s : State) : Nat := if k = e.n then kSoft else rowKind e.a i s

/-- The bound of row i of stage k, before conversion. -/
def rowBound (e : SlvEnv) (k i : Nat) (s : State) : Option FpVal :=
  if k = e.n then bkRaw e bkdN 0 i s else bkRaw e bkd k i s

/-- Whether a row is enabled: its bound is not the disabling infinity (R246). -/
def rowEnabled (e : SlvEnv) (k i : Nat) (s : State) : Bool :=
  match rowBound e k i s with
  | none => false
  | some (.inf neg) => if kindAt e k i s = kLower then !neg else neg
  | some _ => true

/-- The bound of an enabled box row in the input's 40-bit format: upper bounds down, lower bounds up. -/
def boxBound (e : SlvEnv) (k i : Nat) (s : State) : Option Int :=
  match rowBound e k i s with
  | some (.num v) =>
    let t := v * pow2 e.uf
    let b := if rowKind e.a i s = kUpper then t.floor else -((-t).floor)
    some (clampInt (-(2 ^ 39 : Int)) (2 ^ 39 - 1) b)
  | _ => none

/-- The enabled box rows of an input of a stage of a kind: row and bound. -/
def boxRows (e : SlvEnv) (kd k j : Nat) (s : State) : List (Nat × Int) :=
  (List.range e.m).filterMap (fun i =>
    if kindAt e k i s = kd ∧ rowInput e.a i s = j ∧ rowEnabled e k i s then
      (boxBound e k i s).map (fun b => (i, b)) else none)

/-- The tightest upper and lower bounds of an input. -/
def boxHi (e : SlvEnv) (k j : Nat) (s : State) : Int := (boxRows e kUpper k j s).foldl (fun m b => min m b.2) (2 ^ 39 - 1)
def boxLo (e : SlvEnv) (k j : Nat) (s : State) : Int := (boxRows e kLower k j s).foldl (fun m b => max m b.2) (-(2 ^ 39 : Int))

/-- An input clamped into its boxes; where a lower bound lies above an upper one, which the check refuses, the upper
bound wins. -/
def boxClamp (e : SlvEnv) (k j : Nat) (s : State) (v : Int) : Int := min (boxHi e k j s) (max (boxLo e k j s) v)

/-! ## Starting point (R256, R257) -/

/-- The stored row that a held row of the new horizon comes from (R256); terminal rows stay terminal. -/
def storedRow (np s1 n k i : Nat) : Nat × Nat := if k = n then (np, i) else (min (k + s1) (np - 1), i)

/-- The rows carried over from the stored solution with their states, where still enabled. -/
def carriedRows (e : SlvEnv) (st : SlvStored) (shift : Nat) (s : State) : List HeldRow :=
  let np := st.us.length
  (List.range (e.n + 1)).flatMap (fun k => (List.range e.m).filterMap (fun i =>
    let q := storedRow np shift e.n k i
    match st.held.find? (fun h => h.1 == q.1 && h.2.1 == q.2) with
    | some h => if rowEnabled e k i s then some (k, i, h.2.2) else none
    | none => none))

/-- Whether a held box row's bound crosses the opposite bound of its input (R256). -/
def pinCrosses (e : SlvEnv) (k i : Nat) (b : Int) (s : State) : Bool :=
  let j := rowInput e.a i s
  if rowKind e.a i s = kUpper then decide (b < boxLo e k j s) else decide (boxHi e k j s < b)

/-- The held box rows of an input that pin it, with their bounds: upper rows first. -/
def pinRows (e : SlvEnv) (rows : List HeldRow) (k j : Nat) (s : State) : List (Nat × Int) :=
  (boxRows e kUpper k j s ++ boxRows e kLower k j s).filter (fun b =>
    rows.any (fun h => h.1 == k && h.2.1 == b.1) && !pinCrosses e k b.1 b.2 s)

/-- The value at which held box rows pin an input, within its boxes. -/
def pinOf (e : SlvEnv) (rows : List HeldRow) (k j : Nat) (s : State) : Option Int :=
  (pinRows e rows k j s).head?.map (fun b => boxClamp e k j s b.2)

/-- Whether a carried box row stays AT_BOUND: it does not cross, and where rows of both kinds pin one input apart, the upper
ones do (DESIGN CHOICE, log entry 90). -/
def pinStays (e : SlvEnv) (rows : List HeldRow) (s : State) (h : HeldRow) : Bool :=
  let k := h.1
  let ps := pinRows e rows k (rowInput e.a h.2.1 s) s
  match ps.find? (fun b => b.1 == h.2.1), ps.head? with
  | some b, some top => rowKind e.a b.1 s == rowKind e.a top.1 s || b.2 == boxClamp e k (rowInput e.a h.2.1 s) s top.2
  | _, _ => false

/-- The warm starting inputs and held rows (R256). -/
def warmStart (e : SlvEnv) (st : SlvStored) (shift : Nat) (s : State) : List (List Int) × List HeldRow :=
  let rows := carriedRows e st shift s
  let us := (List.range e.n).map (fun k => (List.range e.nu).map (fun j =>
    match pinOf e rows k j s with
    | some b => b
    | none =>
      let v := of40 st.ufrac (nth (nth st.us (min (k + shift) (st.us.length - 1)) []) j 0)
      boxClamp e k j s (to40 e.uf v).1))
  (us, rows.filter (fun h => kindAt e h.1 h.2.1 s == kSoft || pinStays e rows s h))

/-- The cold starting inputs (R257). -/
def coldStart (e : SlvEnv) (s : State) : List (List Int) :=
  (List.range e.n).map (fun k => (List.range e.nu).map (fun j =>
    let v : Rat := if smUnom e.a s then (match bkRaw e bkUnom k j s with | some (.num v) => v | _ => 0) else 0
    boxClamp e k j s (to40 e.uf v).1))

/-! ## Assembly (R250) -/

/-- Every block value the solve may read, of stages 0 to n − 1 (or one), as raw values. -/
def allRaw (e : SlvEnv) (s : State) : List (Nat × FpVal) :=
  (List.range 16).flatMap (fun id =>
    let stages := if 11 ≤ id ∧ id ≤ 14 then 1 else e.n
    (List.range stages).flatMap (fun k => (List.range (bkSize id e.nx e.nu e.m)).filterMap (fun i =>
      (bkRaw e id k i s).map (fun v => (id, v)))))

/-- Whether an infinity is a disabling bound of its row (R246). -/
def disabling (e : SlvEnv) (s : State) : Bool :=
  (List.range (e.n + 1)).all (fun k => (List.range e.m).all (fun i =>
    match rowBound e k i s with
    | some (.inf neg) => if kindAt e k i s = kLower then neg else !neg
    | _ => true))

/-- x̂ as FP32 patterns (R249). -/
def xHat (e : SlvEnv) : List Nat := (List.range e.nx).map (fun j => pbWord e (32 + 4 * j))

/-- Whether a lower bound of an input lies above an upper bound of it, in some stage. -/
def boxesCross (e : SlvEnv) (s : State) : Bool :=
  (List.range e.n).any (fun k => (List.range e.m).any (fun i => (List.range e.m).any (fun j =>
    rowKind e.a i s == kLower && rowKind e.a j s == kUpper && rowInput e.a i s == rowInput e.a j s &&
      (match rowBound e k i s, rowBound e k j s with
        | some (.num a), some (.num b) => decide (b < a)
        | _, _ => false))))

/-- Step 2: the check of the parameter block; a test solve has no slice whose ToV could match (DEDUCED, log entry 46). -/
def paramBad (e : SlvEnv) (tov : Option Nat) (s : State) : Bool :=
  pbWord e 0 != 0x53504152
    || (match tov with | some t => pbWord e 4 != t % 2 ^ 32 | none => false)
    || (allRaw e s).any (fun v => v.2 == .nan || (match v.2 with | .inf _ => v.1 != bkd && v.1 != bkdN | _ => false))
    || (xHat e).any (fun w => !fpFinite fp32 w) || !disabling e s || boxesCross e s

/-- One state of the forward simulation (step 4): the next state's component j, and whether it saturated. -/
def simNext (e : SlvEnv) (k j : Nat) (x u : List Int) (s : State) : Int × Bool :=
  let f := max (max (bkFracOf e bkA s + e.xf) (bkFracOf e bkB s + e.uf)) (bkFracOf e bkC s)
  let v := ratSum ((List.range e.nx).map (fun i => bkVal e bkA k (j * e.nx + i) s * of40 e.xf (nth x i 0)))
    + ratSum ((List.range e.nu).map (fun i => bkVal e bkB k (j * e.nu + i) s * of40 e.uf (nth u i 0)))
    + bkVal e bkC k j s
  let a := acc80 f v
  let r := to40 e.xf a.1
  (r.1, a.2 || r.2)

/-- The forward simulation from x̂ over the inputs, and whether a value saturated. -/
def simulate (e : SlvEnv) (us : List (List Int)) (s : State) : List (List Int) × Bool :=
  let x0 := (xHat e).map (fun w => to40 e.xf (ofFp32 w))
  let go := us.zipIdx.foldl (fun (p : List (List Int) × Bool × List Int) uk =>
      let nx := (List.range e.nx).map (fun j => simNext e uk.2 j p.2.2 uk.1 s)
      (p.1 ++ [nx.map Prod.fst], p.2.1 || nx.any Prod.snd, nx.map Prod.fst))
    ([x0.map Prod.fst], x0.any Prod.snd, x0.map Prod.fst)
  (go.1, go.2.1)

/-- g · z − d of a SOFT row, exactly, as the accumulator holds it (step 5, R259). -/
def rowValue (e : SlvEnv) (z : SlvPoint) (k i : Nat) (s : State) : Rat × Bool :=
  if k = e.n then
    let f := max (bkFracOf e bkDN s + e.xf) (bkFracOf e bkdN s)
    acc80 f (ratSum ((List.range e.nx).map (fun j => bkVal e bkDN 0 (i * e.nx + j) s * ptX e z k j)) - bkVal e bkdN 0 i s)
  else
    let f := max (max (bkFracOf e bkD s + e.xf) (bkFracOf e bkE s + e.uf)) (bkFracOf e bkd s)
    acc80 f (ratSum ((List.range e.nx).map (fun j => bkVal e bkD k (i * e.nx + j) s * ptX e z k j))
      + ratSum ((List.range e.nu).map (fun j => bkVal e bkE k (i * e.nu + j) s * ptU e z k j)) - bkVal e bkd k i s)

/-- Every enabled row of a problem, stage by stage. -/
def allRows (e : SlvEnv) (s : State) : List (Nat × Nat) :=
  (List.range (e.n + 1)).flatMap (fun k => (List.range e.m).filterMap (fun i =>
    if rowEnabled e k i s then some (k, i) else none))

/-- Whether a row is held. -/
def isHeld (held : List HeldRow) (k i : Nat) : Bool := held.any (fun h => h.1 == k && h.2.1 == i)

/-- The SOFT rows that are not carried over. -/
def newSoft (e : SlvEnv) (held : List HeldRow) (s : State) : List (Nat × Nat) :=
  (allRows e s).filter (fun r => kindAt e r.1 r.2 s == kSoft && !isHeld held r.1 r.2)

/-- Step 5: each SOFT row that is not carried over is PENALISED when violated at the point (R250, R256); and whether an
accumulator saturated. -/
def classify (e : SlvEnv) (z : SlvPoint) (held : List HeldRow) (s : State) : List HeldRow × Bool :=
  let rows := newSoft e held s
  (held ++ (rows.filter (fun r => decide (0 < (rowValue e z r.1 r.2 s).1))).map (fun r => (r.1, r.2, 2)),
    rows.any (fun r => (rowValue e z r.1 r.2 s).2))

/-- Whether a value that step 3 converts saturates: every parameter value but the box bounds and U_NOM, which step 1
converts (R250). -/
def blocksSat (e : SlvEnv) (s : State) : Bool :=
  (List.range 15).any (fun id =>
    let stages := if 11 ≤ id ∧ id ≤ 14 then 1 else e.n
    (List.range stages).any (fun k => (List.range (bkSize id e.nx e.nu e.m)).any (fun i =>
      !(id == bkd && rowKind e.a i s != kSoft) && bkSat e id k i s)))
  || (xHat e).any (fun w => (to40 e.xf (ofFp32 w)).2)

end Sys2Proof.Machine
end

