-- ==== Sys2Proof/Machine/SolverPipe.lean ====
section
/-! DEFINITION. The factorisation pipe and the divide/square-root unit, the base and Schur factors, the active-set
iteration and the refinement (R244, R251 to R261). FP32 sums are chains of fused multiply–adds in an order that the manual
does not give (DESIGN CHOICE, log entry 91). -/
namespace Sys2Proof.Machine

/-! ## The divide/square-root unit (R252) -/

/-- A square root to 40 bits beyond a value's own exponent, with a half unit more where it is not exact. -/
def sqrtSticky (r : Rat) : Rat :=
  let k : Int := 40 - ratLog2 r / 2
  let v := (r * pow2 (2 * k)).floor.toNat
  let q := Nat.sqrt v
  ((q : Rat) + (if ((q * q : Nat) : Rat) = r * pow2 (2 * k) then 0 else 1 / 2)) * pow2 (-k)

def duDiv (a b : FpVal) : FpVal := roundAcc (fpDiv a b)
def duRecip (a : FpVal) : FpVal := duDiv (.num 1) a
def duSqrt : FpVal → FpVal
  | .num r => if r < 0 then .nan else if r = 0 then .num 0 else roundAcc (.num (sqrtSticky r))
  | .inf false => .inf false
  | _ => .nan

/-- RSQRT lies within 1 ulp of the reciprocal of the root. -/
def duRsqrt (a : FpVal) : FpVal :=
  let w := fp32Pat (duRecip (duSqrt a))
  match a with
  | .num r => if 0 < r then fpDecode fp32 (ulpAway w (max (-1) (min 1 (Config.rsqrtUlp (fp32Pat a))))) else fpDecode fp32 w
  | _ => fpDecode fp32 w

/-! ## The pipe (R251) -/

/-- The order in which n products are added at a place of the pipe's sequence: any one, the same for the same place. -/
def chainOrder (place : List Nat) (n : Nat) : List Nat :=
  let o := Config.pipeOrder place n
  if o.length = n ∧ (List.range n).all (fun i => o.contains i) then o else List.range n

/-- A chain of fused multiply–adds from a start, one rounding each. -/
def chain (place : List Nat) (start : FpVal) (ps : List (FpVal × FpVal)) : FpVal :=
  (chainOrder place ps.length).foldl (fun t i => let p := nth ps i (.num 0, .num 0); roundAcc (fpAdd t (fpMul p.1 p.2))) start

abbrev FpVec := List FpVal
abbrev FpMat := List FpVec

def fpNeg1 (v : FpVal) : FpVal := fpMul (.num (-1)) v
def mcol (m : FpMat) (j : Nat) : FpVec := m.map (fun r => nth r j (.num 0))
def mcols (m : FpMat) (n : Nat) : FpMat := (List.range n).map (mcol m)

/-- start + M v, row by row. -/
def mulVec (place : List Nat) (start : FpVec) (m : FpMat) (v : FpVec) : FpVec :=
  m.zipIdx.map (fun r => chain (place ++ [r.2]) (nth start r.2 (.num 0)) (r.1.zip v))

/-- start + Mᵀ v for a matrix of n columns. -/
def mulVecT (place : List Nat) (start : FpVec) (m : FpMat) (n : Nat) (v : FpVec) : FpVec := mulVec place start (mcols m n) v

/-- start + A B, for B of n columns. -/
def mulMat (place : List Nat) (start : FpMat) (a b : FpMat) (n : Nat) : FpMat :=
  a.zipIdx.map (fun r => mulVec (place ++ [r.2]) (nth start r.2 []) (mcols b n) r.1)

/-- One row of a Cholesky factor below the rows before it, without its pivot. -/
def cholRow (place : List Nat) (l : FpMat) (a : FpVec) : FpVec :=
  (List.range l.length).foldl (fun row j =>
    let lj := nth l j []
    row ++ [duDiv (chain (place ++ [j]) (nth a j (.num 0)) ((row.map fpNeg1).zip lj)) (nth lj j (.num 1))]) []

/-- Whether a pivot is below τ; a NaN is. -/
def pivotLow (tau : Rat) : FpVal → Bool
  | .num r => decide (r < tau)
  | .inf neg => neg
  | .nan => true

/-- Append a row to a Cholesky factor: its pivot before the root is raised by δ when it may be and is below τ (R253,
R255); and whether it was. -/
def cholAppend (place : List Nat) (tau delta : FpVal) (may : Bool) (l : FpMat) (a : FpVec) : FpMat × Bool :=
  let row := cholRow place l a
  let p := chain (place ++ [l.length]) (nth a l.length (.num 0)) ((row.map fpNeg1).zip row)
  let low := may && pivotLow (match tau with | .num t => t | _ => 0) p
  (l ++ [row ++ [duSqrt (if low then roundAcc (fpAdd p delta) else p)]], low)

/-- A Cholesky factor of a symmetric matrix, and how many pivots were raised. -/
def cholesky (place : List Nat) (tau delta : FpVal) (m : FpMat) : FpMat × Nat :=
  m.zipIdx.foldl (fun acc r =>
    let x := cholAppend (place ++ [r.2]) tau delta true acc.1 r.1
    (x.1, acc.2 + b2n x.2)) ([], 0)

/-- L y = b, and Lᵀ x = y. -/
def lowerSolve (place : List Nat) (l : FpMat) (b : FpVec) : FpVec :=
  l.zipIdx.foldl (fun y r =>
    y ++ [duDiv (chain (place ++ [r.2]) (nth b r.2 (.num 0)) ((y.map fpNeg1).zip r.1)) (nth r.1 r.2 (.num 1))]) []
def upperSolve (place : List Nat) (l : FpMat) (y : FpVec) : FpVec :=
  l.zipIdx.foldr (fun r x =>
    duDiv (chain (place ++ [r.2]) (nth y r.2 (.num 0)) ((x.map fpNeg1).zip ((l.drop (r.2 + 1)).map (fun q => nth q r.2 (.num 0)))))
      (nth r.1 r.2 (.num 1)) :: x) []

/-! ## The assembled blocks in FP32 (R250 step 6) -/

/-- A number in FP32. -/
def inFp32 (v : Rat) : FpVal := roundAcc (.num v)

/-- A block of a stage as FP32, as a matrix or as a vector. -/
def bkMat (e : SlvEnv) (id k rows cols : Nat) (s : State) : FpMat :=
  (List.range rows).map (fun i => (List.range cols).map (fun j => inFp32 (bkVal e id k (i * cols + j) s)))
def bkVec (e : SlvEnv) (id k n : Nat) (s : State) : FpVec := (List.range n).map (fun i => inFp32 (bkVal e id k i s))

/-- The registers a solve runs under: those in force at its start (R272). -/
structure SlvRegs where
  maxIter : Nat
  refineMax : Nat
  stages : Nat
  tau : FpVal
  delta : FpVal
  stepTol : Rat
  multTol : Rat
  refineTol : Rat
  deriving DecidableEq, Repr

/-- The registers' words from SLV_LIMITS to SLV_REFINE_TOL. -/
def slvRegWords (s : State) : List Nat :=
  [fget s SLV_LIMITS fWord, fget s SLV_PIVOT_TAU fWord, fget s SLV_REG_DELTA fWord, fget s SLV_STEP_TOL fWord,
    fget s SLV_MULT_TOL fWord, fget s SLV_REFINE_TOL fWord]

/-- An FP32 tolerance as a number; an infinity is past every magnitude. -/
def tolOf (w : Nat) : Rat := match fpDecode fp32 w with | .num r => r | .inf false => ((2 ^ 200 : Nat) : Rat) | _ => 0

def slvRegs (ws : List Nat) : SlvRegs :=
  let w (i : Nat) : Nat := nth ws i 0
  ⟨natField 11 0 (w 0), natField 13 12 (w 0), natField 19 16 (w 0), fpDecode fp32 (w 1), fpDecode fp32 (w 2), tolOf (w 3),
    tolOf (w 4), tolOf (w 5)⟩

/-! ## The base factor (R253) -/

/-- One stage of the base factor: A, B, the factor L of R̄ and Y = L⁻¹ (S + Bᵀ P A), with the next stage's P. -/
structure BaseStage where
  a : FpMat
  b : FpMat
  next : FpMat
  l : FpMat
  y : FpMat
  deriving DecidableEq, Repr

/-- The Riccati recursion of a stage: its factors, its P, and the pivots raised. -/
def baseStage (e : SlvEnv) (g : SlvRegs) (k : Nat) (p : FpMat) (s : State) : BaseStage × FpMat × Nat :=
  let a := bkMat e bkA k e.nx e.nx s
  let b := bkMat e bkB k e.nx e.nu s
  let pb := mulMat [0, k] [] p b e.nu
  let pa := mulMat [1, k] [] p a e.nx
  let bt := mcols b e.nu
  let rbar := mulMat [2, k] (bkMat e bkR k e.nu e.nu s) bt pb e.nu
  let m := mulMat [3, k] (bkMat e bkS k e.nu e.nx s) bt pa e.nx
  let c := cholesky [4, k] g.tau g.delta rbar
  let yc := (List.range e.nx).map (fun j => lowerSolve [5, k, j] c.1 (mcol m j))
  let y := mcols yc e.nu
  let q := mulMat [6, k] (bkMat e bkQ k e.nx e.nx s) (mcols a e.nx) pa e.nx
  (⟨a, b, p, c.1, y⟩, mulMat [7, k] q (yc.map (fun r => r.map fpNeg1)) y e.nx, c.2)

/-- The base factor from stage k on, backward from P_N = Q_N over n stages; and the pivots raised. -/
def baseFrom (e : SlvEnv) (g : SlvRegs) (s : State) : Nat → Nat → List BaseStage × FpMat × Nat
  | _, 0 => ([], bkMat e bkQN 0 e.nx e.nx s, 0)
  | k, n + 1 =>
    let r := baseFrom e g s (k + 1) n
    let b := baseStage e g k r.2.1 s
    (b.1 :: r.1, b.2.1, r.2.2 + b.2.2)

/-- The base factor of a solve. -/
def baseFactor (e : SlvEnv) (g : SlvRegs) (s : State) : List BaseStage × Nat :=
  let r := baseFrom e g s 0 e.n
  (r.1, r.2.2)

/-- A gradient or a step: states of stages 0 to N, inputs of stages 0 to N − 1. -/
structure FpPoint where
  xs : FpMat
  us : FpMat
  deriving DecidableEq, Repr

def fpZeros (n : Nat) : FpVec := List.replicate n (.num 0)

/-- The backward pass of a base solve: each stage's L⁻¹ (gu + Bᵀ t), and the costate below. -/
def baseBack (e : SlvEnv) (g : FpPoint) (r : FpMat) : List (BaseStage × Nat) → FpMat × FpVec
  | [] => ([], nth g.xs e.n (fpZeros e.nx))
  | (b, k) :: bs =>
    let below := baseBack e g r bs
    let t := mulVec [8, k] below.2 b.next (nth r k (fpZeros e.nx))
    let y := lowerSolve [9, k] b.l (mulVecT [10, k] (nth g.us k (fpZeros e.nu)) b.b e.nu t)
    (y :: below.1, mulVecT [11, k] (mulVecT [12, k] (nth g.xs k (fpZeros e.nx)) b.a e.nx t) b.y e.nx (y.map fpNeg1))

/-- A base solve (R253): the step that minimises the quadratic cost with a gradient under the dynamics with a residual. -/
def baseSolve (e : SlvEnv) (bs : List BaseStage) (g : FpPoint) (r : FpMat) : FpPoint :=
  let back := baseBack e g r bs.zipIdx
  let go := bs.zipIdx.foldl (fun (acc : FpMat × FpMat × FpVec) b =>
      let k := b.2
      let v := mulVec [13, k] (nth back.1 k []) b.1.y acc.2.2
      let u := (upperSolve [14, k] b.1.l v).map fpNeg1
      let x := mulVec [15, k] (mulVec [16, k] (nth r k (fpZeros e.nx)) b.1.a acc.2.2) b.1.b u
      (acc.1 ++ [x], acc.2.1 ++ [u], x)) ([fpZeros e.nx], [], fpZeros e.nx)
  ⟨go.1, go.2.1⟩

/-! ## Rows in FP32 -/

/-- Row i of stage k over that stage's states and inputs: a box row is ± its input (R246). -/
def rowVec (e : SlvEnv) (k i : Nat) (s : State) : FpVec × FpVec :=
  let kd := kindAt e k i s
  let unit (v : Rat) : FpVec := (List.range e.nu).map (fun j => if j = rowInput e.a i s then .num v else .num 0)
  if kd = kUpper then (fpZeros e.nx, unit 1)
  else if kd = kLower then (fpZeros e.nx, unit (-1))
  else if k = e.n then ((List.range e.nx).map (fun j => inFp32 (bkVal e bkDN 0 (i * e.nx + j) s)), [])
  else ((List.range e.nx).map (fun j => inFp32 (bkVal e bkD k (i * e.nx + j) s)),
    (List.range e.nu).map (fun j => inFp32 (bkVal e bkE k (i * e.nu + j) s)))

/-- A row times a step. -/
def rowDot (e : SlvEnv) (k i : Nat) (p : FpPoint) (s : State) : FpVal :=
  let v := rowVec e k i s
  chain [17, k, i] (.num 0) ((v.1 ++ v.2).zip (nth p.xs k (fpZeros e.nx) ++ nth p.us k (fpZeros e.nu)))

/-- A row as a gradient. -/
def rowPoint (e : SlvEnv) (k i : Nat) (s : State) : FpPoint :=
  let v := rowVec e k i s
  ⟨(List.range (e.n + 1)).map (fun q => if q = k then v.1 else fpZeros e.nx),
    (List.range e.n).map (fun q => if q = k then v.2 else fpZeros e.nu)⟩

/-- g · z − d of a row, exactly: a SOFT row's in the accumulator, a box row's in its input's format. -/
def rowGap (e : SlvEnv) (z : SlvPoint) (k i : Nat) (s : State) : Rat × Bool :=
  let kd := kindAt e k i s
  if kd = kSoft then rowValue e z k i s
  else
    match boxBound e k i s with
    | some b =>
      let v := ptU e z k (rowInput e.a i s) - of40 e.uf b
      (if kd = kUpper then v else -v, false)
    | none => (0, false)

/-- σ and ρ of a row. -/
def sigmaOf (e : SlvEnv) (i : Nat) (s : State) : FpVal := fpDecode fp32 (rowSigma e.a i s)
def rhoOf (e : SlvEnv) (i : Nat) (s : State) : FpVal := fpDecode fp32 (rowRho e.a i s)

/-! ## The Schur factor (R254, R255) -/

/-- The factors of a solve: the base factor, the base solves of the held rows' gradients, and the Schur factor. -/
structure SlvFactors where
  base : List BaseStage
  ws : List FpPoint
  l : FpMat
  deriving DecidableEq, Repr

/-- The diagonal of a held row: 0 AT_BOUND, 1/σ PENALISED, with δ more where its append was regularised. -/
def schurDiag (e : SlvEnv) (g : SlvRegs) (regs : List (Nat × Nat)) (h : HeldRow) (s : State) : FpVal :=
  let d := if h.2.2 = 2 then duRecip (sigmaOf e h.2.1 s) else .num 0
  if regs.contains (h.1, h.2.1) then roundAcc (fpAdd d g.delta) else d

/-- Append a held row to the factors; whether its pivot was raised. A row whose append was regularised keeps its δ. -/
def schurAppend (e : SlvEnv) (g : SlvRegs) (may : Bool) (regs : List (Nat × Nat)) (f : SlvFactors) (hs : List HeldRow)
    (h : HeldRow) (s : State) : SlvFactors × Bool :=
  let w := baseSolve e f.base (rowPoint e h.1 h.2.1 s) []
  let neg (v : FpVal) : FpVal := fpNeg1 v
  let row := hs.map (fun q => neg (rowDot e q.1 q.2.1 w s))
  let own := roundAcc (fpAdd (neg (rowDot e h.1 h.2.1 w s)) (schurDiag e g regs h s))
  let c := cholAppend [18, h.1, h.2.1] g.tau g.delta may f.l (row ++ [own])
  (⟨f.base, f.ws ++ [w], c.1⟩, c.2)

/-- Build the Schur factor of held rows in their order; the rows whose appends were regularised. -/
def schurBuild (e : SlvEnv) (g : SlvRegs) (base : List BaseStage) (may : Bool) (regs : List (Nat × Nat)) (held : List HeldRow)
    (s : State) : SlvFactors × List (Nat × Nat) :=
  held.zipIdx.foldl (fun acc h =>
    let x := schurAppend e g may regs acc.1 (held.take h.2) h.1 s
    (x.1, if x.2 then acc.2 ++ [(h.1.1, h.1.2.1)] else acc.2)) (⟨base, [], []⟩, regs)

/-! ## The equality problem (R258) -/

/-- The gradient of the cost at a point, in the pipe. -/
def gradient (e : SlvEnv) (z : SlvPoint) (s : State) : FpPoint :=
  let x (k : Nat) : FpVec := (List.range e.nx).map (fun j => inFp32 (ptX e z k j))
  let u (k : Nat) : FpVec := (List.range e.nu).map (fun j => inFp32 (ptU e z k j))
  ⟨(List.range (e.n + 1)).map (fun k =>
      if k = e.n then mulVec [19, k] (bkVec e bkqN 0 e.nx s) (bkMat e bkQN 0 e.nx e.nx s) (x k)
      else mulVecT [20, k] (mulVec [21, k] (bkVec e bkq k e.nx s) (bkMat e bkQ k e.nx e.nx s) (x k))
        (bkMat e bkS k e.nu e.nx s) e.nx (u k)),
    (List.range e.n).map (fun k =>
      mulVec [22, k] (mulVec [23, k] (bkVec e bkr k e.nu s) (bkMat e bkR k e.nu e.nu s) (u k)) (bkMat e bkS k e.nu e.nx s) (x k))⟩

/-- p + Σ λ w over the held rows. -/
def addRows (e : SlvEnv) (p : FpPoint) (ws : List FpPoint) (lam : FpVec) : FpPoint :=
  ⟨p.xs.zipIdx.map (fun r => r.1.zipIdx.map (fun v =>
      chain [24, r.2, v.2] v.1 (lam.zip (ws.map (fun w => nth (nth w.xs r.2 (fpZeros e.nx)) v.2 (.num 0)))))),
    p.us.zipIdx.map (fun r => r.1.zipIdx.map (fun v =>
      chain [25, r.2, v.2] v.1 (lam.zip (ws.map (fun w => nth (nth w.us r.2 (fpZeros e.nu)) v.2 (.num 0))))))⟩

/-- The multipliers and the step for a base step and the held rows' right-hand sides. -/
def rowSolve (e : SlvEnv) (f : SlvFactors) (held : List HeldRow) (p0 : FpPoint) (rhs : FpVec) (s : State) : FpPoint × FpVec :=
  let b := held.zipIdx.map (fun h => roundAcc (fpAdd (nth rhs h.2 (.num 0)) (rowDot e h.1.1 h.1.2.1 p0 s)))
  let lam := upperSolve [26] f.l (lowerSolve [27] f.l b)
  (addRows e p0 f.ws lam, lam)

/-- The minimiser with the held rows as equalities: the step from z and the multipliers of the held rows (R254, R258). -/
def eqpStep (e : SlvEnv) (f : SlvFactors) (z : SlvPoint) (held : List HeldRow) (s : State) : FpPoint × FpVec :=
  let rhs := held.map (fun h =>
    let gap := inFp32 (rowGap e z h.1 h.2.1 s).1
    if h.2.2 = 2 then roundAcc (fpAdd gap (duDiv (rhoOf e h.2.1 s) (sigmaOf e h.2.1 s))) else gap)
  rowSolve e f held (baseSolve e f.base (gradient e z s) []) rhs s

/-! ## The iteration (R258 to R260) -/

/-- A step's value as a number; an infinity is past every bound, and a NaN moves nothing (DESIGN CHOICE, log entry 91). -/
def stepNum : FpVal → Rat
  | .num r => r
  | .inf neg => if neg then -((2 ^ 200 : Nat) : Rat) else ((2 ^ 200 : Nat) : Rat)
  | .nan => 0

def stepU (p : FpPoint) (k j : Nat) : FpVal := nth (nth p.us k []) j (.num 0)
def stepX (p : FpPoint) (k j : Nat) : FpVal := nth (nth p.xs k []) j (.num 0)

/-- How a row changes (R259). -/
inductive RowChange where
  /-- Becomes AT_BOUND by an append, a diagonal change, or leaves it. -/
  | append (k i : Nat)
  | bound (k i : Nat)
  | release (k i : Nat)
  | penalise (k i : Nat)
  deriving DecidableEq, Repr

/-- The held rows after a change. -/
def applyChange (held : List HeldRow) : RowChange → List HeldRow
  | .append k i => held ++ [(k, i, 1)]
  | .bound k i => held.map (fun h => if h.1 = k ∧ h.2.1 = i then (k, i, 1) else h)
  | .release k i => held.filter (fun h => !(h.1 == k && h.2.1 == i))
  | .penalise k i => held.map (fun h => if h.1 = k ∧ h.2.1 = i then (k, i, 2) else h)

/-- Box rows come before SOFT rows, then lower stage, then lower row (R259). -/
def rowBefore (e : SlvEnv) (s : State) (a b : Nat × Nat) : Bool :=
  let sa := kindAt e a.1 a.2 s == kSoft
  let sb := kindAt e b.1 b.2 s == kSoft
  if sa != sb then !sa else decide (a.1 < b.1) || (a.1 == b.1 && decide (a.2 < b.2))

/-- The α at which a row blocks a step, and its change, if it does with 0 < α ≤ 1 (R259): its exact slack, as the divide
unit takes it, over the pipe's product of the row with the step. -/
def blocking (e : SlvEnv) (z : SlvPoint) (held : List HeldRow) (p : FpPoint) (s : State) (r : Nat × Nat) :
    Option (Rat × RowChange) :=
  let gp := rowDot e r.1 r.2 p s
  let soft := kindAt e r.1 r.2 s == kSoft
  let alpha (c : RowChange) : Option (Rat × RowChange) :=
    match duDiv (inFp32 (-(rowGap e z r.1 r.2 s).1)) gp with
    | .num q => if 0 < q ∧ q ≤ 1 then some (q, c) else none
    | _ => none
  if !isHeld held r.1 r.2 then (if 0 < stepNum gp then alpha (.append r.1 r.2) else none)
  else if soft && held.contains (r.1, r.2, 2) then (if stepNum gp < 0 then alpha (.bound r.1 r.2) else none)
  else none

/-- The ratio test: the smallest blocking α with its tie order; α = 1 and no change when nothing blocks. -/
def ratioTest (e : SlvEnv) (z : SlvPoint) (held : List HeldRow) (p : FpPoint) (s : State) : Rat × Option RowChange :=
  let best := (allRows e s).foldl (fun (m : Option (Rat × RowChange × (Nat × Nat))) r =>
    match blocking e z held p s r with
    | none => m
    | some b => match m with
      | none => some (b.1, b.2, r)
      | some c => if b.1 < c.1 ∨ (b.1 = c.1 ∧ rowBefore e s r c.2.2) then some (b.1, b.2, r) else m) none
  match best with
  | some b => (b.1, some b.2.1)
  | none => (1, none)

/-- The excess of a held row's multiplier beyond its interval, and its change (R259). -/
def excess (e : SlvEnv) (tol : Rat) (s : State) (h : HeldRow) (lam : Rat) : Option (Rat × RowChange) :=
  if h.2.2 ≠ 1 then none
  else if lam < -tol then some (-lam, .release h.1 h.2.1)
  else if kindAt e h.1 h.2.1 s = kSoft ∧ stepNum (rhoOf e h.2.1 s) + tol < lam then
    some (lam - stepNum (rhoOf e h.2.1 s), .penalise h.1 h.2.1)
  else none

/-- The multiplier test: the largest excess with its tie order. -/
def worstMultiplier (e : SlvEnv) (tol : Rat) (held : List HeldRow) (lam : FpVec) (s : State) : Option RowChange :=
  let best := held.zipIdx.foldl (fun (m : Option (Rat × RowChange × (Nat × Nat))) h =>
    match excess e tol s h.1 (stepNum (nth lam h.2 (.num 0))) with
    | none => m
    | some b =>
      let r := (h.1.1, h.1.2.1)
      match m with
      | none => some (b.1, b.2, r)
      | some c => if c.1 < b.1 ∨ (b.1 = c.1 ∧ rowBefore e s r c.2.2) then some (b.1, b.2, r) else m) none
  best.map (fun b => b.2.1)

/-- An input after a commit: clamped into its enabled box rows, and at the bound of a held box row (R260). -/
def commitInput (e : SlvEnv) (held : List HeldRow) (s : State) (k j : Nat) (v : Int) : Int :=
  match (boxRows e kUpper k j s ++ boxRows e kLower k j s).find? (fun b => isHeld held k b.1) with
  | some b => boxClamp e k j s b.2
  | none => boxClamp e k j s v

/-- A commit: z + α p in the iterate formats, with the inputs clamped (R260). -/
def commitPoint (e : SlvEnv) (held : List HeldRow) (alpha : Rat) (p : FpPoint) (z : SlvPoint) (s : State) : SlvPoint :=
  { us := (List.range e.n).map (fun k => (List.range e.nu).map (fun j =>
      commitInput e held s k j (to40 e.uf (ptU e z k j + alpha * stepNum (stepU p k j))).1))
    xs := (List.range (e.n + 1)).map (fun k => (List.range e.nx).map (fun j =>
      (to40 e.xf (ptX e z k j + alpha * stepNum (stepX p k j))).1)) }

/-- How the sequence of R258 ends by itself. -/
inductive SlvEnd where
  | optimal | iterLimit | activeLimit
  deriving DecidableEq, Repr

/-- Where the sequence stands: point, held rows, their factors, the rows whose appends were regularised, commits, pivots
raised, and whether an accumulator has saturated. -/
structure SlvRun where
  z : SlvPoint
  held : List HeldRow
  factors : SlvFactors
  regs : List (Nat × Nat)
  commits : Nat
  pivots : Nat
  sat : Bool
  deriving DecidableEq, Repr

/-- The factors after a change: an append adds a row to them; after a removal or a diagonal change they are those of the
rows that stay, with the δ of theirs (R254, R255). -/
def changeFactors (e : SlvEnv) (g : SlvRegs) (r : SlvRun) (c : RowChange) (s : State) : SlvFactors × List (Nat × Nat) × Nat :=
  let held := applyChange r.held c
  match c with
  | .append k i =>
    let x := schurAppend e g true [] r.factors r.held (k, i, 1) s
    (x.1, if x.2 then r.regs ++ [(k, i)] else r.regs, b2n x.2)
  | _ =>
    let regs := r.regs.filter (fun q => isHeld held q.1 q.2)
    ((schurBuild e g r.factors.base false regs held s).1, regs, 0)

/-- Whether a row that the ratio test looks at overflows an accumulator. -/
def ratioSat (e : SlvEnv) (z : SlvPoint) (s : State) : Bool := (allRows e s).any (fun r => (rowGap e z r.1 r.2 s).2)

/-- One pass of the loop from an iteration boundary: an end with the multipliers of its last step, or the next commit and
whether it writes a change into the shadow factor. -/
def slvPass (e : SlvEnv) (g : SlvRegs) (r : SlvRun) (s : State) : (SlvEnd × FpVec) ⊕ (SlvRun × Bool) :=
  if r.commits = g.maxIter then .inl (.iterLimit, [])
  else
    let st := eqpStep e r.factors r.z r.held s
    let p := st.1
    let small := (p.us ++ p.xs).all (fun l => l.all (fun v => v != .nan && decide (ratAbs (stepNum v) ≤ g.stepTol)))
    let sat := r.sat || r.held.any (fun h => (rowGap e r.z h.1 h.2.1 s).2) || (!small && ratioSat e r.z s)
    let ac : Option (Rat × Option RowChange) :=
      if small then (worstMultiplier e g.multTol r.held st.2 s).map (fun c => (0, some c))
      else some (ratioTest e r.z r.held p s)
    match ac with
    | none => .inl (.optimal, st.2)
    | some (alpha, none) => .inr ({ r with z := commitPoint e r.held alpha p r.z s, commits := r.commits + 1, sat := sat }, false)
    | some (alpha, some c) =>
      let adds : Bool := match c with | .append _ _ => true | _ => false
      if adds && decide (512 ≤ r.held.length) then .inl (.activeLimit, [])
      else
        let held := applyChange r.held c
        let f := changeFactors e g r c s
        .inr (⟨commitPoint e held alpha p r.z s, held, f.1, f.2.1, r.commits + 1, r.pivots + f.2.2, sat⟩, true)

/-- Passes from a start: the state after n commits, unless the sequence ends before. -/
def slvCommits (e : SlvEnv) (g : SlvRegs) (s : State) : Nat → SlvRun → Option SlvRun
  | 0, r => some r
  | n + 1, r => match slvPass e g r s with
    | .inl _ => none
    | .inr r1 => slvCommits e g s n r1.1

/-- The sequence to its own end, with fuel above MAX_ITER. -/
def slvFinish (e : SlvEnv) (g : SlvRegs) (s : State) : Nat → SlvRun → (SlvEnd × FpVec) × SlvRun
  | 0, r => ((.iterLimit, []), r)
  | n + 1, r => match slvPass e g r s with
    | .inl x => (x, r)
    | .inr r1 => slvFinish e g s n r1.1

/-! ## Refinement (R261) -/

/-- What refinement has done: point, multipliers, rounds, the last residual as FP32, and whether it is within tolerance. -/
structure SlvRefine where
  z : SlvPoint
  lam : FpVec
  rounds : Nat
  residual : Option Nat
  done : Bool
  deriving DecidableEq, Repr

/-- The exact residual of the dynamics out of a stage. -/
def dynResidual (e : SlvEnv) (z : SlvPoint) (k : Nat) (s : State) : List Rat :=
  (List.range e.nx).map (fun j =>
    ratSum ((List.range e.nx).map (fun i => bkVal e bkA k (j * e.nx + i) s * ptX e z k i))
      + ratSum ((List.range e.nu).map (fun i => bkVal e bkB k (j * e.nu + i) s * ptU e z k i))
      + bkVal e bkC k j s - ptX e z (k + 1) j)

/-- The exact residual of a held row with its multiplier. -/
def rowResidual (e : SlvEnv) (z : SlvPoint) (h : HeldRow) (lam : FpVal) (s : State) : Rat :=
  let gap := (rowGap e z h.1 h.2.1 s).1
  if h.2.2 = 2 then
    gap + (if stepNum (sigmaOf e h.2.1 s) = 0 then 0
      else (stepNum (rhoOf e h.2.1 s) - stepNum lam) / stepNum (sigmaOf e h.2.1 s))
  else gap

/-- A row's exact coefficients. -/
def rowExact (e : SlvEnv) (k i : Nat) (s : State) : List Rat × List Rat :=
  let v := rowVec e k i s
  if kindAt e k i s ≠ kSoft then (v.1.map stepNum, v.2.map stepNum)
  else if k = e.n then ((List.range e.nx).map (fun j => bkVal e bkDN 0 (i * e.nx + j) s), [])
  else ((List.range e.nx).map (fun j => bkVal e bkD k (i * e.nx + j) s),
    (List.range e.nu).map (fun j => bkVal e bkE k (i * e.nu + j) s))

/-- The held rows' part of the gradient at a stage: component j of its states or inputs. -/
def rowPull (e : SlvEnv) (held : List HeldRow) (lam : FpVec) (k : Nat) (inputs : Bool) (j : Nat) (s : State) : Rat :=
  ratSum ((held.zip lam).filterMap (fun h =>
    if h.1.1 = k then
      let c := rowExact e k h.1.2.1 s
      some (nth (if inputs then c.2 else c.1) j 0 * stepNum h.2)
    else none))

/-- The exact costates and the residuals of the stationarity in the inputs, from stage k on over n stages; the states'
stationarity defines the costates (DESIGN CHOICE, log entry 91). -/
def stationarity (e : SlvEnv) (z : SlvPoint) (held : List HeldRow) (lam : FpVec) (s : State) : Nat → Nat →
    List Rat × List (List Rat)
  | _, 0 =>
    ((List.range e.nx).map (fun j => bkVal e bkqN 0 j s + rowPull e held lam e.n false j s
      + ratSum ((List.range e.nx).map (fun i => bkVal e bkQN 0 (j * e.nx + i) s * ptX e z e.n i))), [])
  | k, n + 1 =>
    let r := stationarity e z held lam s (k + 1) n
    let pi := r.1
    ((List.range e.nx).map (fun j => bkVal e bkq k j s + rowPull e held lam k false j s
      + ratSum ((List.range e.nx).map (fun i => bkVal e bkQ k (j * e.nx + i) s * ptX e z k i
        + bkVal e bkA k (i * e.nx + j) s * nth pi i 0))
      + ratSum ((List.range e.nu).map (fun i => bkVal e bkS k (i * e.nx + j) s * ptU e z k i))),
      (List.range e.nu).map (fun j => bkVal e bkr k j s + rowPull e held lam k true j s
        + ratSum ((List.range e.nu).map (fun i => bkVal e bkR k (j * e.nu + i) s * ptU e z k i))
        + ratSum ((List.range e.nx).map (fun i => bkVal e bkS k (j * e.nx + i) s * ptX e z k i
          + bkVal e bkB k (i * e.nu + j) s * nth pi i 0))) :: r.2)

/-- One round: the residual is computed exactly, rounded to FP32 and solved with the current factors, and the correction
committed under R260; refinement stops after the round whose residual is within tolerance (DEDUCED, log entry 75). -/
def refineRound (e : SlvEnv) (g : SlvRegs) (run : SlvRun) (r : SlvRefine) (s : State) : SlvRefine :=
  if r.done then r
  else
    let dyn := (List.range e.n).map (fun k => (dynResidual e r.z k s).map inFp32)
    let rows := run.held.zipIdx.map (fun h => inFp32 (rowResidual e r.z h.1 (nth r.lam h.2 (.num 0)) s))
    let grad := (stationarity e r.z run.held r.lam s 0 e.n).2.map (fun l => l.map inFp32)
    let top := ((dyn ++ grad).flatten ++ rows).foldl (fun m v => max m (ratAbs (stepNum v))) 0
    let p0 := baseSolve e run.factors.base ⟨(List.range (e.n + 1)).map (fun _ => fpZeros e.nx), grad⟩ dyn
    let c := rowSolve e run.factors run.held p0 rows s
    { z := commitPoint e run.held 1 c.1 r.z s
      lam := r.lam.zipIdx.map (fun v => roundAcc (fpAdd v.1 (nth c.2 v.2 (.num 0))))
      rounds := r.rounds + 1
      residual := some (toFp32 top)
      done := decide (top ≤ g.refineTol) }

/-- At most n rounds, and whether the last residual is above tolerance. -/
def refine (e : SlvEnv) (g : SlvRegs) (run : SlvRun) (lam : FpVec) (n : Nat) (s : State) : SlvRefine :=
  (List.range n).foldl (fun r _ => refineRound e g run r s) ⟨run.z, lam, 0, none, false⟩

/-! ## The objective (R244, R246) -/

/-- A quadratic or bilinear form of a block. -/
def form (e : SlvEnv) (id k cols : Nat) (l r : List Rat) (s : State) : Rat :=
  ratSum (l.zipIdx.flatMap (fun a => r.zipIdx.map (fun b => a.1 * bkVal e id k (a.2 * cols + b.2) s * b.1)))

/-- A linear form of a block. -/
def linear (e : SlvEnv) (id k : Nat) (v : List Rat) (s : State) : Rat :=
  ratSum (v.zipIdx.map (fun a => bkVal e id k a.2 s * a.1))

/-- The penalty of a SOFT row at a point. -/
def penalty (e : SlvEnv) (z : SlvPoint) (r : Nat × Nat) (s : State) : Rat :=
  if kindAt e r.1 r.2 s = kSoft then
    let v := max 0 (rowValue e z r.1 r.2 s).1
    stepNum (sigmaOf e r.2 s) * v * v / 2 + stepNum (rhoOf e r.2 s) * v
  else 0

/-- The value that the solver minimises, at a point. -/
def objective (e : SlvEnv) (z : SlvPoint) (s : State) : Rat :=
  let x (k : Nat) : List Rat := (List.range e.nx).map (ptX e z k)
  let u (k : Nat) : List Rat := (List.range e.nu).map (ptU e z k)
  ratSum ((List.range e.n).map (fun k =>
    form e bkQ k e.nx (x k) (x k) s / 2 + form e bkS k e.nx (u k) (x k) s + form e bkR k e.nu (u k) (u k) s / 2
      + linear e bkq k (x k) s + linear e bkr k (u k) s))
  + form e bkQN 0 e.nx (x e.n) (x e.n) s / 2 + linear e bkqN 0 (x e.n) s
  + ratSum ((allRows e s).map (fun r => penalty e z r s))

end Sys2Proof.Machine
end

