-- ==== Sys2Proof/Machine/Memory.lean ====
section
/-! DEFINITION. The Dome's and LPDDR5X's tags and accesses, their errors, and the host's accesses through BAR2 and BAR4
(R190 to R201, R277). -/
namespace Sys2Proof.Machine

/-! ## Tags (R190 to R196) -/

/-- The logical bank of a Dome address (R190). -/
def domeBank (a : Nat) : Nat := a / 128 % 64

/-- The package, which is the channel group, of an LPDDR5X address (R198). -/
def ddrGroup (a : Nat) : Nat := if a < 2 ^ 34 then 0 else 1 + (a - 2 ^ 34) / 256 % 3

/-- The region of an LPDDR5X address, whether its IECC is set, and whether the address holds its check bytes (R200). -/
def ddrRegion (a : Nat) : Nat := a / 2 ^ 30 % 64
def iecc (a : Nat) (s : State) : Bool := fbit s (DOME_REGION (ddrRegion a)) DOME_REGION_IECC
def ieccTop (a : Nat) (s : State) : Bool := iecc a s && decide (0x3C000000 ≤ a % 2 ^ 30)

/-- Whether a request is one access: 1 to 128 bytes that lie in one Dome line, or in one package (R190, R198). -/
def reqOk (q : MemReq) : Bool :=
  decide (1 ≤ q.len ∧ q.len ≤ 128)
    && (if q.ddr then decide (q.addr + q.len ≤ ddrEnd
          ∧ (q.addr + q.len ≤ 2 ^ 34 ∨ q.addr / 256 = (q.addr + q.len - 1) / 256))
        else decide (q.addr + q.len ≤ 0x06000000 ∧ q.addr / 128 = (q.addr + q.len - 1) / 128))

/-- The flat index of a requesting unit. -/
def reqFlat : Requester → Option Nat
  | .unit f => some f
  | _ => none

/-- The buffer of this chapter that a request moves data of: arrays, vector and scalar cores have one. -/
def reqBuf (q : MemReq) : Option Nat :=
  match q.from_ with
  | .unit f => if 48 ≤ f ∧ f < 208 then some f else if 208 ≤ f ∧ f < 272 then some (coreStore f q.buf) else none
  | _ => none

/-- The most tags one requester's DMA holds (R184, R185). -/
def dmaCap (q : MemReq) : Nat :=
  match q.from_ with
  | .unit f => if 48 ≤ f ∧ f < 80 then 256 else if 80 ≤ f ∧ f < 208 then 128 else 32768
  | _ => 32768

/-- Tags whose completion has not been delivered. -/
def allocTags (s : State) : List TagRec := s.fab.tags.filter (fun t => t.returning.isNone)
/-- Tags whose release is crossing. -/
def returningTags (s : State) : List TagRec := s.fab.tags.filter (fun t => t.returning.isSome)

/-- Whether a free tag serves a request (R194). -/
def tagFree (q : MemReq) (s : State) : Bool :=
  decide (s.fab.tags.length < 32768) && (!q.ddr || decide (((allocTags s).filter (fun t => t.req.ddr)).length < 16384))
    && decide (((allocTags s).filter (fun t => t.req.from_ == q.from_)).length < dmaCap q)

/-- The list that a unit's item in progress runs on, else the ACTIVE one. -/
def unitList (flat : Nat) (s : State) : Option WorkList :=
  match s.fab.items.find? (fun i => i.unit == flat) with
  | some x => match s.slices.find? (fun r => r.seq == x.seq) with
    | some r => sliceList r s
    | none => s.img.active
  | none => s.img.active

/-- The footprint of a unit's accesses to the Dome: base and length (R191). -/
def footprint (flat : Nat) (s : State) : Nat × Nat :=
  match unitList flat s with
  | some w => (w.base, wlDomeBytes w s)
  | none => (0, 0)

/-- Whether a core's Dome access lies outside its list's footprint (R191). -/
def outOfBounds (q : MemReq) (s : State) : Bool :=
  match reqBuf q, reqFlat q.from_ with
  | some _, some f =>
    let p := footprint f s
    !q.ddr && !(decide (p.1 ≤ q.addr ∧ q.addr + q.len ≤ p.1 + p.2))
  | _, _ => false

/-- DOME_TAG_HWM follows a number of tags in use. -/
def tagHigh (n : Nat) (s : State) : State :=
  if fget s DOME_TAG_HWM DOME_TAG_HWM_HWM < n then fset s DOME_TAG_HWM DOME_TAG_HWM_HWM n else s

/-- Grant a tag: the access is issued (R191, R194). A write takes its data at its issue. -/
def grantTag (q : MemReq) (s : State) : State :=
  let void := outOfBounds q s
  let f := (reqFlat q.from_).getD 0
  let data := match reqBuf q with | some b => if q.write then bufBytes b q.buf q.len s else [] | none => []
  let pois := match reqBuf q with | some b => q.write && anyMark (markSpan (bufMark b) q.buf q.len) s | none => false
  let redirect := q.write && s.replaying.contains f && (reqFlat q.from_).isSome
  let s1 := updFab (fun fb => { fb with tags := fb.tags ++ [⟨q, data, pois, void, redirect, none, 0⟩] }) s
  let s2 := tagHigh (allocTags s1).length s1
  if void then reportFault 23 (flatUnit f) (bump s2 DOME_BOUNDS) else s2

/-- Whether a unit may ask for memory: not while it is fenced or held, but for a replay. -/
def mayAsk (q : MemReq) (s : State) : Bool :=
  match q.from_ with
  | .unit f => decide (f < 272) && (s.replaying.contains f || !(unitFenced f s || unitHeld f s))
  | _ => true

/-- TAG_GRANT: a requester takes a free tag, or waits for one (R194, R195). -/
def tagGrant (q : MemReq) (s : State) : State :=
  if !reqOk q || !mayAsk q s then s
  else if tagFree q s && !s.fab.waiting.any (fun w => w.from_ == q.from_) then grantTag q s
  else bump (updFab (fun f => { f with waiting := f.waiting ++ [q] }) s) DOME_TAG_WAITS

/-! ### Bank arbitration (R192) -/

/-- The number of a requester's port; each requester is taken to have one at every bank (DESIGN CHOICE, log entry 88). -/
def portNo : Requester → Nat
  | .unit f => f
  | .tollis l => 400 + l.val
  | .host => 402

/-- Whether a tag's access has yet to complete at a bank. -/
def atBank (b : Nat) (t : TagRec) : Bool := t.returning.isNone && !t.req.ddr && domeBank t.req.addr == b

/-- The accesses that want a bank: the oldest one of each requester, by their places among the tags. -/
def bankHeads (b : Nat) (s : State) : List (TagRec × Nat) :=
  s.fab.tags.zipIdx.filter (fun e => atBank b e.1 && !(s.fab.tags.take e.2).any (fun o => atBank b o && o.req.from_ == e.1.req.from_))

/-- How far a port stands behind the last one that a bank granted. -/
def portTurn (last : Nat) (t : TagRec) : Nat := (portNo t.req.from_ + 1023 - last) % 1024

/-- The tag that a bank grants next: in round-robin order, after a port that has been passed over STARVE times. -/
def bankNext (b : Nat) (s : State) : Option (TagRec × Nat) :=
  let hs := bankHeads b s
  let starved := hs.filter (fun e => fget s DOME_CFG DOME_CFG_STARVE ≤ e.1.passed)
  let turn (e : TagRec × Nat) : Nat := portTurn (nth s.fab.lastPort b 1023) e.1
  (if starved = [] then hs else starved).foldl (fun m e => match m with
    | none => some e
    | some o => if turn e < turn o then some e else m) none

/-- A bank grants a tag's access: the other ports that wanted it are passed over. -/
def bankGranted (b i : Nat) (t : TagRec) (s : State) : State :=
  let others := ((bankHeads b s).map (fun e => e.2)).filter (fun j => j != i)
  updFab (fun f => { f with
    lastPort := setNth f.lastPort b (portNo t.req.from_)
    tags := f.tags.zipIdx.map (fun e => if others.contains e.2 then { e.1 with passed := e.1.passed + 1 } else e.1) }) s

/-- Requests outstanding at a channel group. -/
def groupOut (g : Nat) (tags : List TagRec) : Nat :=
  (tags.filter (fun o => o.returning.isNone && o.req.ddr && ddrGroup o.req.addr == g)).length

/-- Whether the access of tag i may complete now: when its bank grants it, or once the channel group has taken it, 1,024 at
a time (R192, R194). -/
def mayComplete (i : Nat) (t : TagRec) (s : State) : Bool :=
  t.returning.isNone &&
    (if t.req.ddr then decide (groupOut (ddrGroup t.req.addr) (s.fab.tags.take i) < 1024)
     else (bankNext (domeBank t.req.addr) s).any (fun e => e.2 == i))

/-- The stage in which an engine works on a slice; 8 for one that works on none (R190's table of engines). -/
def engineStage (f : Nat) (r : SliceRec) : Bool :=
  let on (st : Nat) : Bool := bitOf st r.begun && !bitOf st r.finished
  if f < 32 then false
  else if f < 35 then on 1
  else if f = flatVhe then on 2
  else if f = flatProjection then on 3 || on 4
  else if f = flatAttention ∨ f = flatWalker then on 5
  else if f = flatPublisher then on 7
  else decide (flatAssembly ≤ f ∧ f < flatPublisher) && on 6

/-- A unit takes poisoned data: its item's outputs will be poisoned; an engine without an item reports the fault and marks
what the slice gets from it (R193). -/
def takePoison (f : Nat) (s : State) : State :=
  if s.fab.items.any (fun i => i.unit == f) then
    updFab (fun fb => { fb with items := fb.items.map (fun i => if i.unit = f then { i with poisoned := true } else i) }) s
  else if f < 48 then
    reportFault 22 (flatUnit f)
      { s with slices := s.slices.map (fun r => if engineStage f r then { r with poisoned := true } else r) }
  else s

/-- Read data arrives at its requester; poisoned data marks what it makes of it (R193, R369). -/
def deliver (t : TagRec) (bs : List Nat) (poison : Bool) (s : State) : State :=
  let f := (reqFlat t.req.from_).getD 400
  let dead := decide (f < 272) && unitFenced f s && !s.replaying.contains f
  let s1 := if poison then bump s DOME_POISONED else s
  if dead then s1
  else
    let s2 := match reqBuf t.req with
      | none => s1
      | some b => setMarks (markSpan (bufMark b) t.req.buf t.req.len) poison (bufPut b t.req.buf bs s1)
    if poison then takePoison f s2 else s2

/-- Where a replay's writes go (R377). -/
def replayAddr (t : TagRec) : Nat := 0x05C00000 + t.req.addr % 2 ^ 20

/-- A Dome access completes. -/
def domeEnd (t : TagRec) (e : MemEnd) (s : State) : State :=
  let q := t.req
  let bank := domeSlot (domeBank q.addr) s
  if q.write then
    if t.redirect then domePut s (replayAddr t) t.data
    else if t.void ∨ t.data = [] then s
    else setMarks (markSpan domeMark q.addr q.len) t.poisoned (domePut s q.addr t.data)
  else if t.void then deliver t (List.replicate q.len 0) false s
  else
    let bad := e == .uncorrectable || anyMark (markSpan domeMark q.addr q.len) s
    let s1 :=
      match e with
      | .corrected =>
        let t0 := 0x8000 + domeBank q.addr
        noteRow t0 q.addr (noteErrors t0 1
          (updFab (fun f => { f with rewrites := f.rewrites ++ [q.addr / 8 * 8] }) (bump s (DOME_BANK_CORR bank))))
      | .uncorrectable => bump s (DOME_BANK_UNCORR bank)
      | _ => s
    deliver t (getBytes s.dome q.addr q.len) bad s1

/-- The counters of an LPDDR5X access's errors. -/
def ddrErrors (q : MemReq) (e : MemEnd) (s : State) : State :=
  let g := ddrGroup q.addr
  match e with
  | .good => s
  | .corrected => if iecc q.addr s then bumpBy s (DOME_MEMGRP_IECC g) DOME_MEMGRP_IECC_IECC_CORR 1 else s
  | .uncorrectable => if iecc q.addr s then bumpBy s (DOME_MEMGRP_IECC g) DOME_MEMGRP_IECC_IECC_UNCORR 1 else s
  | .linkCorrected => bump s (DOME_MEMGRP_LINK_CORR g)
  | .linkFailed => bump s (DOME_MEMGRP_LINK_UNCORR g)

/-- An LPDDR5X access completes (R199 to R201). -/
def ddrEndAccess (t : TagRec) (e : MemEnd) (s : State) : State :=
  let q := t.req
  if ieccTop q.addr s then
    let s1 := bump s DOME_IECC_RANGE
    if q.write then s1 else deliver t (List.replicate q.len 0) false s1
  else
    let s1 := ddrErrors q e s
    if q.write then
      if e = .linkFailed then reportFault 24 (flatUnit ((reqFlat q.from_).getD 0)) s1
      else if t.redirect then domePut s1 (replayAddr t) t.data
      else if inImage q.addr q.len s1 then bump s1 DOME_IMG_WR
      else if t.data = [] then s1
      else setMarks (markSpan ddrMark q.addr q.len) t.poisoned (ddrPut s1 q.addr t.data)
    else
      let bad := e == .linkFailed || (e == .uncorrectable && iecc q.addr s) || anyMark (markSpan ddrMark q.addr q.len) s
      deliver t (getBytes s.lpddr q.addr q.len) bad s1

/-! ### Accesses from outside: BAR2, BAR4 and the Tollis windows (R194, R200, R201, R277, R374, R400) -/

/-- A host read of the Dome. -/
def bar2Read (a n : Nat) (how : MemEnd) (s : State) : State :=
  let k := min n (0x06000000 - a)
  let q : MemReq := ⟨.host, false, false, a, k, 0⟩
  let s1 := if k = 0 then s else domeEnd ⟨q, [], false, false, false, none, 0⟩ how s
  let bad := decide (0 < k) && (how == .uncorrectable || anyMark (markSpan domeMark a k) s)
  { s1 with barData := (getBytes s.dome a k ++ List.replicate (n - k) 0, bad) }

/-- A write that comes in a poisoned TLP (R275): its words are marked poisoned as an item's outputs are (R193), and
Advanced Error Reporting notes a poisoned TLP received (DEDUCED, log entry 92). -/
def tlpPoison (how : MemEnd) (s : State) : State :=
  if how = .uncorrectable then { s with pci := { s.pci with aer := Nat.lor s.pci.aer 0x1000 } } else s

/-- A host write of the Dome: one that reaches device state or past the Dome has no effect (R277). -/
def bar2Write (a : Nat) (bs : List Nat) (how : MemEnd) (s : State) : State :=
  let n := bs.length
  if 0x06000000 < a + n then
    accessErr errUnmapped a .host (if a < 0x06000000 ∧ 0x05800000 < a + n then accessErr errProtected a .host s else s)
  else if 0x05800000 < a + n then accessErr errProtected a .host s
  else setMarks (markSpan domeMark a n) (how == .uncorrectable) (domePut s a bs)

/-- The bytes of an LPDDR5X range as an access reads them: check bytes read as zeros. -/
def ddrSeen (a n : Nat) (s : State) : List Nat :=
  (List.range n).map (fun i => if ieccTop (a + i) s then 0 else ddrByte s (a + i))

/-- Whether a range reaches the top of an IECC region. -/
def rangeTop (a n : Nat) (s : State) : Bool := (List.range 64).any (fun r =>
  fbit s (DOME_REGION r) DOME_REGION_IECC && overlaps a n (r * 2 ^ 30 + 0x3C000000) (2 ^ 26))

/-- A host read of LPDDR5X. -/
def bar4Read (a n : Nat) (how : MemEnd) (s : State) : State :=
  let top := rangeTop a n s
  let s1 := if top then bump s DOME_IECC_RANGE else ddrErrors ⟨.host, true, false, a, n, 0⟩ how s
  let bad := !top && (how == .linkFailed || (how == .uncorrectable && iecc a s) || anyMark (markSpan ddrMark a n) s)
  { (if bad then bump s1 DOME_POISONED else s1) with barData := (ddrSeen a n s, bad) }

/-- Write the bytes of a range that do not lie in the top of an IECC region. -/
def ddrPutOpen : State → Nat → List Nat → State
  | s, _, [] => s
  | s, a, b :: bs => ddrPutOpen (if ieccTop a s then s else ddrPut s a [b]) (a + 1) bs

/-- A host write of LPDDR5X: `uncorrectable` is a write that came poisoned. -/
def bar4Write (a : Nat) (bs : List Nat) (how : MemEnd) (s : State) : State :=
  let n := bs.length
  if a < reservedEnd then accessErr errProtected a .host s
  else if inImage a n s then accessErr errProtected a .host (bump s DOME_IMG_WR)
  else if running s && inRing a n s then accessErr errProtected a .host s
  else if rangeTop a n s then ddrPutOpen (bump s DOME_IECC_RANGE) a bs
  else if how = .uncorrectable then setMarks (markSpan ddrMark a n) true (ddrPut s a bs)
  else
    let s1 := ddrErrors ⟨.host, true, true, a, n, 0⟩ how s
    if how = .linkFailed then reportFault 24 0 s1 else setMarks (markSpan ddrMark a n) false (ddrPut s1 a bs)

/-- An access from outside takes effect. -/
def outerDo (x : OuterAccess) (s : State) : State :=
  match x.port, x.ddr, x.write with
  | .host, false, false => bar2Read x.addr x.len x.how s
  | .host, false, true => bar2Write x.addr x.bytes x.how (tlpPoison x.how s)
  | .host, true, false => bar4Read x.addr x.len x.how s
  | .host, true, true => bar4Write x.addr x.bytes x.how (tlpPoison x.how s)
  | _, _, _ => setMarks (markSpan domeMark x.addr x.bytes.length) false (domePut s x.addr x.bytes)

/-- The request of an access from outside. -/
def outerReq (x : OuterAccess) : MemReq := ⟨x.port, x.ddr, x.write, x.addr, x.len, 0⟩

/-- An access from outside has its tag: it completes at once, or it waits at its channel group with the tag held (R194). -/
def outerTake (x : OuterAccess) (s : State) : State :=
  let s1 := tagHigh ((allocTags s).length + 1) s
  if x.ddr ∧ 1024 ≤ groupOut (ddrGroup x.addr) s.fab.tags then
    updFab (fun f => { f with tags := f.tags ++ [⟨outerReq x, x.bytes, false, false, false, none, 0⟩] }) s1
  else outerDo x s1

/-- An access from outside asks for its tag, and waits when none is free. -/
def outerAsk (x : OuterAccess) (s : State) : State :=
  if tagFree (outerReq x) s && !s.fab.outer.any (fun w => w.port == x.port) then outerTake x s
  else bump (updFab (fun f => { f with outer := f.outer ++ [x] }) s) DOME_TAG_WAITS

/-- The oldest waiting request that a free tag now serves takes it: the units' requests come before those from outside,
an order that R195 leaves open (DESIGN CHOICE, log entry 88). -/
def grantWaiting (s : State) : State :=
  match s.fab.waiting.find? (fun q => tagFree q s) with
  | some q => grantTag q (updFab (fun f => { f with waiting := f.waiting.erase q }) s)
  | none =>
    match s.fab.outer.find? (fun x => tagFree (outerReq x) s) with
    | some x => outerTake x (updFab (fun f => { f with outer := f.outer.erase x }) s)
    | none => s

/-- BAR_MEMORY_ACCESS. -/
def barAccess (bar4 write : Bool) (a n : Nat) (bs : List Nat) (how : MemEnd) (s : State) : State :=
  let limit := if bar4 then ddrEnd else 0x08000000
  let len := if write then bs.length else n
  if len = 0 ∨ limit < a + len then s else outerAsk ⟨.host, bar4, write, a, len, if write then bs else [], how⟩ s

/-- An LPDDR5X access of a tag completes; the host's moves its own data. -/
def groupEnd (t : TagRec) (e : MemEnd) (s : State) : State :=
  if t.req.from_ = .host then outerDo ⟨.host, true, t.req.write, t.req.addr, t.req.len, t.data, e⟩ s else ddrEndAccess t e s

/-- MEMORY_ACCESS_COMPLETE: the access of the i-th tag in grant order completes and its tag is released; an LPDDR5X
release then crosses into the pool (R192 to R196). -/
def memComplete (i : Nat) (e : MemEnd) (s : State) : State :=
  match s.fab.tags[i]? with
  | none => s
  | some t =>
    if !mayComplete i t s then s
    else if t.req.ddr then
      updFab (fun f => { f with tags := setNth f.tags i { t with returning := some (upNs s) } }) (groupEnd t e s)
    else grantWaiting (updFab (fun f => { f with tags := f.tags.eraseIdx i })
      (domeEnd t e (bankGranted (domeBank t.req.addr) i t s)))

/-! ### Engines' own writes of LPDDR5X (R200, R201) -/

/-- One request's write by an engine: an image and a region's check bytes keep theirs, and the access is counted. -/
def engineUnit (a : Nat) (bs : List Nat) (s : State) : State :=
  if inImage a bs.length s then bump s DOME_IMG_WR
  else if rangeTop a bs.length s then ddrPutOpen (bump s DOME_IECC_RANGE) a bs
  else ddrPut s a bs

/-- An engine writes LPDDR5X in requests of up to 128 bytes. -/
def enginePut (s : State) (a : Nat) (bs : List Nat) : State :=
  forUpTo ((a % 128 + bs.length + 127) / 128) (fun i t =>
    let lo := max a (a / 128 * 128 + 128 * i)
    engineUnit lo ((bs.drop (lo - a)).take (a / 128 * 128 + 128 * (i + 1) - lo)) t) s

/-! ### Releases (R195, R196) -/

/-- TAG_RELEASE_CROSSING: the oldest crossing release reaches the pool; a waiting request may take the tag (R195). -/
def tagCrossing (s : State) : State :=
  match s.fab.tags.findIdx? (fun t => t.returning.isSome) with
  | none => s
  | some i => grantWaiting (updFab (fun f => { f with tags := f.tags.eraseIdx i }) s)

/-- TAG_RETURNING_TIMEOUT: a tag has stayed RETURNING for more than 1 µs (R196). -/
def tagTimeout (s : State) : State :=
  match (s.fab.tags.filterMap (fun t => t.returning)).head? with
  | none => s
  | some since => ledgerErr DOME_TAG_LEDGER1 DOME_TAG_LEDGER1_ERR 19 0 (runToUp (since + 1001) s)

/-- ECC_REWRITE: a bank's oldest corrected word is rewritten with its corrected data (R193). -/
def eccRewrite (bank : Nat) (s : State) : State :=
  match s.fab.rewrites.find? (fun a => domeBank a == bank) with
  | none => s
  | some a => updFab (fun f => { f with rewrites := f.rewrites.erase a }) s

/-! ## Commands -/

def execTagGrant (req : MemReq) (s : State) : Host.Outcome State Fault Refusal := onMain (tagGrant req) s

def execMemoryAccessComplete (tag : Nat) (how : MemEnd) (s : State) : Host.Outcome State Fault Refusal :=
  onMain (memComplete tag how) s

def execTagReleaseCrossing (s : State) : Host.Outcome State Fault Refusal := onMain tagCrossing s

def execTagReturningTimeout (s : State) : Host.Outcome State Fault Refusal := onMain tagTimeout s

def execEccRewrite (bank : Fin 64) (s : State) : Host.Outcome State Fault Refusal := onMain (eccRewrite bank) s

end Sys2Proof.Machine
end

