-- ==== Sys2Proof/Machine/Attn.lean ====
section
/-! DEFINITION. The page pool, sequences, the KV walker, page migration and the operations of the attention sequencer
(R210 to R232). -/
namespace Sys2Proof.Machine

/-! ## The pool (R210 to R212) -/

/-- Fields of ATN_KVFMT: heads, head size and bytes of an element (R211). -/
def kvHeads (s : State) : Nat := fget s ATN_KVFMT ATN_KVFMT_H_KV
def kvFmt (s : State) : Nat := fget s ATN_KVFMT ATN_KVFMT_FMT
def kvDim (s : State) : Nat := if fbit s ATN_KVFMT ATN_KVFMT_D128 then 128 else 64

/-- Bytes of an element of a format. -/
def fmtBytes (f : Nat) : Nat := fmtBits f / 8

/-- Bytes of a token's row, and tokens of a page, of a format register image. -/
def rowOf (w : Word) : Nat :=
  getBits ATN_KVFMT_H_KV w * (if getBits ATN_KVFMT_D128 w = 1 then 128 else 64) * fmtBytes (getBits ATN_KVFMT_FMT w)
def tokensOf (w : Word) : Nat := if rowOf w = 0 then 0 else 32768 / rowOf w
def kvRow (s : State) : Nat := rowOf (rd s ATN_KVFMT)
def kvTokens (s : State) : Nat := tokensOf (rd s ATN_KVFMT)

def poolBase (s : State) : Nat := rd64 s ATN_POOL_BASE_LO
def poolPages (s : State) : Nat := fget s ATN_POOL_PAGES ATN_POOL_PAGES_PAGES

/-- The address of page n (R212). -/
def pageAddr (n : Nat) (s : State) : Nat := poolBase s + n * 65536

/-- n / d rounded up. -/
def ceilDiv (n d : Nat) : Nat := if d = 0 then 0 else (n + d - 1) / d

/-- Pages one track takes, and the reserve of the track configuration with no track live (R230). -/
def trackPages (t : Nat) (s : State) : Nat := ceilDiv (fget s ATN_TRACK_CFG ATN_TRACK_CFG_TRACK_TOKENS) t
def trackReserve (t : Nat) (s : State) : Nat := fget s ATN_TRACK_CFG ATN_TRACK_CFG_MAX_TRACKS * trackPages t s

/-- ATN_STATUS.CFG_REJECT. -/
def atnReject (s : State) : State := fon s ATN_STATUS ATN_STATUS_CFG_REJECT

/-! ## Sequences and owners (R213 to R216) -/

def hdrAddr (slot : Nat) : Nat := 0x05A00000 + slot * 64
/-- Word i of a slot's header. -/
def hdr (slot i : Nat) (s : State) : Nat := domeWord s (hdrAddr slot + 4 * i)
def hdrSet (slot i v : Nat) (s : State) : State := domePutWords s (hdrAddr slot + 4 * i) [v % 2 ^ 32]
def seqState (slot : Nat) (s : State) : Nat := natField 1 0 (hdr slot 0 s)
def seqRing (slot : Nat) (s : State) : Bool := bitOf 2 (hdr slot 0 s)
def seqPages (slot : Nat) (s : State) : Nat := natField 10 0 (hdr slot 2 s)
def seqLen (slot : Nat) (s : State) : Nat := natField 19 0 (hdr slot 3 s)
def seqHead (slot : Nat) (s : State) : Nat := natField 19 0 (hdr slot 4 s)
def seqCap (slot : Nat) (s : State) : Nat := natField 19 0 (hdr slot 5 s)
def seqGen (slot : Nat) (s : State) : Nat := hdr slot 1 s / 8192
def sqFree : Nat := 0
def sqGeneral : Nat := 1
def sqTrack : Nat := 2

/-- Entry e of a slot's page list (R214). -/
def listAddr (slot e : Nat) (s : State) : Nat := rd64 s ATN_DESC_BASE_LO + slot * 4096 + 4 * e
def listEntry (slot e : Nat) (s : State) : Nat := ofBytes (ddrSeen (listAddr slot e s) 4 s)
def listSet (slot e v : Nat) (s : State) : State := enginePut s (listAddr slot e s) (bytesOfWords [v])

/-- The owner word of page n (R215). -/
def ownerAddr (n : Nat) : Nat := 0x05B00000 + n * 4
def ownerSlot (n : Nat) (s : State) : Nat := natField 12 0 (domeWord s (ownerAddr n))
def pageState (n : Nat) (s : State) : Nat := natField 29 28 (domeWord s (ownerAddr n))
def ownerSet (n slot st : Nat) (s : State) : State := domePutWords s (ownerAddr n) [slot + st * 2 ^ 28]
def pgFree : Nat := 0
def pgAlloc : Nat := 1
def pgMigrating : Nat := 2
def pgQuarantined : Nat := 3

/-- The pages of a state (R219). -/
def pagesIn (st : Nat) (s : State) : List Nat := (List.range (poolPages s)).filter (fun n => pageState n s == st)
def pageCount (st : Nat) (s : State) : Nat := (pagesIn st s).length

/-- ATN_RESERVE: the track reserve less the pages that tracks hold (R230). -/
def atnReserve (s : State) : Nat :=
  trackReserve (kvTokens s) s - ((s.attn.tracks.map (fun t => seqPages t.slot s)).foldl (· + ·) 0)

/-- The allocator takes a FREE page; the manual does not say which (DESIGN CHOICE, log entry 43). -/
def takePage (slot st : Nat) (s : State) : Option (Nat × State) :=
  match pagesIn pgFree s with
  | [] => none
  | p :: ps =>
    let d := drawFree s
    let n := nth (p :: ps) (d.1 % (ps.length + 1)) p
    some (n, ownerSet n slot st d.2)

/-- Take pages into entries e, e + 1, … of a slot's list. -/
def takePages (slot : Nat) : Nat → Nat → State → State
  | 0, _, s => s
  | k + 1, e, s =>
    match takePage slot pgAlloc s with
    | none => s
    | some (n, s1) => takePages slot k (e + 1) (listSet slot e (n + 2 ^ 31) s1)

/-- Return the pages of a slot to FREE, in list order. -/
def freePages (slot : Nat) (s : State) : State :=
  (List.range (seqPages slot s)).foldl (fun s e => ownerSet (natField 17 0 (listEntry slot e s)) 0 pgFree s) s

/-- Open a slot with pages (R213, R230, R237). -/
def openSlot (slot st pages cap ctx : Nat) (ring : Bool) (s : State) : State :=
  let gen := (seqGen slot s + 1) % 2 ^ 19
  let s1 := takePages slot pages 0 s
  domePutWords s1 (hdrAddr slot)
    ([st + b2n ring * 4, gen * 8192 + slot, pages, 0, 0, cap, ctx] ++ List.replicate 9 0)

/-- Close a slot: its pages return to FREE and it becomes FREE; word 1 keeps the generation. -/
def closeSlot (slot : Nat) (s : State) : State := hdrSet slot 0 0 (freePages slot s)

/-- The position of logical token i (R216). -/
def tokenPos (slot i : Nat) (s : State) : Nat :=
  if seqRing slot s then (seqHead slot s + i) % seqCap slot s else i

/-- Whether a list entry names a page the walker may use (R217). -/
def entryOk (slot e : Nat) (s : State) : Bool :=
  let w := listEntry slot e s
  let p := natField 17 0 w
  bitOf 31 w && decide (p < poolPages s) && ownerSlot p s == slot && pageState p s == pgAlloc

/-- The address of the key row at a position (R211, R216). -/
def rowAddr (slot x : Nat) (s : State) : Nat :=
  pageAddr (natField 17 0 (listEntry slot (x / kvTokens s) s)) s + x % kvTokens s * kvRow s

/-- How a walk of a sequence ends (R217). -/
inductive WalkEnd where
  | done | seqFault | pageFault
  deriving DecidableEq, Repr

/-- Walk a sequence: every token's page must be in order. -/
def walk (slot : Nat) (s : State) : WalkEnd :=
  if seqState slot s = sqFree then .seqFault
  else if (List.range (seqLen slot s)).all (fun i => entryOk slot (tokenPos slot i s / kvTokens s) s) then .done
  else .pageFault

/-- The walks of several sequences, to the first that faults. -/
def walks (s : State) : List Nat → WalkEnd
  | [] => .done
  | q :: qs => match walk q s with | .done => walks s qs | e => e

/-- The LPDDR5X words a walk of a sequence fetches. -/
def walkMarks (slot : Nat) (s : State) : List Nat :=
  (List.range (seqLen slot s)).flatMap (fun i =>
    let a := rowAddr slot (tokenPos slot i s) s
    markSpan ddrMark a (kvRow s) ++ markSpan ddrMark (a + 32768) (kvRow s))

/-! ## Faults of an item (R218, R232) -/

/-- Record how an operation's sequence use faulted. -/
def noteWalk (e : WalkEnd) (s : State) : State :=
  match e with
  | .done => s
  | .seqFault => bump (fon s ATN_STATUS ATN_STATUS_SEQ_FAULT) ATN_SEQ_FAULTS
  | .pageFault => bump (fon s ATN_STATUS ATN_STATUS_PAGE_FAULT) ATN_PAGE_FAULTS

/-- The operation of an item is carried out. -/
def opDone (s : State) : State := updItem flatAttention (fun i => { i with opDone := true }) s

/-- The item that stands ready to carry out operation op. -/
def attnItem (op : Nat) (s : State) : Option RunItem :=
  s.fab.items.find? (fun i => i.unit == flatAttention && !i.waits && !i.opDone && attnOp i s == op)

/-- Whether n bytes at a Dome address lie in an item's footprint. -/
def inFoot (x : RunItem) (a n : Nat) (s : State) : Bool :=
  match itemList x s with
  | some w => decide (w.base ≤ a ∧ a + n ≤ w.base + wlDomeBytes w s)
  | none => false

/-! ## The exchange area (R234) -/

/-- Where a list's exchange area begins, and whether it fits. -/
def xchgAddr (w : WorkList) (s : State) : Nat := w.base + fget s ATN_XCHG ATN_XCHG_OFF * 8192
def xchgFits (w : WorkList) (s : State) : Bool := decide (fget s ATN_XCHG ATN_XCHG_OFF * 8192 + 851968 ≤ wlDomeBytes w s)

/-- The exchange area of an item's list, when it fits. -/
def itemXchg (x : RunItem) (s : State) : Option Nat :=
  match itemList x s with
  | some w => if xchgFits w s then some (xchgAddr w s) else none
  | none => none

/-- The count of the LO evidence list and the inflation radius of entry i. -/
def loCount (a : Nat) (s : State) : Nat := domeWord s (a + 0x48000)
def loRadius (a i : Nat) (s : State) : Nat := domeWord s (a + 0x48020 + 32 * i + 20)

/-! ## ATTEND (R225 to R228, R235) -/

/-- The fields of an ATTEND descriptor. -/
structure AttendDesc where
  perSeq : Bool
  geom : Bool
  evidence : Bool
  kdome : Bool
  heads : Nat
  nq : Nat
  keySlot : Nat
  q : Nat
  qFmt : Nat
  pFmt : Nat
  outFmt : Nat
  seqTable : Nat
  out : Nat
  outSat : Bool
  scale : Nat
  gate : Nat
  qtag : Nat
  ktag : Nat
  arrays : Nat
  vecFirst : Nat
  vecCount : Nat
  k : Nat
  v : Nat
  nk : Nat
  deriving DecidableEq, Repr

/-- Read an item's ATTEND descriptor (R225). -/
def attendDesc (x : RunItem) (s : State) : AttendDesc :=
  let d (i : Nat) : Nat := descWord x i s
  { perSeq := bitOf 4 (d 0)
    geom := bitOf 5 (d 0)
    evidence := bitOf 6 (d 0)
    kdome := bitOf 7 (d 0)
    heads := natField 14 8 (d 0)
    nq := natField 13 0 (d 1)
    keySlot := natField 28 16 (d 1)
    q := d 2
    qFmt := natField 3 0 (d 3)
    pFmt := natField 7 4 (d 3)
    outFmt := natField 11 8 (d 3)
    seqTable := d 4
    out := d 5
    outSat := bitOf 12 (d 3)
    scale := d 6
    gate := d 7
    qtag := d 8
    ktag := d 9
    arrays := d 10
    vecFirst := natField 6 0 (d 11)
    vecCount := natField 15 8 (d 11)
    k := d 12
    v := d 13
    nk := d 14 }

/-- The slot of query i under PER_SEQ. -/
def tableSlot (table i : Nat) (s : State) : Nat := ofBytes (getBytes s.dome (table + 2 * i) 2) % 8192

/-- Bytes of a query or output block of a format. -/
def attendBytes (a : AttendDesc) (f : Nat) (s : State) : Nat := a.nq * a.heads * kvDim s * fmtBytes f

/-- The number of keys of the attend's one source; PER_SEQ has none common to all queries. -/
def attendKeys (a : AttendDesc) (s : State) : Nat :=
  if a.kdome then a.nk else if a.perSeq then 0 else seqLen a.keySlot s

/-- The Dome ranges a descriptor names. -/
def attendRanges (a : AttendDesc) (s : State) : List (Nat × Nat) :=
  [(a.q, attendBytes a a.qFmt s), (a.out, attendBytes a a.outFmt s)]
    ++ (if a.perSeq then [(a.seqTable, 2 * a.nq)] else [])
    ++ (if a.geom then [(a.qtag, 8 * a.nq), (a.ktag, 16 * attendKeys a s)] else [])
    ++ (if a.kdome then [(a.k, a.nk * kvRow s), (a.v, a.nk * kvRow s)] else [])

/-- Whether a descriptor is in order (R225). -/
def attendOk (x : RunItem) (a : AttendDesc) (s : State) : Bool :=
  decide (1 ≤ a.heads ∧ a.heads ≤ 64 ∧ a.heads % kvHeads s = 0 ∧ 1 ≤ a.nq ∧ a.nq ≤ 8192)
    && [0x0, 0x1, 0x9, 0xA].contains a.qFmt && [0x0, 0x9, 0xA].contains a.pFmt
    && [0x0, 0x1, 0x9, 0xA, 0xB].contains a.outFmt
    && a.arrays != 0 && decide (1 ≤ a.vecCount ∧ a.vecCount ≤ 128 ∧ a.vecFirst + a.vecCount ≤ 128)
    && !(a.kdome && a.perSeq) && !(a.geom && a.perSeq)
    && (!a.kdome || decide (1 ≤ a.nk ∧ a.nk ≤ 65536))
    && (attendRanges a s).all (fun r => inFoot x r.1 r.2 s)

/-- The sequences an attend reads. -/
def attendSlots (a : AttendDesc) (s : State) : List Nat :=
  if a.kdome then [] else if a.perSeq then (List.range a.nq).map (fun i => tableSlot a.seqTable i s) else [a.keySlot]

/-- A key tag: position, radius used, and whether it carries LO; none when its LO index masks it (R227). -/
def keyTag (xa : Option Nat) (ktag j : Nat) (s : State) : Option (Int × Int × Nat × Bool) :=
  let w (i : Nat) : Nat := domeWord s (ktag + 16 * j + 4 * i)
  let lo := bitOf 31 (w 3)
  let ix := natField 15 0 (w 3)
  let count := match xa with | some a => loCount a s | none => 0
  if lo ∧ count ≤ ix then none
  else
    let own := w 2
    let r := match xa with | some a => if lo then max own (loRadius a ix s) else own | none => own
    some (signed 32 (w 0), signed 32 (w 1), r, lo)

/-- Whether a tag's key is admitted for a query at a position, by the gate (R227). -/
def gateAdmits (gate : Nat) (qx qy : Int) (t : Int × Int × Nat × Bool) : Bool :=
  let dx := qx - t.1
  let dy := qy - t.2.1
  decide (dx * dx + dy * dy ≤ ((gate + t.2.2.1 : Nat) : Int) * ((gate + t.2.2.1 : Nat) : Int))

/-- The admitted keys of query i: their number, whether every one carried LO, and the largest LO radius (R227, R235). -/
def attendQuery (xa : Option Nat) (a : AttendDesc) (s : State) (i : Nat) : Nat × Bool × Nat :=
  if a.geom then
    let qx := signed 32 (domeWord s (a.qtag + 8 * i))
    let qy := signed 32 (domeWord s (a.qtag + 8 * i + 4))
    let ts := ((List.range (attendKeys a s)).filterMap (fun j => keyTag xa a.ktag j s)).filter (gateAdmits a.gate qx qy)
    (ts.length, decide (ts ≠ []) && ts.all (fun t => t.2.2.2),
      (ts.filter (fun t => t.2.2.2)).foldl (fun m t => max m t.2.2.1) 0)
  else (if a.perSeq then seqLen (tableSlot a.seqTable i s) s else attendKeys a s, false, 0)

/-! ### The arithmetic of R226 -/

/-- Whether key j is admitted for query i; block padding is no key (R226, R227). -/
def keyAdmitted (xa : Option Nat) (a : AttendDesc) (i j : Nat) (s : State) : Bool :=
  if a.geom then
    match keyTag xa a.ktag j s with
    | none => false
    | some t => gateAdmits a.gate (signed 32 (domeWord s (a.qtag + 8 * i))) (signed 32 (domeWord s (a.qtag + 8 * i + 4))) t
  else true

/-- The keys that query i has, in logical order. -/
def queryKeys (a : AttendDesc) (i : Nat) (s : State) : Nat :=
  if a.perSeq then seqLen (tableSlot a.seqTable i s) s else attendKeys a s

/-- The n bytes from an offset of key j's row, and of its value's, for query i. -/
def keyBytes (a : AttendDesc) (i j off n : Nat) (s : State) : List Nat × List Nat :=
  if a.kdome then (getBytes s.dome (a.k + j * kvRow s + off) n, getBytes s.dome (a.v + j * kvRow s + off) n)
  else
    let slot := if a.perSeq then tableSlot a.seqTable i s else a.keySlot
    let r := rowAddr slot (tokenPos slot j s) s + off
    (ddrSeen r n s, ddrSeen (r + 32768) n s)

/-- A value as a vector core holds it: FP32, with subnormals flushed under FTZ (R186). -/
def laneVal (ftz : Bool) (v : FpVal) : FpVal := fpDecode fp32 (flush32 ftz (fp32Pat v))

/-- exp of a difference, on a vector core. -/
def laneExp (ftz : Bool) (a b : FpVal) : FpVal :=
  let d := laneVal ftz (fpAdd a (fpMul (.num (-1)) b))
  fpDecode fp32 (vecValue ftz .exp (fp32Pat d))

/-- The larger of two values. -/
def fpMax : FpVal → FpVal → FpVal
  | .nan, _ | _, .nan => .nan
  | .num a, .num b => .num (max a b)
  | .inf true, b => b
  | a, .inf true => a
  | .inf false, _ | _, .inf false => .inf false

/-- SCALE; 0 stands for 1/√D, taken as the FP32 value nearest it (R225; DEDUCED, log entry 44). -/
def attendScale (a : AttendDesc) (s : State) : FpVal :=
  fpDecode fp32 (if a.scale ≠ 0 then a.scale else if kvDim s = 64 then 0x3E000000 else 0x3DB504F3)

/-- The order in which n values reach a sum: any one (R208). -/
def arrival (draw n : Nat) : List Nat :=
  let o := Config.arrival draw n
  if o.length = n ∧ (List.range n).all (fun i => o.contains i) then o else List.range n

/-- A query row in the running: its maximum, its sum and its outputs (R226). -/
structure AttnRow where
  m : Option FpVal
  l : FpVal
  o : List FpVal
  deriving DecidableEq, Repr

/-- The value sums of a block, dimension e: rounded p against the values, handshake by handshake (R181, R226). -/
def blockSum (pFmt vFmt : Nat) (start : FpVal) (ps : List FpVal) (vs : List (List Nat)) (e : Nat) : FpVal :=
  let terms := (ps.zip vs).map (fun x => fpMul x.1 (elemVal vFmt (packedElem vFmt x.2 e)))
  (chunks (handshakeK pFmt vFmt) terms).foldl (fun acc ts => roundAcc (fpAdd acc (ts.foldl fpAdd (.num 0)))) start

/-- One key block: the scores and value rows of its admitted keys act on the row (R226). Whether the block's value sum
starts from the running output or is added to it is not given: Config.attnForm 0 (DESIGN CHOICE, log entry 44). -/
def rowBlock (ftz : Bool) (draw pFmt vFmt : Nat) (row : AttnRow) (ks : List (FpVal × List Nat)) : AttnRow :=
  if ks = [] then row
  else
    let top := ks.foldl (fun m k => match m with | none => some k.1 | some x => some (fpMax x k.1)) row.m
    let m := top.getD (.num 0)
    let keep (v : FpVal) : FpVal :=
      match row.m with
      | some old => if old = m then v else laneVal ftz (fpMul v (laneExp ftz old m))
      | none => v
    let ps := ks.map (fun k => laneExp ftz k.1 m)
    let o := row.o.map keep
    let rounded := ps.map (fun p => elemVal pFmt (outElem pFmt true p))
    let vs := ks.map (fun k => k.2)
    { m := some m
      l := (arrival draw ps.length).foldl (fun t i => laneVal ftz (fpAdd t (nth ps i (.num 0)))) (keep row.l)
      o := o.zipIdx.map (fun e =>
        if Config.attnForm 0 then blockSum pFmt vFmt e.1 rounded vs e.2
        else laneVal ftz (fpAdd e.1 (blockSum pFmt vFmt (.num 0) rounded vs e.2))) }

/-- The admitted keys of a block of 64, with their scores and the bytes of their values (R226, R227). -/
def blockKeys (xa : Option Nat) (a : AttendDesc) (i h b : Nat) (s : State) : List (FpVal × List Nat) :=
  let d := kvDim s
  let f := kvFmt s
  let off := h / (a.heads / kvHeads s) * d * fmtBytes f
  let q := getBytes s.dome (a.q + (i * a.heads + h) * d * fmtBytes a.qFmt) (d * fmtBytes a.qFmt)
  ((List.range 64).filter (fun u => decide (64 * b + u < queryKeys a i s) && keyAdmitted xa a i (64 * b + u) s)).map
    (fun u =>
      let kv := keyBytes a i (64 * b + u) off (d * fmtBytes f) s
      (roundAcc (fpMul (attendScale a s) (accumulate a.qFmt f d q [] kv.1 [])), kv.2))

/-- The outputs of a row: its running output divided by its sum, directly or by the reciprocal (Config.attnForm 1: not
given, log entry 44), converted under R182; zeros for a row with no admitted key. -/
def rowOut (ftz : Bool) (fmt : Nat) (sat : Bool) (row : AttnRow) : List Nat :=
  let quot (v : FpVal) : FpVal :=
    if Config.attnForm 1 then fpMul v (fpDecode fp32 (vecValue ftz .recip (fp32Pat row.l))) else fpDiv v row.l
  row.o.flatMap (fun v => toBytes (fmtBytes fmt) (if row.m = none then 0 else outElem fmt sat (laneVal ftz (quot v))))

/-- The output bytes of query i (R226). The FTZ setting is that of the attend's first vector core. -/
def attendRow (xa : Option Nat) (a : AttendDesc) (draw : Nat) (s : State) (i : Nat) : List Nat :=
  let ftz := coreFtz (80 + a.vecFirst) s
  (List.range a.heads).flatMap (fun h =>
    rowOut ftz a.outFmt a.outSat ((List.range ((queryKeys a i s + 63) / 64)).foldl
      (fun row b => rowBlock ftz (draw + (i * a.heads + h) * 8192 + b) a.pFmt (kvFmt s) row (blockKeys xa a i h b s))
      ⟨none, .num 0, List.replicate (kvDim s) (.num 0)⟩))

/-- ATTEND is carried out. -/
def attendRun (x : RunItem) (a : AttendDesc) (s : State) : State :=
  let xa := itemXchg x s
  let qs := (List.range a.nq).map (attendQuery xa a s)
  let poison := anyMark ((attendRanges a s).flatMap (fun r => if r.1 = a.out then [] else markSpan domeMark r.1 r.2)
    ++ (attendSlots a s).flatMap (fun q => walkMarks q s)) s
  let d := drawFree s
  let bytes := (List.range a.nq).flatMap (attendRow xa a d.1 s)
  let s1 := setMarks (markSpan domeMark a.out (attendBytes a a.outFmt s)) (poison || x.poisoned) (domePut d.2 a.out bytes)
  let s2 := bumpBy s1 ATN_EMPTY_ROWS fWord (a.heads * (qs.filter (fun e => e.1 == 0)).length)
  let s3 := if a.evidence ∧ a.nq = s2.attn.tracks.length then
      { s2 with attn := { s2.attn with
          evids := s2.attn.evids.filter (fun v => v.seq != x.seq)
            ++ [⟨x.seq, if a.geom then some a.ktag else none, attendKeys a s, qs⟩] } }
    else s2
  opDone (updItem flatAttention (fun i => { i with poisoned := i.poisoned || poison }) (bump s3 ATN_ATTENDS))

/-- ATTEND (R226, R232). -/
def attend (s : State) : State :=
  match attnItem 1 s with
  | none => s
  | some x =>
    let a := attendDesc x s
    let n := attendBytes a a.outFmt s
    let outs := if inFoot x a.out n s then markSpan domeMark a.out n else []
    if !fbit s ATN_CTRL ATN_CTRL_EN ∨ !attendOk x a s then attnFail outs s
    else
      match walks s (attendSlots a s) with
      | .done => attendRun x a s
      | e => attnFail outs (noteWalk e s)

/-! ## The KV operations (R230, R231) -/

/-- The migration that holds a page's appends and closes: before step 3, its source (R220, R221). -/
def migHolds (slot : Nat) (s : State) : Bool :=
  match s.attn.mig with
  | some m => !m.swapped && m.slot == slot
  | none => false

/-- Whether an append to a position of a slot must wait for a migration of its page. -/
def appendWaits (slot x : Nat) (s : State) : Bool :=
  match s.attn.mig with
  | some m => !m.swapped && m.slot == slot && natField 17 0 (listEntry slot (x / kvTokens s) s) == m.src
  | none => false

/-- The position the next token of a slot takes; none when a sequence that is not RING is full. -/
def appendPos (slot : Nat) (s : State) : Option Nat :=
  if seqLen slot s < seqCap slot s then some (tokenPos slot (seqLen slot s) s)
  else if seqRing slot s then some (seqHead slot s) else none

/-- Copy a row of key and of value from the Dome into a position, and update LEN or HEAD. -/
def appendToken (slot x ka va : Nat) (s : State) : State :=
  let n := kvRow s
  let a := rowAddr slot x s
  let s1 := enginePut (enginePut s a (getBytes s.dome ka n)) (a + 32768) (getBytes s.dome va n)
  let s2 := setMarks (markSpan ddrMark (a + 32768) n) (anyMark (markSpan domeMark va n) s)
    (setMarks (markSpan ddrMark a n) (anyMark (markSpan domeMark ka n) s) s1)
  let s3 := if seqLen slot s < seqCap slot s then hdrSet slot 3 (seqLen slot s + 1) s2
    else hdrSet slot 4 ((seqHead slot s + 1) % seqCap slot s) s2
  bump s3 ATN_APPENDS

/-- Append tokens in index order, of which the first has number p: slot, key source and value source of each. A token for
a page that migrates waits, and with it those after it (R220); a fault stops the item. -/
def appendAll : Nat → List (Nat × Nat × Nat) → State → State
  | _, [], s => opDone s
  | p, (slot, ka, va) :: r, s =>
    if seqState slot s = sqFree then attnFail [] (noteWalk .seqFault s)
    else match appendPos slot s with
      | none => appendAll (p + 1) r (bump (fon s ATN_STATUS ATN_STATUS_APPEND_OVF) ATN_APPEND_OVF)
      | some x =>
        if appendWaits slot x s then updItem flatAttention (fun i => { i with progress := p }) s
        else if entryOk slot (x / kvTokens s) s then appendAll (p + 1) r (appendToken slot x ka va s)
        else attnFail [] (noteWalk .pageFault s)

/-- KV_APPEND (R231): it goes on from the first token that it has not appended. -/
def kvAppend (s : State) : State :=
  match attnItem 2 s with
  | none => s
  | some x =>
    let d (i : Nat) : Nat := descWord x i s
    let per := bitOf 4 (d 0)
    let n := natField 13 0 (d 1)
    let slotOf (i : Nat) : Nat := if per then tableSlot (d 4) i s else natField 28 16 (d 1)
    let toks := ((List.range n).drop x.progress).map (fun i => (slotOf i, d 2 + i * kvRow s, d 3 + i * kvRow s))
    let good := decide (1 ≤ n ∧ n ≤ 8192) && inFoot x (d 2) (n * kvRow s) s && inFoot x (d 3) (n * kvRow s) s
      && (!per || inFoot x (d 4) (2 * n) s)
    if !fbit s ATN_CTRL ATN_CTRL_EN ∨ !good then attnFail [] s else appendAll x.progress toks s

/-- KV_OPEN (R230). -/
def kvOpen (s : State) : State :=
  match attnItem 3 s with
  | none => s
  | some x =>
    let d (i : Nat) : Nat := descWord x i s
    let slot := natField 28 16 (d 1)
    let pages := natField 10 0 (d 2)
    let outs := if inFoot x (d 4) 4 s then markSpan domeMark (d 4) 4 else []
    if !fbit s ATN_CTRL ATN_CTRL_EN ∨ pages < 1 ∨ 1024 < pages ∨ !inFoot x (d 4) 4 s then attnFail outs s
    else if slot < 4096 ∨ seqState slot s ≠ sqFree then attnFail outs (noteWalk .seqFault s)
    else if pageCount pgFree s < pages + atnReserve s then attnFail outs (fon s ATN_STATUS ATN_STATUS_NO_PAGES)
    else
      let s1 := openSlot slot sqGeneral pages (pages * kvTokens s) (itContext x.words) (bitOf 0 (d 3)) s
      opDone (setMarks (markSpan domeMark (d 4) 4) false (domePutWords s1 (d 4) [hdr slot 1 s1]))

/-- KV_RESET and KV_CLOSE address an open general slot. -/
def kvGeneral (op : Nat) (f : Nat → State → State) (s : State) : State :=
  match attnItem op s with
  | none => s
  | some x =>
    let slot := natField 28 16 (descWord x 1 s)
    if !fbit s ATN_CTRL ATN_CTRL_EN then attnFail [] s
    else if slot < 4096 ∨ seqState slot s = sqFree then attnFail [] (noteWalk .seqFault s)
    else f slot s

/-- KV_RESET (R230). -/
def kvReset (s : State) : State := kvGeneral 4 (fun slot s => opDone (hdrSet slot 4 0 (hdrSet slot 3 0 s))) s

/-- KV_CLOSE: it waits for step 3 of a migration of its page (R221, R230). -/
def kvClose (s : State) : State :=
  kvGeneral 5 (fun slot s => if migHolds slot s then s else opDone (closeSlot slot s)) s

/-! ## Migration (R219 to R223) -/

/-- LAST codes of ATN_MIG_STATUS. -/
def migLast (v : Nat) (s : State) : State := fset s ATN_MIG_STATUS ATN_MIG_STATUS_LAST v

/-- A rejected write of ATN_MIGRATE. -/
def migReject (s : State) : State := atnReject (migLast 3 s)

/-- Change the migration. -/
def setMig (m : Option MigRec) (s : State) : State :=
  fput { s with attn := { s.attn with mig := m } } ATN_STATUS ATN_STATUS_MIG_BUSY m.isSome

/-- Start a migration of page p (step 1). -/
def migStart (p : Nat) (quar : Bool) (s : State) : State :=
  match takePage (ownerSlot p s) pgMigrating s with
  | none => migReject s
  | some (q, s1) => setMig (some ⟨p, q, ownerSlot p s, quar, false, upNs s⟩) s1

/-- A write of ATN_MIGRATE (R220). -/
def migrateWrite (v : Word) (s : State) : State :=
  let p := getBits ATN_MIGRATE_PAGE v
  let quar := getBits ATN_MIGRATE_QUARANTINE v == 1
  let short := decide (pageCount pgFree s < 1 + atnReserve s)
  if poolPages s ≤ p then migReject s
  else if pageState p s = pgAlloc then
    if s.attn.mig.isSome ∨ pageCount pgFree s = 0 ∨ short then migReject s else migStart p quar s
  else if pageState p s = pgFree ∧ quar then
    if short then migReject s else ownerSet p 0 pgQuarantined s
  else if pageState p s = pgQuarantined ∧ !quar then ownerSet p 0 pgFree s
  else s

/-- The list entry of a slot that names page p. -/
def entryOf (slot p : Nat) (s : State) : Option Nat :=
  (List.range (seqPages slot s)).find? (fun e => natField 17 0 (listEntry slot e s) == p && bitOf 31 (listEntry slot e s))

/-- MIGRATION_COPY_DONE: the copy ends, and step 3 is made in one grant. -/
def migCopyDone (s : State) : State :=
  match s.attn.mig with
  | none => s
  | some m =>
    if m.swapped then s
    else
      let s1 := enginePut s (pageAddr m.dst s) (ddrSeen (pageAddr m.src s) 65536 s)
      let s2 := match entryOf m.slot m.src s1 with | some e => listSet m.slot e (m.dst + 2 ^ 31) s1 | none => s1
      let s3 := ownerSet m.src m.slot pgMigrating (ownerSet m.dst m.slot pgAlloc s2)
      setMig (some { m with swapped := true, since := upNs s }) (fset s3 ATN_MIG_STATUS ATN_MIG_STATUS_DEST m.dst)

/-- The source leaves the migration as the write asked. -/
def migFreeSource (m : MigRec) (s : State) : State := ownerSet m.src 0 (if m.quarantine then pgQuarantined else pgFree) s

/-- MIGRATION_SOURCE_RELEASE: every reference on the source is released (step 4). -/
def migRelease (s : State) : State :=
  match s.attn.mig with
  | none => s
  | some m => if m.swapped then bump (migLast 1 (setMig none (migFreeSource m s))) ATN_MIGRATIONS else s

/-- MIGRATION_TIMEOUT: a page stays MIGRATING for more than 100 µs (R222). -/
def migTimeout (s : State) : State :=
  match s.attn.mig with
  | none => s
  | some m => ledgerErr ATN_PAGE_MIG ATN_PAGE_MIG_ERR 20 (flatUnit flatAttention) (runToUp (m.since + 100001) s)

/-- PAGE_LEDGER_REBUILD: the recount after a reset of the sequencer ends; an interrupted migration ends (R223). -/
def ledgerRebuild (s : State) : State :=
  if !fbit s ATN_STATUS ATN_STATUS_REBUILDING then s
  else
    let s1 := fset s ATN_STATUS ATN_STATUS_REBUILDING 0
    match s.attn.mig with
    | none => s1
    | some m => migLast 2 (setMig none (if m.swapped then migFreeSource m s1 else ownerSet m.dst 0 pgFree s1))

/-! ## Configuration writes (R210, R243) -/

/-- Whether a pool of a base, a page count and a format register image is refused. -/
def poolBad (base pages : Nat) (kvfmt : Word) (s : State) : Bool :=
  let h := getBits ATN_KVFMT_H_KV kvfmt
  let top := (List.range 64).any (fun r => fbit s (DOME_REGION r) DOME_REGION_IECC
    && decide (0 < pages) && overlaps base (pages * 65536) (r * 2 ^ 30 + 0x3C000000) (2 ^ 26))
  running s || base % 65536 != 0 || decide (0 < pages ∧ (base < 2 ^ 34 ∨ ddrEnd < base + pages * 65536)) || top
    || (decide (0 < pages) && inImage base (pages * 65536) s)
    || decide (262144 < pages) || (decide (0 < pages) && decide (pages < trackReserve (tokensOf kvfmt) s))
    || !([1, 2, 4, 8, 16, 32, 64].contains h) || !([0x0, 0x1, 0x9, 0xA].contains (getBits ATN_KVFMT_FMT kvfmt))

/-- An accepted pool write empties the pool, the sequences and the track table. -/
def poolEmpty (s : State) : State :=
  let s1 := (List.range 8192).foldl (fun s q => if seqState q s = sqFree then s else hdrSet q 0 0 s) s
  let s2 := (List.range 262144).foldl (fun s n => if domeWord s (ownerAddr n) = 0 then s else ownerSet n 0 pgFree s) s1
  setMig none { s2 with attn := AttnState.reset }

/-- A write of ATN_POOL_BASE, ATN_POOL_PAGES or ATN_KVFMT: the three values it would leave (R210). -/
def poolWrite (base : Nat) (pages kvfmt : Word) (s : State) : State :=
  if poolBad base (pages.toNat % 2 ^ 19) kvfmt s then atnReject s
  else
    let s1 := storeRw ATN_KVFMT kvfmt (storeRw ATN_POOL_PAGES pages (wr64 s ATN_POOL_BASE_LO base))
    poolEmpty (fset s1 ATN_KVFMT ATN_KVFMT_T (tokensOf kvfmt))

/-- Whether ATN_DESC_BASE may not hold a value (R243, R304). -/
def descBaseBad (base : Nat) (s : State) : Bool :=
  let n := 2 ^ 25
  let top := (List.range 16).any (fun r => fbit s (DOME_REGION r) DOME_REGION_IECC
    && overlaps base n (r * 2 ^ 30 + 0x3C000000) (2 ^ 26))
  running s || base % 4096 != 0 || decide (2 ^ 34 < base + n) || top || inImage base n s || inRing base n s

/-- Whether a track configuration word is out of range (R243). -/
def trackCfgBad (v : Word) : Bool :=
  let n := getBits ATN_TRACK_CFG_TRACK_TOKENS v
  decide (4096 < getBits ATN_TRACK_CFG_MAX_TRACKS v ∨ n < 1 ∨ 64 < n)
def trackRulesBad (v : Word) : Bool :=
  getBits ATN_TRACK_RULES_EVICT_AGE v == 0 || getBits ATN_TRACK_RULES_CONFIRM_HITS v == 0
    || getBits ATN_TRACK_RULES_TENT_MISS v == 0
def trackRules2Bad (v : Word) : Bool :=
  let n := getBits ATN_TRACK_RULES2_BIRTH_MAX v
  getBits ATN_TRACK_RULES2_EXPIRE_AGE v == 0 || decide (n < 1 ∨ 256 < n)

/-! ## Commands -/

def execAttend (s : State) : Host.Outcome State Fault Refusal := onMain attend s
def execKvAppend (s : State) : Host.Outcome State Fault Refusal := onMain kvAppend s
def execKvOpen (s : State) : Host.Outcome State Fault Refusal := onMain kvOpen s
def execKvReset (s : State) : Host.Outcome State Fault Refusal := onMain kvReset s
def execKvClose (s : State) : Host.Outcome State Fault Refusal := onMain kvClose s
def execMigrationCopyDone (s : State) : Host.Outcome State Fault Refusal := onMain migCopyDone s
def execMigrationSourceRelease (s : State) : Host.Outcome State Fault Refusal := onMain migRelease s
def execMigrationTimeout (s : State) : Host.Outcome State Fault Refusal := onMain migTimeout s
def execPageLedgerRebuild (s : State) : Host.Outcome State Fault Refusal := onMain ledgerRebuild s

end Sys2Proof.Machine
end

