-- ==== Sys2Proof/Machine/Tracks.lean ====
section
/-! DEFINITION. The track manager: the exchange area, TRACK_COMMIT, births and evictions, and the level O section
(R233 to R242). -/
namespace Sys2Proof.Machine

/-! ## The work of one commit -/

/-- A birth candidate (R234): its position words, CONF, CLASS and anchor. -/
structure BirthCand where
  index : Nat
  pos : List Nat
  conf : Nat
  cls : Nat
  anchor : Nat
  deriving DecidableEq, Repr

/-- Put a track into the table, in ascending slot order. -/
def trackInsert (t : TrackRec) : List TrackRec → List TrackRec
  | [] => [t]
  | u :: us => if t.slot < u.slot then t :: u :: us else u :: trackInsert t us

/-- The record of a track's end. -/
def endRec (t : TrackRec) (reason : Nat) (s : State) : EndRec :=
  ⟨hdr t.slot 1 s, reason, t.conf, clampNat 65535 t.since, nth t.words 2 0, nth t.words 3 0⟩

/-- Step 2: a track takes a valid update; without one it keeps its fields and is unmatched. -/
def takeUpdate (ups : Nat → Option (List Nat)) (e : TrackRec × Nat) : TrackRec :=
  let t := { e.1 with born := false, loEv := false }
  match ups e.2 with
  | none => { t with matched := false }
  | some u =>
    let w := nth u 1 0
    { t with
      words := [0, 0] ++ slice 2 8 u ++ [0, 0] ++ slice 12 4 u
      conf := natField 15 8 w
      cls := natField 21 16 w
      matched := bitOf 3 w }

/-- Step 3: what the evidence attend found for a track (R236). -/
def takeEvidence (ev : Option EvidRec) (e : TrackRec × Nat) : TrackRec :=
  let t := e.1
  match ev with
  | none => t
  | some v =>
    let q := nth v.queries e.2 (0, false, 0)
    if q.1 = 0 then { t with matched := false }
    else if q.2.1 then
      if t.state = 1 then { t with matched := false }
      else
        let w9 := nth t.words 9 0
        { t with
          loEv := true
          words := setNth t.words 9 (clampNat 65535 (max (w9 % 65536) q.2.2) + w9 / 65536 * 65536) }
    else t

/-- Whether step 3 applied LO to a track. -/
def loApplied (ev : Option EvidRec) (i : Nat) : Bool :=
  match ev with
  | none => false
  | some v => let q := nth v.queries i (0, false, 0); decide (q.1 ≠ 0) && q.2.1

/-- Steps 4 and 5: ages and states. -/
def ageTrack (confirm : Nat) (t : TrackRec) : TrackRec :=
  let t1 := if t.matched then { t with age := t.age + 1, since := 0, hits := t.hits + 1 }
    else { t with age := t.age + 1, since := t.since + 1 }
  if t1.state = 1 then (if confirm ≤ t1.hits then { t1 with state := 2 } else t1)
  else if t1.state = 2 ∧ !t1.matched then { t1 with state := 3 }
  else if t1.state = 3 ∧ t1.matched then { t1 with state := 2 }
  else t1

/-- Step 6: whether a track expires. -/
def expires (s : State) (t : TrackRec) : Bool :=
  if t.state = 1 then decide (fget s ATN_TRACK_RULES ATN_TRACK_RULES_TENT_MISS ≤ t.since)
  else decide (fget s ATN_TRACK_RULES2 ATN_TRACK_RULES2_EXPIRE_AGE ≤ t.since)

/-! ## Births (R237) -/

/-- The candidates of the exchange area at address a. -/
def candidates (a : Nat) (s : State) : List BirthCand :=
  (List.range (clampNat 256 (domeWord s (a + 0x44000)))).map (fun i =>
    let w (k : Nat) : Nat := domeWord s (a + 0x44020 + 32 * i + 4 * k)
    ⟨i, [w 0, w 1, w 2], natField 7 0 (w 3), natField 13 8 (w 3), w 4⟩)

/-- Insert by CONF descending, ties to the lower index. -/
def candInsert (c : BirthCand) : List BirthCand → List BirthCand
  | [] => [c]
  | d :: ds => if d.conf < c.conf then c :: d :: ds else d :: candInsert c ds

/-- Candidates by CONF descending, ties to the lower index. -/
def candSort (cs : List BirthCand) : List BirthCand := cs.foldl (fun l c => candInsert c l) []

/-- Whether track a is evicted before track b: lower CONF, then larger SINCE, then lower slot. -/
def evictFirst (a b : TrackRec) : Bool :=
  decide (a.conf < b.conf) || (a.conf == b.conf && (decide (b.since < a.since)
    || (a.since == b.since && decide (a.slot < b.slot))))

/-- The track that a birth may evict: neither newborn nor confirmed in the last EVICT_AGE results. -/
def victim (acc : TrackJournal) (s : State) : Option TrackRec :=
  (acc.tracks.filter (fun t => decide (fget s ATN_TRACK_RULES ATN_TRACK_RULES_EVICT_AGE ≤ t.since)
      && !acc.born.contains t.slot)).foldl
    (fun m t => match m with | none => some t | some v => if evictFirst t v then some t else m) none

/-- The lowest FREE track slot. -/
def freeTrackSlot (s : State) : Option Nat := (List.range 4096).find? (fun q => seqState q s == sqFree)

/-- Open a newborn track from a candidate. -/
def bear (c : BirthCand) (acc : TrackJournal) (s : State) : TrackJournal × State :=
  match freeTrackSlot s with
  | none => ({ acc with refused := acc.refused + 1 }, s)
  | some q =>
    let n := trackPages (kvTokens s) s
    if poolPages s = 0 ∨ pageCount pgFree s < n then ({ acc with refused := acc.refused + 1 }, s)
    else
      let s1 := openSlot q sqTrack n (fget s ATN_TRACK_CFG ATN_TRACK_CFG_TRACK_TOKENS) 0 true s
      let st := if fget s ATN_TRACK_RULES ATN_TRACK_RULES_CONFIRM_HITS = 1 then 2 else 1
      let t : TrackRec := ⟨q, st, 1, 0, 0, true, false, false, c.conf, c.cls, [0, 0] ++ c.pos ++ List.replicate 11 0⟩
      ({ acc with tracks := trackInsert t acc.tracks, births := acc.births + 1,
                    born := q :: acc.born, changes := acc.changes ++ [(q, 2)] }, s1)

/-- Whether the anchor's key tag carries LO. -/
def anchorLo (ev : EvidRec) (anchor : Nat) (s : State) : Bool :=
  match ev.tags with
  | some a => bitOf 31 (domeWord s (a + 16 * anchor + 12))
  | none => false

/-- One candidate in turn (R237). -/
def birthOne (ev : Option EvidRec) (p : TrackJournal × State) (c : BirthCand) : TrackJournal × State :=
  let acc := p.1
  let s := p.2
  let refuse : TrackJournal × State := ({ acc with refused := acc.refused + 1 }, s)
  match ev with
  | none => refuse
  | some v =>
    if v.keys ≤ c.anchor then refuse
    else if anchorLo v c.anchor s then ({ acc with loRefused := acc.loRefused + 1 }, s)
    else if poolPages s = 0 then refuse
    else if acc.tracks.length < fget s ATN_TRACK_CFG ATN_TRACK_CFG_MAX_TRACKS then bear c acc s
    else match victim acc s with
      | none => refuse
      | some t =>
        if c.conf ≤ t.conf then refuse
        else bear c { acc with
          tracks := acc.tracks.filter (fun u => u.slot != t.slot)
          ended := acc.ended ++ [endRec t 1 s]
          changes := acc.changes ++ [(t.slot, 1)] } (closeSlot t.slot s)

/-- Step 7: all births. -/
def births (ev : Option EvidRec) (cs : List BirthCand) (acc : TrackJournal) (s : State) : TrackJournal × State :=
  let m := fget s ATN_TRACK_RULES2 ATN_TRACK_RULES2_BIRTH_MAX
  let excess := if poolPages s = 0 then cs.length else cs.length - m
  let good := (cs.take m).filter (fun c => decide (poolPages s ≠ 0) && decide (fget s ATN_TRACK_RULES ATN_TRACK_RULES_BIRTH_CONF ≤ c.conf))
  (candSort good).foldl (birthOne ev) ({ acc with refused := acc.refused + excess }, s)

/-! ## The section (R240 to R242) -/

/-- floor(x / 100 mm) less 64 times the window's first tile. -/
def cellOf (w : Nat) (g : Int) : Int := signed 32 w / 100 - 64 * g

/-- A track entry (R241). -/
def trackEntry (s : State) (t : TrackRec) : List Nat :=
  let i := cellOf (nth t.words 2 0) (signed 32 (fget s CAM_GX0 fWord))
  let j := cellOf (nth t.words 3 0) (signed 32 (fget s CAM_GY0 fWord))
  let inGrid := decide (0 ≤ i ∧ i ≤ 1023 ∧ 0 ≤ j ∧ j ≤ 1023)
  let w1 := t.state + b2n t.born * 4 + b2n t.matched * 8 + b2n t.loEv * 16 + t.conf * 2 ^ 8 + t.cls * 2 ^ 16
    + seqLen t.slot s % 128 * 2 ^ 22
  let w11 := unsigned 10 i + unsigned 10 j * 2 ^ 10 + b2n inGrid * 2 ^ 20
  [hdr t.slot 1 s, w1] ++ slice 2 8 t.words ++ [clampNat 65535 t.age + clampNat 65535 t.since * 2 ^ 16, w11]
    ++ slice 12 4 t.words

/-- The words of an eviction record. -/
def endWords (e : EndRec) : List Nat := [e.id, e.reason + e.conf * 2 ^ 8 + e.since * 2 ^ 16, e.x, e.y]

/-- The level O section (R240). -/
def levelO (noCommit noEv : Bool) (loRecords : Nat) (acc : TrackJournal) (s : State) : List Nat :=
  [acc.tracks.length + b2n noCommit * 2 ^ 16 + b2n noEv * 2 ^ 17 + b2n acc.loAny * 2 ^ 18, acc.ended.length,
    acc.births % 2 ^ 16 + acc.refused % 2 ^ 16 * 2 ^ 16, loRecords % 2 ^ 16 + acc.loRefused % 2 ^ 16 * 2 ^ 16,
    pageCount pgFree s,
    fget s ATN_TRACK_CFG ATN_TRACK_CFG_MAX_TRACKS + fget s ATN_TRACK_CFG ATN_TRACK_CFG_TRACK_TOKENS * 2 ^ 16, 0, 0]
    ++ acc.tracks.flatMap (trackEntry s) ++ acc.ended.flatMap endWords

/-- The live list of the exchange area: count, then slots, 16 bits each. -/
def liveBytes (ts : List TrackRec) : List Nat := toBytes 2 ts.length ++ ts.flatMap (fun t => toBytes 2 t.slot)

/-! ## The commit (R236, R238) -/

/-- The exchange area a slice's manager uses. -/
def sliceXchg (r : SliceRec) (s : State) : Option Nat :=
  match sliceList r s with
  | some w => if xchgFits w s then some (xchgAddr w s) else none
  | none => none

/-- The update of live-list position i, when it is VALID. -/
def updateAt (xa : Option Nat) (s : State) (i : Nat) : Option (List Nat) :=
  match xa with
  | none => none
  | some a =>
    let u := (List.range 16).map (fun k => domeWord s (a + 0x4000 + 64 * i + 4 * k))
    if bitOf 31 (nth u 1 0) then some u else none

/-- The evidence attend recorded for a slice. -/
def evidOf (r : SliceRec) (s : State) : Option EvidRec := s.attn.evids.find? (fun v => v.seq == r.seq)

/-- Steps 2 to 6, and the records of the tracks that expire. -/
def commitAged (ups : Nat → Option (List Nat)) (ev : Option EvidRec) (s : State) : List TrackRec × Bool :=
  let t1 := s.attn.tracks.zipIdx.map (takeUpdate ups)
  let t2 := t1.zipIdx.map (takeEvidence ev)
  (t2.map (ageTrack (fget s ATN_TRACK_RULES ATN_TRACK_RULES_CONFIRM_HITS)),
    (List.range t1.length).any (fun i => loApplied ev i && (nth t1 i ⟨0, 1, 0, 0, 0, false, false, false, 0, 0, []⟩).state != 1))

/-- The outcome of steps 2 to 7, on what the work list gave or on nothing (R238): what the journal records, and the state
in which the births were tried. -/
def commitRun (given : Bool) (r : SliceRec) (s : State) : TrackJournal × State :=
  let xa := if given then sliceXchg r s else none
  let ev := if given then evidOf r s else none
  let aged := commitAged (updateAt xa s) ev s
  let dead := aged.1.filter (expires s)
  let s1 := dead.foldl (fun t e => closeSlot e.slot t) s
  let acc : TrackJournal := ⟨r.seq, given, aged.1.filter (fun t => !expires s t), dead.map (fun t => endRec t 2 s), 0, 0, 0,
    aged.2, [], dead.map (fun t => (t.slot, 0))⟩
  births ev (match xa with | some a => candidates a s | none => []) acc s1

/-- Whether a migration that has not reached step 3 holds a page of a slot that the commit ends (R221). -/
def commitWaits (j : TrackJournal) (s : State) : Bool :=
  match s.attn.mig with
  | some m => !m.swapped && j.ended.any (fun e => e.id % 8192 == m.slot)
  | none => false

/-- The commit's journal of a slice (R239); none while the commit must wait for a migration. -/
def commitJournal (given : Bool) (r : SliceRec) (s : State) : State :=
  let j := (commitRun given r s).1
  if commitWaits j s then s else { s with attn := { s.attn with journal := some j } }

/-- One change of a journal. -/
def journalStep (s : State) (c : Nat × Nat) : State :=
  match c.2 with
  | 0 => bump (closeSlot c.1 s) ATN_EXPIRIES
  | 1 => bump (closeSlot c.1 s) ATN_EVICTIONS
  | _ => openSlot c.1 sqTrack (trackPages (kvTokens s) s) (fget s ATN_TRACK_CFG ATN_TRACK_CFG_TRACK_TOKENS) 0 true s

/-- A journal's changes are applied, with the track table that they leave, and the commit is counted (R236, R239). -/
def journalApply (j : TrackJournal) (s : State) : State :=
  let s1 := j.changes.foldl journalStep s
  let s2 : State := { s1 with attn := { s1.attn with
    tracks := j.tracks, journal := none, evids := s1.attn.evids.filter (fun v => v.seq != j.seq) } }
  bumpBy (bumpBy (bumpBy s2 ATN_BIRTHS fWord j.births) ATN_BIRTH_REFUSED fWord j.refused) ATN_LO_REFUSED fWord j.loRefused

/-- A journal that a reset interrupted is completed when the sequencer leaves reset; its slice has no record (R239). -/
def journalResume (s : State) : State :=
  match s.attn.journal with
  | some j => journalApply j s
  | none => s

/-- A commit's journal is applied, and the section and the new live list are written (R236 step 8). -/
def commitApply (j : TrackJournal) (r : SliceRec) (s : State) : State :=
  let noEv := !j.given || (evidOf r s).isNone
  let s2 := journalApply j s
  let sec := levelO (!j.given) noEv r.evidence.length j s2
  let s3 := match sliceXchg r s with
    | some a => domePut s2 a (liveBytes j.tracks)
    | none => s2
  updSeq r.seq (fun q => { q with secO := sec, committed := true }) s3

/-- A commit takes two commands: the first records its journal, and the next one applies it (DESIGN CHOICE, log entry 89).
Nothing while another slice's journal stands. -/
def commit (given : Bool) (r : SliceRec) (s : State) : State :=
  match s.attn.journal with
  | none => commitJournal given r s
  | some j => if j.seq = r.seq then commitApply j r s else s

/-- Whether a slice's commit has been made. -/
def committedNow (seq : Nat) (s : State) : Bool := s.slices.any (fun r => r.seq == seq && r.committed)

/-- TRACK_COMMIT (R236): without effect outside the slice's TRACK stage, or with TRACK_EN clear (R238); on nothing while
the exchange area does not fit (R234). -/
def trackCommit (s : State) : State :=
  match attnItem 6 s with
  | none => s
  | some x =>
    if !fbit s ATN_CTRL ATN_CTRL_EN then attnFail [] s
    else match s.slices.find? (fun r => r.seq == x.seq) with
      | none => opDone s
      | some r =>
        if !fbit s ATN_CTRL ATN_CTRL_TRACK_EN ∨ !bitOf 5 r.begun ∨ bitOf 5 r.finished then opDone s
        else
          let t := commit (sliceXchg r s).isSome r s
          if committedNow r.seq t then opDone t else t

/-- TRACK begins: the aligner writes the LO evidence list, and XCHG_BAD shows whether the exchange area fits (R234). -/
def trackBegin (r : SliceRec) (s : State) : State :=
  let bad := (sliceXchg r s).isNone
  let s1 := fput s ATN_STATUS ATN_STATUS_XCHG_BAD bad
  match sliceXchg r s1 with
  | none => s1
  | some a =>
    domePutWords (domePutWords s1 (a + 0x48020) (r.evidence.flatMap (evidenceWords r s1)))
      (a + 0x48000) [r.evidence.length]

/-- TRACK's end: a stage without a commit commits on nothing (R238), by the same two commands. -/
def trackFinish (r : SliceRec) (s : State) : State := if r.committed then s else commit false r s

def execTrackCommit (s : State) : Host.Outcome State Fault Refusal := onMain trackCommit s

end Sys2Proof.Machine
end

