-- ==== Sys2Proof/Machine/Run.lean ====
section
/-! DEFINITION. What ends slices and runs: abandonment, STOP, abort tokens, and the lifting of fences (R302, R371, R373,
R394 to R397). -/
namespace Sys2Proof.Machine

/-! ## Stage numbers -/

def sgIngest : Nat := 0
def sgAlign : Nat := 1
def sgVoxel : Nat := 2
def sgCamera : Nat := 3
def sgFuse : Nat := 4
def sgTrack : Nat := 5
def sgSolve : Nat := 6
def sgPublish : Nat := 7

/-- Whether a stage of a slice has begun, has finished, or is in progress. -/
def hasBegun (st : Nat) (r : SliceRec) : Bool := bitOf st r.begun
def hasEnded (st : Nat) (r : SliceRec) : Bool := bitOf st r.finished
def stageOn (st : Nat) (r : SliceRec) : Bool := hasBegun st r && !hasEnded st r

/-- The present slice record of a sequence number. -/
def sliceOf (seq : Nat) (s : State) : Option SliceRec := s.slices.find? (fun r => r.seq == seq)

/-- The address of a sequence number's slot in the result ring (R304). -/
def slotAddr (seq : Nat) (s : State) : Nat :=
  ringBase s + seq % fget s CMD_RES_SLOTS CMD_RES_SLOTS_SLOTS * slotBytes s

/-- The last complete sequence number as two words. -/
def lastSeqWords (s : State) : List Nat := [fget s CMD_LAST_SEQ_LO fWord, fget s CMD_LAST_SEQ_HI fWord]

/-! ## Fences (R366, R369, R371) -/

/-- The flat indices of a recovery's scope: a scalar core takes its two vector cores with it. -/
def rcvFlats (r : Recovery) : List Nat :=
  if r.level ≤ 1 then List.range 272
  else if r.level = 2 then partFlats r.part
  else if 208 ≤ r.flat ∧ r.flat < 272 then [r.flat, 80 + 2 * (r.flat - 208), 81 + 2 * (r.flat - 208)]
  else [r.flat]

/-- The flat indices under a fence. -/
def fencedFlats (rs : List Recovery) : List Nat := (List.range 272).filter (fun f => rs.any (fun r => (rcvFlats r).contains f))

/-- The partitions fenced whole, as a mask. -/
def fencedParts (rs : List Recovery) : Nat :=
  ((List.range 12).filter (fun p => rs.any (fun r => decide (r.level ≤ 1) || (r.level == 2 && r.part == p)))).foldl
    (fun a p => a + 2 ^ p) 0

/-- RST_FENCE follows the recoveries. -/
def showFence (s : State) : State :=
  fset (fset s RST_FENCE RST_FENCE_PARTITIONS (fencedParts s.rcv)) RST_FENCE RST_FENCE_UNITS (fencedFlats s.rcv).length

/-- Set or clear FENCED and RECOVERING of units. -/
def markUnits (fs : List Nat) (b : Bool) (s : State) : State :=
  fs.foldl (fun s f => fput (fput s (RST_UNIT f) RST_UNIT_FENCED b) (RST_UNIT f) RST_UNIT_RECOVERING b) s

/-- RST_STATE.PHASE of a step. -/
def stepPhase : RcvStep → Nat
  | .fence => 1 | .drain => 2 | .capture => 3 | .reset => 4 | .rebuild => 5 | .replay => 6 | .audit => 7 | .done => 7

/-- RST_STATE shows a recovery. -/
def showRcv (r : Recovery) (s : State) : State :=
  let a := RST_STATE
  fset (fset (fset (fset s a RST_STATE_PHASE (stepPhase r.step)) a RST_STATE_LEVEL r.level) a RST_STATE_PARTITION r.part)
    a RST_STATE_UNIT (if r.level = 3 then flatUnit r.flat else 0)

/-- A recovery ends as its fence lifts: DURATION, and its units are in use again. -/
def liftOne (s : State) (r : Recovery) : State :=
  let s1 := { s with rcv := s.rcv.erase r }
  let free := (rcvFlats r).filter (fun f => !(fencedFlats s1.rcv).contains f)
  fset (fset (showFence (markUnits free false s1)) RST_LAST_DURATION fWord ((upNs s - r.since) / 1000)) RST_STATE RST_STATE_PHASE 0

/-- A recovery is over; a unit that Buttress is to replace stays fenced (R416). -/
def mayLift (r : Recovery) (s : State) : Bool :=
  r.step == .done && !(rcvFlats r).any (fun f => s.bt.swaps.any (fun w => w.1 == f))

/-- The fences of all recoveries whose audit is done lift (R371). -/
def liftFences (s : State) : State := (s.rcv.filter (fun r => mayLift r s)).foldl liftOne s

/-! ## Abandonment (R373) -/

/-- A solve for an abandoned slice ends without a return. -/
def dropSolve (seq : Nat) (s : State) : State :=
  match s.slv.job with
  | some j =>
    if j.seq = seq ∧ j.test.isNone then
      fset (fset { s with slv := { s.slv with job := none } } (BLF_CMP_CTRL 1) BLF_CMP_CTRL_ARM 0) SLV_STATUS SLV_STATUS_BUSY 0
    else s
  | none => s

/-- Whether a reset that has yet to release the attention sequencer is under way. -/
def attnResets (s : State) : Bool :=
  s.rcv.any (fun r => [RcvStep.fence, .drain, .capture, .reset].contains r.step
    && (decide (r.level ≤ 1) || (r.level == 2 && r.part == partFusion) || (r.level == 3 && r.flat == flatAttention)))

/-- An abandoned slice's journal: applied at once, but after the reset that interrupts it (R239). -/
def dropJournal (seq : Nat) (s : State) : State :=
  match s.attn.journal with
  | some j => if j.seq = seq ∧ !attnResets s then journalApply j s else s
  | none => s

/-- A slice is abandoned: its slot holds zero in words 0 and 31, it is counted, and the Spire is told. A FULL section owed
after a rebuild is owed again by the next result (R155, R173). The frames it was to lift free their buffers (R160). -/
def abandonSlice (r0 : SliceRec) (s0 : State) : State :=
  let r := (sliceOf r0.seq s0).getD r0
  let s := dropJournal r.seq (dropSolve r.seq s0)
  let s1 := if r.hdr = [] then s else ddrPutWords (ddrPutWords s (slotAddr r.seq s) [0]) (slotAddr r.seq s + 124) [0]
  let s2 := oweP r.secP (if hasEnded sgCamera r then s1 else releaseBuffers r.seq (holdBuffers r s1))
  let s3 := { s2 with
    slices := s2.slices.filter (fun q => q.seq != r.seq)
    attn := { s2.attn with evids := s2.attn.evids.filter (fun v => v.seq != r.seq) }
    grid := { s2.grid with rebuilt := s2.grid.rebuilt || r.fRebuilt } }
  releaseOld (sendUp (.abandon r.seq) (bump (bump s3 CMD_UNPUBLISHED) RST_ABANDONED))

/-- Every slice is abandoned, newest first. -/
def abandonAll (s : State) : State := s.slices.reverse.foldl (fun s r => abandonSlice r s) s

/-! ## The end of a run (R296, R302) -/

/-- The run state becomes a value; fences that waited for an ALIGN start lift (R371). -/
def setRunState (st : Nat) (s : State) : State :=
  let s1 := fset s DEV_RUN DEV_RUN_STATE st
  if st = stIdle ∨ st = stOutOfService then liftFences { s1 with stopAbandon := false } else s1

/-- STOPPING ends when the last slice has been completed or abandoned; the STOP is answered (R302). -/
def stopDone (s : State) : State :=
  if runState s = stStopping ∧ s.slices = [] then finishOp 0x0602 ⟨stOk, lastSeqWords s⟩ (setRunState stIdle s) else s

/-- Whether a slice stands between two stages: one whose ALIGN has yet to start stands in INGEST. -/
def betweenStages (r : SliceRec) : Bool := hasBegun sgAlign r && (List.range 8).all (fun st => st == 0 || !stageOn st r)

/-- STOP with ABANDON: every slice that stands at a stage boundary is abandoned; the run may end (R302). -/
def stopStep (s : State) : State :=
  stopDone ((s.slices.filter betweenStages).reverse.foldl (fun s r => abandonSlice r s) s)

/-- At a stage boundary the slices of a run under STOP with ABANDON stop. -/
def stopHere (s : State) : State := if s.stopAbandon then stopStep s else s

/-- The commands that wait for the run are answered when it is ended from outside (R382, R302). -/
def answerRun (startStatus : Nat) (s : State) : State :=
  finishOp 0x0602 ⟨stOk, lastSeqWords s⟩ (finishOp 0x0601 ⟨startStatus, []⟩ s)

/-! ## Abort tokens and local aborts (R393 to R397) -/

def abReset : Nat := 1
def abOutOfService : Nat := 2
def abStop : Nat := 3
def abCommand : Nat := 4
def abLinkDown : Nat := 5
def abForwarded : Nat := 6

/-- A module has joined its job while RUNNING with a JOB_ID (R395). -/
def jobId (s : State) : Nat := fget s TOL_JOB TOL_JOB_JOB_ID
def jobRuns (s : State) : Bool := running s && decide (jobId s ≠ 0)

/-- Whether a link carries the job's tokens. -/
def jobLink (l : Nat) (s : State) : Bool := fget s (TOL_STATUS l) TOL_STATUS_STATE == 2 && fbit s (TOL_CTRL l) TOL_CTRL_JOB_EN

/-- Send a token on a link. -/
def tokenOut (job origin reason hops seq : Nat) (s : State) (l : Nat) : State :=
  emit (.abortToken l job origin reason hops seq) (bump s (TOL_ABORT_TX l))

/-- This module's abort: a token on every link that carries the job (R395). -/
def sendAbort (reason : Nat) (s : State) : State :=
  if jobRuns s then
    let origin := fget s TOL_JOB TOL_JOB_MODULE_ID
    let s1 := ([0, 1].filter (fun l => jobLink l s)).foldl (tokenOut (jobId s) origin reason 0 s.tol.seq) s
    { s1 with tol := ⟨s.tol.seq + 1, some (jobId s, upNs s)⟩ }
  else s

/-- Stages stop, the job's DMA stops, every slice is abandoned and the run ends (R397); the fuse entry is the caller's. -/
def abortRun (s : State) : State :=
  let s1 := fon (abandonAll (dropItem 401 (dropItem 400 s))) TOL_JOB TOL_JOB_ABORTED
  setRunState stIdle (answerRun stBusy s1)

/-- The device goes out of service (R382). -/
def outOfService (s : State) : State :=
  if runState s = stOutOfService then s
  else
    let s1 := abandonAll (sendAbort abOutOfService s)
    reportFault 38 0 (fon (setRunState stOutOfService (answerRun stOos s1)) RST_ESC RST_ESC_OOS)

end Sys2Proof.Machine
end

