-- ==== Sys2Proof/Machine/Stage.lean ====
section
/-! DEFINITION. The stages of a slice and the rate governor: beginnings and ends, kicks, the slack ledger and its
checkpoints (R16 to R23, R338). -/
namespace Sys2Proof.Machine

/-- The variant counts of a list-less slice are zero. -/
def pathOf (r : SliceRec) (level st : Nat) (s : State) : Nat :=
  match sliceList r s with
  | some w => wlPath w (presentBelow w level s) st s
  | none => 0

/-! ## The slack ledger (R19, R20) -/

/-- Handshakes left of a stage: none when it has ended, its count less what its elapsed time accounts for while it is
in progress, at its own level; else its count at the level considered (DEDUCED, log entry 47). -/
def stageLeft (r : SliceRec) (level st : Nat) (s : State) : Rat :=
  if hasEnded st r then 0
  else if hasBegun st r then
    let done : Rat := ((lin s - nth r.starts st 0 : Nat) : Rat) * (fget s SLC_GOV_RATE SLC_GOV_RATE_RATE : Rat) / 1000
    max 0 ((pathOf r (nth r.levels st 0) st s : Rat) - done)
  else (pathOf r level st s : Rat)

/-- The remaining handshake work of a slice: CAMERA runs beside ALIGN and VOXEL, and the golden reserve counts until
FUSE ends. -/
def remaining (r : SliceRec) (level : Nat) (s : State) : Rat :=
  let h (st : Nat) : Rat := stageLeft r level st s
  max (h sgAlign + h sgVoxel) (h sgCamera) + h sgFuse + h sgTrack + h sgSolve + h sgPublish
    + (if hasEnded sgFuse r then 0 else (s.goldRes : Rat))

/-- SLC_GOV_RATE.RATE in MHz. -/
def govRate (s : State) : Nat := fget s SLC_GOV_RATE SLC_GOV_RATE_RATE

/-- The predicted slack of a slice at a level, in ns (R20); RATE is not 0. -/
def slackAt (r : SliceRec) (level : Nat) (s : State) : Rat :=
  ((r.tov + fget s SLC_GOV_DEADLINE SLC_GOV_DEADLINE_DEADLINE * 1000 : Nat) : Rat) - (lin s : Rat)
    - remaining r level s * 1000 / (govRate s : Rat)

/-- The levels whose variants a slice's list has. -/
def levelsOf (r : SliceRec) (s : State) : List Nat := match sliceList r s with | some w => wlVariants w s | none => [0]

/-- The effective maximum level (R23). -/
def effMax (r : SliceRec) (s : State) : Nat :=
  ((levelsOf r s).filter (fun v => decide (v ≤ fget s SLC_GOV_CTRL SLC_GOV_CTRL_MAX_LEVEL))).foldl max 0

/-- The next present level above a level, and the next below it. -/
def levelUp (r : SliceRec) (l : Nat) (s : State) : Option Nat := (levelsOf r s).find? (fun v => decide (l < v))
def levelDown (r : SliceRec) (l : Nat) (s : State) : Nat := ((levelsOf r s).filter (fun v => decide (v < l))).foldl max 0

/-- One raise of the level, counted (R20, R23). -/
def govRaise (seq : Nat) (r : SliceRec) (s : State) : State :=
  match levelUp r (govLevel s) s with
  | none => s
  | some l => updSeq seq (fun q => { q with raised := true }) (bump (fset s SLC_GOV_LEVEL SLC_GOV_LEVEL_LEVEL l) SLC_GOV_RAISES)

/-- Raise while a test of the level asks for it and the effective maximum allows it; there are at most three raises. -/
def raiseWhile (need : Nat → State → Bool) (r : SliceRec) (s : State) : State :=
  (List.range 3).foldl (fun s _ =>
    if need (govLevel s) s ∧ govLevel s < effMax r s then govRaise r.seq r s else s) s

/-- The first stage of a slice that has not begun. -/
def nextStage (r : SliceRec) : Option Nat := (List.range 8).find? (fun st => decide (1 ≤ st) && !hasBegun st r)

/-- Whether a slice's next stage would occupy its units for more than 500 µs (R16). -/
def overOccupies (r : SliceRec) (level : Nat) (s : State) : Bool :=
  match nextStage r with
  | some st => decide ((pathOf r level st s : Rat) * 1000 / (govRate s : Rat) > 500000)
  | none => false

/-- A checkpoint of the governor for a slice (R19, R20). With no rate measured yet nothing can be predicted. -/
def checkpoint (seq : Nat) (s : State) : State :=
  match sliceOf seq s with
  | none => s
  | some r =>
    if govRate s = 0 then s
    else
      let sl := slackAt r (govLevel s) s
      let s1 := updSeq seq (fun q => { q with minSlack := some (match q.minSlack with | some m => min m sl | none => sl) }) s
      let margin : Rat := ((fget s SLC_GOV_MARGIN SLC_GOV_MARGIN_MARGIN * 1000 : Nat) : Rat)
      let s2 := raiseWhile (fun l t => decide (slackAt r l t < margin)) r s1
      if r.half then raiseWhile (overOccupies r) r s2 else s2

/-! ## Records -/

/-- The fixed offsets of a record's parts (R305). -/
def offEgo : Nat := 0x100
def offControl : Nat := 0x200
def offLevelO : Nat := 0x8000
def offLevelF : Nat := 0x60000
def offLevelP : Nat := 0x480000

/-- Write a section of a slice's record. -/
def putSection (seq off : Nat) (ws : List Nat) (s : State) : State := ddrPutWords s (slotAddr seq s + off) ws

/-! ## Beginnings and ends of stages -/

/-- The level at which a stage of a slice begins now. -/
def startLevel (st : Nat) (r : SliceRec) (s : State) : Nat :=
  if sgFuse ≤ st then max (govLevel s) r.boost else govLevel s

/-- A stage of a slice begins. -/
def stageBegin (st seq : Nat) (s : State) : State :=
  updSeq seq (fun r => { r with
    begun := Nat.lor r.begun (2 ^ st)
    levels := setNth r.levels st (startLevel st r s)
    starts := setNth r.starts st (lin s) }) s

/-- A stage of a slice is over: its kick goes to the Spire (R338). -/
def stageMark (st seq : Nat) (s : State) : State :=
  sendUp (.kick st seq) (updSeq seq (fun r => { r with finished := Nat.lor r.finished (2 ^ st) }) s)

/-- A stage of a slice ends. -/
def stageEnd (st seq : Nat) (s : State) : State := stopHere (stageMark st seq s)

/-- The oldest slice for which a stage may begin, provided no slice is in that stage. -/
def stageDue (st : Nat) (ready : SliceRec → Bool) (s : State) : Option SliceRec :=
  if s.slices.any (stageOn st) then none else s.slices.find? (fun r => !hasBegun st r && ready r)

/-- The slice in a stage whose work can end: no item of the stage is in progress, and all its items are done; those of
the camera phase have run over every strip. -/
def stageEnding (st : Nat) (s : State) : Option SliceRec :=
  match s.slices.find? (stageOn st) with
  | some r => if !stageItemsRunning r st s && (if st = sgCamera then r.strips.isEmpty else stageItemsDone r st s) then some r else none
  | none => none

/-- An unfenced stage unit is there to work (R369). -/
def unitsUp (fs : List Nat) (s : State) : Bool := fs.all (fun f => !unitFenced f s && !unitHeld f s)

/-- STOP with ABANDON: a slice goes no further than its present stage (R302). -/
def mayGoOn (s : State) : Bool := !s.stopAbandon

end Sys2Proof.Machine
end

