-- ==== Sys2Proof/Machine/Solver.lean ====
section
/-! DEFINITION. The SOLVE stage, its deadline and its returns, the control section, and the solver opcodes (R250, R256
to R274). -/
namespace Sys2Proof.Machine

/-! ## The work area and the model (R249, R267, R274) -/

/-- n rounded up to a multiple of 8,192. -/
def up8k (n : Nat) : Nat := (n + 8191) / 8192 * 8192

/-- Where a list's solver work area begins, and whether it fits its footprint. -/
def workAddr (w : WorkList) (s : State) : Nat := w.base + fget s SLV_WORK SLV_WORK_OFF * 8192
def workFits (w : WorkList) (a : Nat) (s : State) : Bool :=
  decide (fget s SLV_WORK SLV_WORK_OFF * 8192 + up8k (smParamBytes a s) + smAsmBytes a s ≤ wlDomeBytes w s)

/-- Whether the work area of the active list does not fit (R249): SLV_STATUS.WORK_BAD. -/
def workBad (s : State) : Bool :=
  match s.img.active, s.img.slvActive with
  | some w, some m => !workFits w m.1 s
  | _, _ => false

/-- The model's level used at a governor level, and its horizon (R267). -/
def slvLevel (a level : Nat) (s : State) : Nat :=
  ((List.range 4).filter (fun l => decide (l ≤ level) && smN a l s != 0)).foldl max 0

/-- The SLV status and model registers follow the loaded models. -/
def slvShow (s : State) : State :=
  let s1 := fput (fput (fput s SLV_STATUS SLV_STATUS_MODEL_ACTIVE s.img.slvActive.isSome)
    SLV_STATUS SLV_STATUS_MODEL_STANDBY s.img.slvStandby.isSome) SLV_STATUS SLV_STATUS_ACTIVATE_PENDING s.img.slvPending
  match s.img.slvActive with
  | none => s1
  | some m =>
    let a := m.1
    fset (fset (fset (fset (fset s1 SLV_MODEL_ADDR_LO fWord (a % 2 ^ 32)) SLV_MODEL_ADDR_HI fWord (a / 2 ^ 32))
      SLV_MODEL_DIM fWord (smNx a s + smNu a s * 2 ^ 8 + smM a s * 2 ^ 16)) SLV_MODEL_N fWord (smWord a 3 s))
      SLV_MODEL_CRC fWord (ddrWord s (a + m.2 - 4))

/-- The active model and the standby change places; the next solve is cold (R257, R274). -/
def slvSwap (s : State) : State :=
  slvShow { s with
    img := { s.img with slvActive := s.img.slvStandby, slvStandby := s.img.slvActive, slvPending := false }
    slv := { s.slv with fresh := true } }

/-! ## The control section (R266) -/

/-- A control section header's words. -/
structure CtlHead where
  status : Nat
  regularised : Bool
  saturated : Bool
  incomplete : Bool
  cold : Bool
  statesValid : Bool
  horizon : Nat
  nx : Nat
  nu : Nat
  level : Nat
  rounds : Nat
  iterations : Nat
  held : Nat
  residual : Nat
  objective : Nat
  time : Nat
  dt : Nat
  shift : Nat
  phaseUs : Nat
  crc : Nat
  pivots : Nat
  deriving DecidableEq, Repr

/-- Its sixteen words. -/
def ctlWords (c : CtlHead) : List Nat :=
  [c.status + b2n c.regularised * 2 ^ 8 + b2n c.saturated * 2 ^ 9 + b2n c.incomplete * 2 ^ 10 + b2n c.cold * 2 ^ 11
      + b2n c.statesValid * 2 ^ 12,
    c.horizon + c.nx * 2 ^ 8 + c.nu * 2 ^ 16 + c.level * 2 ^ 24 + c.rounds * 2 ^ 28,
    c.iterations % 2 ^ 16 + c.held % 2 ^ 10 * 2 ^ 16, c.residual % 2 ^ 32, c.objective % 2 ^ 32, c.time % 2 ^ 32, c.dt,
    c.shift % 2 ^ 8 + c.phaseUs % 2 ^ 24 * 2 ^ 8, c.crc, c.pivots % 2 ^ 16] ++ List.replicate 6 0

def svOptimal : Nat := 0
def svTruncated : Nat := 1
def svIterLimit : Nat := 2
def svActiveLimit : Nat := 3
def svBadInput : Nat := 4
def svNotRun : Nat := 5
def svAborted : Nat := 6

/-- The section of a return without stages: NOT_RUN or ABORTED. Its residual and objective are open values. -/
def emptySection (status level time : Nat) (s : State) : List Nat × State :=
  let d := drawFree s
  let e := drawFree d.2
  let a := s.img.slvActive
  let nx := match a with | some m => smNx m.1 s | none => 0
  let nu := match a with | some m => smNu m.1 s | none => 0
  let dt := match a with | some m => smDt m.1 s | none => 0
  let crc := match a with | some m => ddrWord s (m.1 + m.2 - 4) | none => 0
  (ctlWords ⟨status, false, false, false, false, false, 0, nx, nu, level, 0, 0, 0, d.1, e.1, time, dt, 0, 0, crc, 0⟩, e.2)

/-- A point's inputs, and its states when valid, as FP32 (R266). -/
def pointWords (e : SlvEnv) (z : SlvPoint) (statesValid : Bool) : List Nat :=
  (z.us.flatten.map (fun v => toFp32 (of40 e.uf v)))
    ++ (if statesValid then z.xs.flatten.map (fun v => toFp32 (of40 e.xf v)) else [])

/-- SLV_LAST takes the words of a section. -/
def slvLast (ws : List Nat) (s : State) : State :=
  fset (fset (fset (fset s SLV_LAST_WORD0 fWord (nth ws 0 0)) SLV_LAST_WORD2 fWord (nth ws 2 0))
    SLV_LAST_RESIDUAL fWord (nth ws 3 0)) SLV_LAST_TIME fWord (nth ws 5 0)

/-! ## SOLVE start (R250, R256, R257, R262) -/

/-- The shift and the phase of a warm start at a ToV (R256). -/
def warmShift (a : Nat) (st : SlvStored) (tov : Nat) (s : State) : Nat × Nat :=
  let phi := st.phase + (tov - st.tov)
  let dt := smDt a s * 1000
  if dt = 0 then (0, phi) else (phi / dt, phi % dt)

/-- Begin a solve on the active model: the starting point and the assembly (R250). -/
def slvBegin (m : Nat) (seq : Nat) (test : Option Nat) (tov param level : Nat) (s : State) : SlvJob :=
  let l := slvLevel m level s
  let block := getBytes s.dome param (smParamBytes m s)
  let e := slvEnv m block (smN m l s) s
  let coldAsked := s.slv.fresh || fbit s SLV_CTRL SLV_CTRL_COLD_REQ || bitOf 0 (pbWord e 8)
  let warm : Option (SlvStored × Nat × Nat) :=
    match s.slv.stored with
    | none => none
    | some st =>
      let w := warmShift m st tov s
      if coldAsked ∨ st.us.length ≤ w.1 ∨ st.bad then none else some (st, w.1, w.2)
  let start := match warm with
    | some w => warmStart e w.1 w.2.1 s
    | none => (coldStart e s, [])
  let bad := paramBad e (if test.isSome then none else some tov) s
  let sim := simulate e start.1 s
  let z : SlvPoint := ⟨start.1, sim.1⟩
  let rows := classify e z start.2 s
  { seq := seq
    test := test
    tov := tov
    started := upNs s
    model := m
    block := block
    regs := slvRegWords s
    level := level
    horizon := e.n
    cold := warm.isNone
    shift := (match warm with | some w => w.2.1 | none => 0)
    phase := (match warm with | some w => w.2.2 | none => 0)
    start := start.1
    carried := start.2
    badInput := bad
    point := if bad then ⟨start.1, []⟩ else z
    held := if bad then [] else rows.1
    convSat := blocksSat e s
    simSat := sim.2
    rowSat := rows.2
    late := false }

/-- The assembled area of a list's work area is written; its layout is open (R249, R250 step 6). -/
def slvArea (w : WorkList) (m : Nat) (s : State) : State :=
  let d := drawFree s
  domePut d.2 (workAddr w s + up8k (smParamBytes m s)) ((List.range (smAsmBytes m s)).map (fun i => Config.slvArea d.1 i % 256))

/-- A solve starts: its deadline is armed, it is counted, and a cold request is honoured (R257, R262). A deadline already
past is acted on once the starting inputs are formed (R263). -/
def slvLaunch (w : WorkList) (deadline : Nat) (j : SlvJob) (s : State) : State :=
  let s1 := cmpArmAt 1 (deadline % 2 ^ 32) (fset (fset s (BLF_CMP_RELOAD 1) fWord 0) SLV_CTRL SLV_CTRL_COLD_REQ 0)
  let s2 := bump (fon s1 SLV_STATUS SLV_STATUS_BUSY) SLV_SOLVES
  let s3 := if j.cold then bump s2 SLV_COLD_STARTS else s2
  let late := decide (0 ≤ linDiff (lin32 s) (deadline % 2 ^ 32))
  let s4 := if j.badInput || late then s3 else slvArea w j.model s3
  { s4 with slv := { s4.slv with job := some { j with late := late }, fresh := false } }

/-- A control section enters the slice, with how many of its stages the Spire gets (R267). -/
def putControl (seq : Nat) (ws : List Nat) (stages : Nat) (s : State) : State :=
  updSeq seq (fun r => { r with secC := ws, spireStages := stages }) s

/-- Whether the SOLVER units work. -/
def solverUp (s : State) : Bool := unitsUp [flatAssembly, flatFactor, flatDivide] s

/-- SOLVE_START: the oldest slice whose TRACK has ended enters SOLVE (R250). -/
def solveStart (s : State) : State :=
  match stageDue sgSolve (hasEnded sgTrack) s with
  | none => s
  | some r =>
    if !mayGoOn s ∨ !mainRuns s then s
    else
      let s0 := if s.img.slvPending then slvSwap s else s
      let s1 := stageBegin sgSolve r.seq s0
      let level := startLevel sgSolve r s0
      if !solverUp s1 then
        let c := emptySection svAborted level 0 s1
        putControl r.seq c.1 0 (slvLast c.1 c.2)
      else
        let list := sliceList r s1
        let bad := match list, s1.img.slvActive with
          | some w, some m => !workFits w m.1 s1
          | _, _ => false
        match list, s1.img.slvActive with
        | some w, some m =>
          if bad || !fbit s1 SLV_CTRL SLV_CTRL_EN then
            let c := emptySection svNotRun level 0 s1
            putControl r.seq c.1 0 (slvLast c.1 c.2)
          else
            let j := slvBegin m.1 r.seq none r.tov (workAddr w s1) level s1
            slvLaunch w (r.tov + fget s1 SLV_DEADLINE SLV_DEADLINE_US * 1000) j s1
        | _, _ =>
          let c := emptySection svNotRun level 0 s1
          putControl r.seq c.1 0 (slvLast c.1 c.2)

/-! ## Returns (R263, R265) -/

/-- What a solve returns. -/
structure SlvOut where
  status : Nat
  z : SlvPoint
  statesValid : Bool
  held : List HeldRow
  commits : Nat
  pivots : Nat
  rounds : Nat
  residual : Option Nat
  incomplete : Bool
  aborted : Bool
  saturated : Bool
  deriving DecidableEq, Repr

/-- The environment and the registers of a job. -/
def jobEnv (j : SlvJob) (s : State) : SlvEnv := slvEnv j.model j.block j.horizon s
def jobRegs (j : SlvJob) : SlvRegs := slvRegs j.regs

/-- The box rows among the rows carried over: those held once the starting inputs are formed (R250 step 1). -/
def boxHeld (j : SlvJob) (s : State) : List HeldRow :=
  j.carried.filter (fun h => kindAt (jobEnv j s) h.1 h.2.1 s != kSoft)

/-- Whether the assembly has saturated a value. -/
def asmSat (j : SlvJob) : Bool := j.convSat || j.simSat || j.rowSat

/-- Where the sequence stands when its loop begins, with at most 512 rows in the Schur factor (R254). -/
def jobRun (j : SlvJob) (s : State) : SlvRun :=
  let e := jobEnv j s
  let base := baseFactor e (jobRegs j) s
  let held := j.held.take 512
  let f := schurBuild e (jobRegs j) base.1 true [] held s
  ⟨j.point, held, f.1, f.2, 0, base.2 + f.2.length, asmSat j⟩

/-- A return before the iteration, with no factor kept: its point, held rows, pivots and saturation so far. -/
def outEarly (status : Nat) (z : SlvPoint) (statesValid : Bool) (held : List HeldRow) (pivots : Nat) (sat : Bool) : SlvOut :=
  ⟨status, z, statesValid, held, 0, pivots, 0, none, false, false, sat⟩

/-- A BAD_INPUT return: the starting inputs. -/
def outBad (j : SlvJob) (s : State) : SlvOut := outEarly svBadInput ⟨j.start, []⟩ false (boxHeld j s) 0 false

/-- The return of a deadline that passed before the starting inputs were formed (R263). -/
def outForming (j : SlvJob) (s : State) : SlvOut := outEarly svTruncated ⟨j.start, []⟩ false (boxHeld j s) 0 false

/-- The return from a commit, without refinement. -/
def outAt (status : Nat) (aborted : Bool) (r : SlvRun) : SlvOut :=
  ⟨status, r.z, true, r.held, r.commits, r.pivots, 0, none, false, aborted, r.sat⟩

/-- The return of refinement: its rounds, the last residual, and whether that is above tolerance. -/
def outRefined (cut : Bool) (r : SlvRun) (q : SlvRefine) : SlvOut :=
  ⟨svOptimal, q.z, true, r.held, r.commits, r.pivots, q.rounds, q.residual, cut || (!q.done && q.residual.isSome), false, r.sat⟩

/-- The loop of a job to its own end. -/
def jobFinish (j : SlvJob) (s : State) : (SlvEnd × FpVec) × SlvRun :=
  slvFinish (jobEnv j s) (jobRegs j) s ((jobRegs j).maxIter + 1) (jobRun j s)

/-- The return of a sequence that ends by itself (R258). More than 512 rows at the start end it as ACTIVE_LIMIT with the
first 512 held (DESIGN CHOICE, log entry 90). -/
def outNatural (j : SlvJob) (s : State) : SlvOut :=
  if j.badInput then outBad j s
  else if 512 < j.held.length then outAt svActiveLimit false (jobRun j s)
  else
    let f := jobFinish j s
    match f.1.1 with
    | .optimal => outRefined false f.2 (refine (jobEnv j s) (jobRegs j) f.2 f.1.2 (jobRegs j).refineMax s)
    | .iterLimit => outAt svIterLimit false f.2
    | .activeLimit => outAt svActiveLimit false f.2

/-- The return at the deadline within the assembly or the factoring (R263). -/
def outAssembling (part : AsmPart) (j : SlvJob) (s : State) : SlvOut :=
  let none_ : SlvPoint := ⟨j.start, []⟩
  let e := jobEnv j s
  match part with
  | .check => outEarly svTruncated none_ false (boxHeld j s) 0 false
  | .convert sat => outEarly svTruncated none_ false (boxHeld j s) 0 (sat && j.convSat)
  | .simulate sat => outEarly svTruncated none_ false (boxHeld j s) 0 (j.convSat || (sat && j.simSat))
  | .classify => outEarly svTruncated j.point true j.carried 0 (j.convSat || j.simSat)
  | .write => outEarly svTruncated j.point true j.held 0 (asmSat j)
  | .base k =>
    let n := min k e.n
    outEarly svTruncated j.point true j.held (baseFrom e (jobRegs j) s (e.n - n) n).2.2 (asmSat j)
  | .schur a =>
    let base := baseFactor e (jobRegs j) s
    let f := schurBuild e (jobRegs j) base.1 true [] (j.held.take (min a 512)) s
    outEarly svTruncated j.point true j.held (base.2 + f.2.length) (asmSat j)

/-- The return at the deadline, by where the solver is (R263); none where it cannot be there. -/
def outDeadline (place : SlvPlace) (j : SlvJob) (s : State) : Option SlvOut :=
  let e := jobEnv j s
  let g := jobRegs j
  let loops := !j.badInput && !j.late && decide (j.held.length ≤ 512)
  match place with
  | .forming => some (outForming j s)
  | .assembling part => if j.late || (j.badInput && part != .check) then none else some (outAssembling part j s)
  | .iterating n => if loops then (slvCommits e g s n (jobRun j s)).map (outAt svTruncated false) else none
  | .shadow n =>
    if !loops then none
    else match slvCommits e g s n (jobRun j s) with
      | none => none
      | some r => match slvPass e g r s with
        | .inr (_, true) => some (outAt svTruncated true r)
        | _ => none
  | .refining n =>
    if !loops || decide (g.refineMax ≤ n) then none
    else
      let f := jobFinish j s
      match f.1.1 with
      | .optimal =>
        let q := refine e g f.2 f.1.2 n s
        if q.done then none else some (outRefined true f.2 q)
      | _ => none

/-- The bytes of a loaded solver model's image. -/
def modelLen (a : Nat) (s : State) : Nat :=
  match (s.img.slvActive.toList ++ s.img.slvStandby.toList).find? (fun m => m.1 == a) with
  | some m => m.2
  | none => 0

/-- The contents of a stored solution, as numbers. -/
def storedFlat (st : SlvStored) : List Int :=
  ([st.ufrac, st.tov, st.phase, b2n st.bad, st.us.length].map (fun (n : Nat) => (n : Int))) ++ st.us.flatten
    ++ st.held.flatMap (fun h => [(h.1 : Int), h.2.1, h.2.2])

/-- What a solve depends on (R270): model, parameter block, stored solution and registers. -/
def slvKey (j : SlvJob) (s : State) : List Nat :=
  [j.horizon, b2n j.cold, j.shift] ++ j.regs ++ getBytes s.lpddr j.model (modelLen j.model s) ++ j.block
    ++ (match s.slv.stored with | some st => (storedFlat st).map (unsigned 64) | none => [])

/-- The header of a return (R266). Without states there is no objective, an open value; without a computed residual word 3
is one that the same inputs give again (R270; log entry 91). -/
def outHead (j : SlvJob) (o : SlvOut) (s : State) : CtlHead × State :=
  let d := drawFree s
  let crc := ddrWord s (j.model + modelLen j.model s - 4)
  (⟨o.status, decide (o.pivots ≠ 0), o.saturated, o.incomplete, j.cold, o.statesValid, j.horizon, smNx j.model s, smNu j.model s,
    j.level, o.rounds, o.commits, o.held.length, o.residual.getD (Config.slvNoResidual (slvKey j s)),
    if o.statesValid then toFp32 (objective (jobEnv j s) o.z s) else d.1, upNs s - j.started, smDt j.model s, j.shift,
    j.phase / 1000, crc, o.pivots⟩, d.2)

/-- The counters of a return (R272). -/
def outCount (o : SlvOut) (s : State) : State :=
  let c := nth [SLV_OPTIMAL, SLV_TRUNCATED, SLV_ITER_LIMITS, SLV_ACTIVE_LIMITS, SLV_BAD_INPUTS] o.status SLV_OPTIMAL
  let s1 := bumpBy (bump s c) SLV_REGULARISED fWord o.pivots
  let s2 := if o.saturated then bump s1 SLV_SATURATED else s1
  if o.aborted then bump s2 SLV_ABORTED_UPDATES else s2

/-- A SLV_TEST_SOLVE in execution takes its reply: the section's first six words (R274). -/
def testReply (ws : List Nat) (s : State) : State := finishOp 0x0706 ⟨stOk, ws.take 6⟩ s

/-- The stored solution is written, to the Dome too (R256, R271). -/
def slvStore (st : SlvStored) (s : State) : State :=
  domePut { s with slv := { s.slv with stored := some st } } 0x05D00000
    ((List.range 65536).map (fun i => Config.slvStoreByte (storedFlat st) i % 256))

/-- The solver returns: the section, the counters, the stored solution, and the compare disarmed (R256, R265). -/
def slvReturn (j : SlvJob) (o : SlvOut) (s : State) : State :=
  let h := outHead j o s
  let ws := ctlWords h.1 ++ pointWords (jobEnv j s) o.z o.statesValid
  let s1 := slvLast ws (outCount o h.2)
  let s2 := fset (fset s1 (BLF_CMP_CTRL 1) BLF_CMP_CTRL_ARM 0) SLV_STATUS SLV_STATUS_BUSY 0
  let s3 := if o.status = svBadInput then reportFault 28 (flatUnit flatAssembly) s2 else s2
  let s4 := { s3 with slv := { s3.slv with job := none } }
  match j.test with
  | some a => testReply ws (domePutWords s4 a ws)
  | none =>
    putControl j.seq ws (jobRegs j).stages
      (slvStore ⟨o.z.us, smUfrac j.model s, o.held, j.tov, j.phase, o.status == svBadInput⟩ s4)

/-- SOLVE ends: its section is written, the kick sent, and the checkpoint made (R19, R308, R338). -/
def solveEnd (r : SliceRec) (s : State) : State :=
  checkpoint r.seq (stageEnd sgSolve r.seq (putSection r.seq offControl r.secC s))

/-- Whether a slice's SOLVE has a section to end with. -/
def solveReady (s : State) : Option SliceRec :=
  match stageEnding sgSolve s with
  | some r => if r.secC = [] then none else some r
  | none => none

/-- What a solve in progress returns by itself now: nothing once the deadline has passed, for then it returns at the
deadline; at once where it had passed at the start (R263, R264). -/
def outNow (j : SlvJob) (s : State) : Option SlvOut :=
  if j.late then some (outForming j s) else if cmpReached 1 s then none else some (outNatural j s)

/-- SOLVE_RETURN: the solve in progress ends by itself; a SOLVE stage with its section ends (R265). -/
def solveReturn (s : State) : State :=
  let s1 := match s.slv.job with
    | some j => match outNow j s with
      | some o => slvReturn j o s
      | none => s
    | none => s
  match solveReady s1 with
  | some r => solveEnd r s1
  | none => s1

/-- SOLVE_DEADLINE: CMP1 fires and the solver returns from where it is (R263, R264). -/
def solveDeadline (place : SlvPlace) (s : State) : State :=
  match s.slv.job with
  | none => s
  | some j =>
    match outDeadline place j s with
    | none => s
    | some o =>
      let s1 := slvReturn j o (cmpRunAndFire 1 s)
      match solveReady s1 with
      | some r => solveEnd r s1
      | none => s1

/-- A reset of SOLVER interrupts the solve (R271): a SOLVE stage returns ABORTED; a test solve returns so too. -/
def slvAbort (s : State) : State :=
  match s.slv.job with
  | none => s
  | some j =>
    let c := emptySection svAborted j.level (upNs s - j.started) s
    let s1 := fset (fset (slvLast c.1 c.2) (BLF_CMP_CTRL 1) BLF_CMP_CTRL_ARM 0) SLV_STATUS SLV_STATUS_BUSY 0
    let s2 := { s1 with slv := { s1.slv with job := none } }
    match j.test with
    | some a => testReply c.1 (domePutWords s2 a c.1)
    | none => putControl j.seq c.1 0 s2

/-! ## Model images (R273) -/

/-- A positive FP32 value; a NaN is none. -/
def fp32Pos (w : Nat) : Bool :=
  match fpDecode fp32 w with
  | .num r => decide (0 < r)
  | .inf neg => !neg
  | .nan => false

/-- A non-negative FP32 value. -/
def fp32NonNeg (w : Nat) : Bool :=
  match fpDecode fp32 w with
  | .num r => decide (0 ≤ r)
  | .inf neg => !neg
  | .nan => false

/-- Whether present horizons do not increase with level. -/
def horizonsFall (a : Nat) (s : State) : Bool :=
  let ns := ((List.range 4).map (fun l => smN a l s)).filter (fun n => n != 0)
  (ns.zip (ns.drop 1)).all (fun p => decide (p.2 ≤ p.1))

/-- The end of a block within its image or parameter block. -/
def blockEnd (a id w off : Nat) (s : State) : Nat :=
  let stages := if bkVarying w ∧ !decide (11 ≤ id ∧ id ≤ 14) then smMaxN a s else 1
  off + 4 * stages * bkSize id (smNx a s) (smNu a s) (smM a s)

/-- The failing content checks of a solver model image. -/
def slvReasons (a len : Nat) (s : State) : List Nat :=
  if len < 68 then [1]
  else
    let nx := smNx a s
    let nu := smNu a s
    let m := smM a s
    let ns := (List.range 4).map (fun l => smN a l s)
    let have_ (id : Nat) : Bool := (bkFind a id s).isSome
    let rowsIn := decide (m = 0 ∨ smWord a 8 s + 16 * m ≤ len)
    let descIn := decide (smWord a 6 s + 16 * smWord a 7 s ≤ len)
    rsnIf 1 (smWord a 0 s != 0x4D504331 || smWord a 1 s % 65536 != 1)
      ++ rsnIf 2 (decide (nx < 1 ∨ 32 < nx ∨ nu < 1 ∨ 16 < nu ∨ 96 < m ∨ smDt a s < 100 ∨ 10 ^ 7 < smDt a s)
          || nth ns 0 0 == 0 || ns.any (fun n => decide (n = 1 ∨ 128 < n)) || !horizonsFall a s)
      ++ rsnIf 3 (decide (38 < smXfrac a s ∨ 38 < smUfrac a s)
          || (descIn && (smBlocks a s).any (fun b => decide (natField 13 8 b.1 < 1 ∨ 32 < natField 13 8 b.1))))
      ++ rsnIf 4 (!descIn || (descIn && (!([0, 1, 3, 5, 11].all have_) || (decide (0 < m) && !have_ 10)
          || (smUnom a s && !have_ 15)
          || (smBlocks a s).any (fun b =>
            decide ((if bkParam b.1 then smParamBytes a s else len) < blockEnd a (b.1 % 16) b.1 b.2 s)))))
      ++ rsnIf 5 (!rowsIn || (rowsIn && (List.range m).any (fun i =>
          let k := rowKind a i s
          k == 3 || (k != kSoft && decide (nu ≤ rowInput a i s))
            || (k == kSoft && (!fp32Pos (rowSigma a i s) || !fp32NonNeg (rowRho a i s))))))

/-- Every solver opcode is FENCED while SOLVER is. -/
def slvCmd (f : State → CmdOut) (s : State) : CmdOut :=
  if partFenced partSolver s then fail stFenced s else f s

/-- SLV_MODEL_LOAD (R273, R473). -/
def cmdSlvModelLoad (ps : List Nat) (s : State) : CmdOut :=
  if partFenced partSolver s then loadFail stFenced 0 s
  else if ps.length ≠ 4 then loadFail stParam 0 s
  else
    let a := nth ps 0 0 + 2 ^ 32 * nth ps 1 0
    let n := nth ps 2 0
    match lowest (rsnIf 1 (decide (n = 0 ∨ 2 ^ 24 < n)) ++ rsnIf 6 (placeBad a n s)) with
    | some r => loadFail stParam r s
    | none =>
      if s.img.slvStandby.isSome then loadFail stNoResource 0 s
      else if n < 4 ∨ crc32c (getBytes s.lpddr a (n - 4)) ≠ nth ps 3 0
          ∨ ofBytes (getBytes s.lpddr (a + n - 4) 4) ≠ nth ps 3 0 then loadFail stCrc 0 s
      else match lowest (slvReasons a n s) with
        | some r => loadFail stParam r s
        | none =>
          ok ([0] ++ (List.range 4).map (fun i => smWord a (2 + i) s))
            (slvShow { s with img := { s.img with slvStandby := some (a, n) } })

/-- The low linear count of the first ToV that will be solved from now on. -/
def nextSolveTov (s : State) : Nat :=
  match s.slices.find? (fun r => !hasBegun sgSolve r) with
  | some r => r.tov % 2 ^ 32
  | none => nextAlignTov s

/-- SLV_MODEL_ACTIVATE (R274). -/
def cmdSlvModelActivate (ps : List Nat) (s : State) : CmdOut :=
  slvCmd (withParams 0 ps (fun s =>
    if s.img.slvPending then fail stBusy s
    else if s.img.slvStandby.isNone then fail stNoResource s
    else if running s then ok [nextSolveTov s] (slvShow { s with img := { s.img with slvPending := true } })
    else ok [0] (slvSwap s))) s

/-- SLV_MODEL_DISCARD: a pending activation of the standby ends with it. -/
def cmdSlvModelDiscard (ps : List Nat) (s : State) : CmdOut :=
  slvCmd (withParams 0 ps (fun s =>
    if s.img.slvStandby.isNone then fail stNoResource s
    else ok [] (slvShow { s with img := { s.img with slvStandby := none, slvPending := false } }))) s

/-! ## Register values (R255, R272) -/

/-- Whether a value lies outside the range of SLV_DEADLINE or SLV_LIMITS. -/
def slvDeadlineBad (v : Word) : Bool := decide (getBits SLV_DEADLINE_US v < 100 ∨ 735 < getBits SLV_DEADLINE_US v)
def slvLimitsBad (v : Word) : Bool :=
  getBits SLV_LIMITS_MAX_ITER v == 0
    || decide (getBits SLV_LIMITS_SPIRE_STAGES v < 1 ∨ 8 < getBits SLV_LIMITS_SPIRE_STAGES v)

/-- Whether FP32 patterns are positive with the first below the second. -/
def fp32Below (a b : Nat) : Bool :=
  fp32Pos a && fp32Pos b && (match fpDecode fp32 a, fpDecode fp32 b with
    | .num x, .num y => decide (x < y)
    | .num _, .inf _ => true
    | _, _ => false)

/-- Whether a write of a word to an SLV register is refused, by its address. -/
def slvBad (a : Nat) (v : Word) (s : State) : Bool :=
  if a = SLV_DEADLINE then slvDeadlineBad v
  else if a = SLV_LIMITS then slvLimitsBad v
  else if a = SLV_PIVOT_TAU then !fp32Below v.toNat (fget s SLV_REG_DELTA fWord)
  else if a = SLV_REG_DELTA then !fp32Below (fget s SLV_PIVOT_TAU fWord) v.toNat
  else if a = SLV_STEP_TOL ∨ a = SLV_MULT_TOL ∨ a = SLV_REFINE_TOL then !fp32Pos v.toNat
  else if a = SLV_WORK then running s
  else false

/-- SLV_STATUS.CFG_REJECT. -/
def slvReject (s : State) : State := fon s SLV_STATUS SLV_STATUS_CFG_REJECT

/-- A write of a word to an SLV register (R272); a 1 in COLD_REQ requests a cold start. -/
def slvWrite (a : Nat) (v : Word) (s : State) : State :=
  if slvBad a v s then slvReject s
  else
    let s1 := storeRw a v s
    if a = SLV_CTRL ∧ getBits SLV_CTRL_COLD_REQ v = 1 then fon s1 SLV_CTRL SLV_CTRL_COLD_REQ else s1

/-- SLV_CONFIG: nine register images. τ and δ are checked as a pair. -/
def cmdSlvConfig (ps : List Nat) (s : State) : CmdOut :=
  slvCmd (withParams 9 ps (fun s =>
    let w (i : Nat) : Word := BitVec.ofNat 32 (nth ps i 0)
    let as := [SLV_CTRL, SLV_DEADLINE, SLV_LIMITS, SLV_PIVOT_TAU, SLV_REG_DELTA, SLV_STEP_TOL, SLV_MULT_TOL, SLV_REFINE_TOL, SLV_WORK]
    let reserved := as.zipIdx.any (fun e => if e.2 = 0 then decide (3 < nth ps 0 0) else reservedSet e.1 (nth ps e.2 0))
    if reserved || slvDeadlineBad (w 1) || slvLimitsBad (w 2) || !fp32Below (nth ps 3 0) (nth ps 4 0)
        || !fp32Pos (nth ps 5 0) || !fp32Pos (nth ps 6 0) || !fp32Pos (nth ps 7 0) then fail stParam s
    else if running s ∧ nth ps 8 0 ≠ fget s SLV_WORK fWord then fail stBusy s
    else
      let s1 := as.zipIdx.foldl (fun t e => storeRw e.1 (w e.2) t) s
      ok [] (if bitOf 1 (nth ps 0 0) then fon s1 SLV_CTRL SLV_CTRL_COLD_REQ else s1))) s

/-- SLV_STATUS as it reads: WORK_BAD follows the active list and model (R249). -/
def slvStatusWord (s : State) : Nat := (setBits SLV_STATUS_WORK_BAD (rd s SLV_STATUS) (b2n (workBad s))).toNat

/-- SLV_STATUS. -/
def cmdSlvStatus (ps : List Nat) (s : State) : CmdOut :=
  slvCmd (withParams 0 ps (fun s =>
    let c := takeCounts [SLV_SOLVES, SLV_OPTIMAL, SLV_TRUNCATED, SLV_ITER_LIMITS, SLV_ACTIVE_LIMITS, SLV_BAD_INPUTS,
      SLV_REGULARISED, SLV_SATURATED, SLV_ABORTED_UPDATES, SLV_COLD_STARTS] s
    ok ([slvStatusWord s, fget s SLV_LAST_WORD0 fWord, fget s SLV_LAST_WORD2 fWord, fget s SLV_LAST_RESIDUAL fWord,
      fget s SLV_LAST_TIME fWord] ++ c.1) c.2)) s

/-- SLV_TEST_SOLVE (R274): a solve outside RUNNING; its reply comes with its return. -/
def cmdSlvTestSolve (ps : List Nat) (s : State) : CmdOut :=
  slvCmd (withParams 2 ps (fun s =>
    let p := nth ps 0 0
    let o := nth ps 1 0
    let inside (a : Nat) : Bool := match s.img.active with
      | some w => decide (w.base ≤ a ∧ a < w.base + wlDomeBytes w s)
      | none => false
    if !inside p ∨ !inside o then fail stParam s
    else if running s ∨ s.slv.job.isSome then fail stBusy s
    else match s.img.slvActive, s.img.active with
      | some m, some w =>
        if !fbit s SLV_CTRL SLV_CTRL_EN || workBad s then
          let c := emptySection svNotRun (govLevel s) 0 s
          ok (c.1.take 6) (slvLast c.1 (domePutWords c.2 o c.1))
        else
          let j := slvBegin m.1 0 (some o) (lin s) p (govLevel s) s
          later (slvLaunch w (lin s + fget s SLV_DEADLINE SLV_DEADLINE_US * 1000) j s)
      | _, _ => fail stNoResource s)) s

def execSolveStart (s : State) : Host.Outcome State Fault Refusal := onMain solveStart s
def execSolveDeadline (place : SlvPlace) (s : State) : Host.Outcome State Fault Refusal := onMain (solveDeadline place) s
def execSolveReturn (s : State) : Host.Outcome State Fault Refusal := onMain solveReturn s
def execSlvModelLoad (h : CmdHead) (ps : List Word) (s : State) : Host.Outcome State Fault Refusal := onCmd h 0x0701 cmdSlvModelLoad ps s
def execSlvModelActivate (h : CmdHead) (ps : List Word) (s : State) : Host.Outcome State Fault Refusal := onCmd h 0x0702 cmdSlvModelActivate ps s
def execSlvModelDiscard (h : CmdHead) (ps : List Word) (s : State) : Host.Outcome State Fault Refusal := onCmd h 0x0703 cmdSlvModelDiscard ps s
def execSlvConfig (h : CmdHead) (ps : List Word) (s : State) : Host.Outcome State Fault Refusal := onCmd h 0x0704 cmdSlvConfig ps s
def execSlvStatus (h : CmdHead) (ps : List Word) (s : State) : Host.Outcome State Fault Refusal := onCmd h 0x0705 cmdSlvStatus ps s
def execSlvTestSolve (h : CmdHead) (ps : List Word) (s : State) : Host.Outcome State Fault Refusal := onCmd h 0x0706 cmdSlvTestSolve ps s

end Sys2Proof.Machine
end

