-- ==== Sys2Proof/Machine/Slices.lean ====
section
/-! DEFINITION. The slice sequencer and the publisher: boundaries, closes, the stages of a slice, golden runs,
publication, verdicts and the mirror (R15 to R23, R45, R301 to R312, R342, R343). -/
namespace Sys2Proof.Machine

/-! ## The mirror's queue (R311) -/

/-- Change the mirror. -/
def updMirror (f : MirrorState → MirrorState) (s : State) : State := { s with mirror := f s.mirror }

/-- One record is skipped. -/
def mirrorSkip (s : State) : State := updMirror (fun m => { m with skipped := m.skipped + 1 }) (bump s CMD_MIRROR_SKIP)

/-- The slot of a sequence number is about to be reused: copies from it are abandoned. -/
def mirrorReuse (seq : Nat) (s : State) : State :=
  let n := fget s CMD_RES_SLOTS CMD_RES_SLOTS_SLOTS
  let gone (q : Nat) : Bool := q % n == seq % n
  let lost := s.mirror.queue.filter gone ++ s.mirror.copying.toList.filter gone
  (List.range lost.length).foldl (fun s _ => mirrorSkip s) (updMirror (fun m => { m with
    queue := m.queue.filter (fun q => !gone q), copying := m.copying.filter (fun q => !gone q) }) s)

/-- A completed record joins the queue of 4, or is skipped. -/
def mirrorJoin (seq : Nat) (s : State) : State :=
  if !fbit s CMD_RES_CTRL CMD_RES_CTRL_MIRROR_EN then s
  else if 4 ≤ s.mirror.queue.length then mirrorSkip s
  else updMirror (fun m => { m with queue := m.queue ++ [seq] }) s

/-! ## Golden runs (R342, R343) -/

/-- GOLD_PHASE of the validated configuration. -/
def goldPhase (s : State) : Nat := nth s.spr.config 20 0 % 128

/-- The Spire shows the sequencer's golden state. -/
def showGold (s : State) : State :=
  let a := SPR_GOLD
  fset (fput (fput (fset s a SPR_GOLD_ROTATION s.goldRotation) a SPR_GOLD_PENDING (s.goldPending || decide (0 < s.goldForced)))
    a SPR_GOLD_RECHECK (s.goldRecheck && decide (0 < s.goldForced))) SPR_STATE SPR_STATE_DEFERRALS s.goldDeferrals

/-- A due slice makes a run pending, while a golden image is held. -/
def goldDue (tov : Nat) (s : State) : State :=
  if fbit s SPR_GOLD SPR_GOLD_LOADED ∧ tov % 10 ^ 8 = goldPhase s * 10 ^ 6 then showGold { s with goldPending := true } else s

/-- The run takes place in the slice's FUSE. -/
def goldRun (seq : Nat) (clear : Bool) (s : State) : State :=
  showGold { updSeq seq (fun r => { r with golden := true, goldClear := clear }) s with goldDeferrals := 0 }

/-- The forced branch: FUSE to PUBLISH run at the next level where its variant is present. -/
def goldForce (r : SliceRec) (s : State) : State :=
  let l := govLevel s
  let s1 := goldRun r.seq s.goldClear (fset s SPR_GOLD_CNT SPR_GOLD_CNT_FORCED (fget s SPR_GOLD_CNT SPR_GOLD_CNT_FORCED + 1) |>
    fun s => { s with goldClear := false })
  if l < 3 ∧ (levelsOf r s).contains (l + 1) then
    bump (updSeq r.seq (fun q => { q with boost := l + 1 }) s1) SLC_GOV_RAISES
  else s1

/-- Whether the level has been raised in the slice, or is at its maximum with too little slack. -/
def goldBurst (r : SliceRec) (s : State) : Bool :=
  r.raised || (govLevel s == fget s SLC_GOV_CTRL SLC_GOV_CTRL_MAX_LEVEL && govRate s != 0
    && decide (slackAt r (govLevel s) s < ((fget s SLC_GOV_MARGIN SLC_GOV_MARGIN_MARGIN * 1000 : Nat) : Rat)))

/-- The decision at the end of CAMERA. -/
def goldDecide (seq : Nat) (s : State) : State :=
  match sliceOf seq s with
  | none => s
  | some r =>
    if 0 < s.goldForced then goldForce r { s with goldForced := s.goldForced - 1 }
    else if !s.goldPending then s
    else if !goldBurst r s then goldRun seq false { s with goldPending := false }
    else if s.goldDeferrals < 3 then
      showGold { fset s SPR_GOLD_CNT SPR_GOLD_CNT_DEFERRED (fget s SPR_GOLD_CNT SPR_GOLD_CNT_DEFERRED + 1) with
        goldDeferrals := s.goldDeferrals + 1 }
    else goldForce r { s with goldPending := false }

/-- The check values of a golden run leave for the Spire at the end of FUSE, and the next rotation is next (R344). -/
def goldSend (r : SliceRec) (values : List Nat) (s : State) : State :=
  if r.golden then
    let s1 := sendUp (.gold r.seq s.goldRotation r.goldClear (values.take 256)) s
    showGold { s1 with goldRotation := if s.goldRecheck then s.goldRotation else (s.goldRotation + 1) % 8 }
  else s

/-! ## Boundaries (R45, R125, R301 to R303) -/

/-- CMP0 and CMP2 follow the slice length. -/
def reloadLen (len : Nat) (s : State) : State := fset (fset s (BLF_CMP_RELOAD 0) fWord len) (BLF_CMP_RELOAD 2) fWord len

/-- The slice mode becomes half or full. -/
def setHalf (half : Bool) (s : State) : State :=
  let s1 := fput (fput (fput s DEV_RUN DEV_RUN_HALF half) DEV_RUN DEV_RUN_HALF_PENDING false) SLC_STATUS SLC_STATUS_HALF half
  reloadLen (sliceLen s1) s1

/-- A pending change of the slice mode acts at a boundary that is a multiple of 1 ms. -/
def modeAt (b : Nat) (s : State) : State :=
  if fbit s DEV_RUN DEV_RUN_HALF_PENDING ∧ b % 1000000 = 0 then
    let s1 := setHalf s.halfNext s
    fset s1 (BLF_CMP_VAL 0) fWord (b + sliceLen s1)
  else s

/-- The slice that ends at a boundary takes its HOLDOVER note; the next one's begins (R71). -/
def holdAt (b : Nat) (s : State) : State :=
  let s1 := { s with slices := s.slices.map (fun (r : SliceRec) => if r.tov = b then { r with holdover := s.holdSeen } else r) }
  noteHold { s1 with holdSeen := false }

/-- A slice starts at a boundary: accepted calibration steps apply from it, unless FUSION is held in reset (R170, R173). -/
def openSlice (b : Nat) (s0 : State) : State :=
  let held := (partFlats partFusion).all (fun f => unitHeld f s0)
  let s := latchOffsets (if held then s0 else calApply s0)
  { s with slices := s.slices ++ [freshSlice s.nextSeq b (b + sliceLen s) s], nextSeq := s.nextSeq + 1 }

/-- Every channel's silence is counted from now (R112). -/
def quietFromNow (s : State) : State := { s with aln := s.aln.map (fun c => { c with quietFrom := upNs s }) }

/-- An armed run begins at the first boundary at least 100 µs after its START; the START is answered (R301). The silence
of the channels is counted from that boundary (R112). -/
def runBegin (b : Nat) (s : State) : State :=
  if runState s = stArmed ∧ s.runStart ≤ b then
    finishOp 0x0601 ⟨stOk, [(b + sliceLen s) % 2 ^ 32]⟩ (quietFromNow (setRunState stRunning s))
  else s

/-- The tick and the new slice of a boundary. The tick names the slice that starts (DEDUCED, log entry 49). -/
def boundarySlice (b : Nat) (s : State) : State :=
  if runState s = stRunning then openSlice b (sendUp (.tick (b % 2 ^ 32) (some s.nextSeq)) s)
  else
    let s1 := sendUp (.tick (b % 2 ^ 32) none) s
    if runState s = stStopping then { s1 with nextSeq := s1.nextSeq + 1 } else s1

/-- The write budgets of the vector cores restart (R189). -/
def restartBudgets (s : State) : State := forUpTo 136 (fun p s => fset s (VEC_WRB p) VEC_WRB_USED 0) s

/-! ## ALIGN (R19, R205, R308, R371) -/

/-- Whether a fence on FUSION or PUBLISH, or on one of their units, ends the slices whose ALIGN starts (R372). -/
def alignFenced (s : State) : Bool := !unitsUp (partFlats partFusion ++ [flatPublisher]) s

/-- The level with which a slice's ALIGN starts: a pending lowering applies, and the effective maximum bounds it. -/
def alignLevel (r : SliceRec) (s : State) : State :=
  let l := if s.govLower then levelDown r (govLevel s) s else govLevel s
  fset { s with govLower := false } SLC_GOV_LEVEL SLC_GOV_LEVEL_LEVEL (min l (effMax r s))

/-- ALIGN starts on the oldest slice whose ToV has come: waiting fences lift, the list switches, the slot is cleared, and
the governor evaluates its ledger. Under STOP with ABANDON the slice stops here (R302). -/
def alignStart (s0 : State) : State :=
  match stageDue sgAlign (fun r => decide (r.tov ≤ lin s0)) s0 with
  | none => s0
  | some r => if !mayGoOn s0 then stopDone (abandonSlice r s0) else
    let s := releaseOld (alignSwitch (liftFences s0))
    let a := slotAddr r.seq s
    let s1 := ddrPutWords (ddrPutWords (mirrorReuse r.seq s) a [0]) (a + 124) [0]
    if alignFenced s1 then stopDone (abandonSlice r s1)
    else
      let s2 := goldDue r.tov (updSeq r.seq (fun q => { q with list := s1.img.active }) s1)
      let r2 := (sliceOf r.seq s2).getD r
      stageBegin sgAlign r.seq (checkpoint r.seq (alignLevel r2 s2))

/-- SLICE_BOUNDARY: CMP0 fires (R45). -/
def sliceBoundary (s : State) : State :=
  if !fbit s (BLF_CMP_CTRL 0) BLF_CMP_CTRL_ARM then s
  else
    let b := dueLin (fget s (BLF_CMP_VAL 0) fWord) s
    let s1 := holdAt b (forUpTo 16 (trigBoundary b) (modeAt b (cmpRunAndFire 0 s)))
    alignStart (boundarySlice b (runBegin b (restartBudgets s1)))

/-- SLICE_CLOSE: CMP2 fires; the slice whose ToV has passed closes, and INGEST kicks (R106, R338). -/
def sliceClose (s : State) : State :=
  if !fbit s (BLF_CMP_CTRL 2) BLF_CMP_CTRL_ARM then s
  else
    let s1 := cmpRunAndFire 2 s
    match s1.slices.find? (fun r => !r.closed) with
    | some r => if r.tov ≤ lin s1 then sendUp (.kick sgIngest r.seq) (closeSlice s1) else s1
    | none => s1

/-! ## Stages -/

/-- A stage starts on the oldest slice that is ready for it, while slices may go on and its units are up. -/
def stageStart (st : Nat) (units : List Nat) (ready : SliceRec → Bool) (f : SliceRec → Nat → State → State) (s : State) :
    State :=
  match stageDue st ready s with
  | none => s
  | some r =>
    if !mayGoOn s || !unitsUp units s then s
    else f r (startLevel st r s) (stageBegin st r.seq s)

/-- The end of a stage: its kick, and the governor's checkpoint (R19, R338). -/
def stageDone (st seq : Nat) (s : State) : State := checkpoint seq (stageEnd st seq s)

/-- ALIGN ends after the close: points are de-skewed and the ego record is written; the next ALIGN may start. -/
def alignEnd (s : State) : State :=
  match stageEnding sgAlign s with
  | none => s
  | some r =>
    if !r.closed || !unitsUp [flatAligner, flatEgo, flatDeskew] s then s
    else
      let q := alignWork r s
      alignStart (stageDone sgAlign r.seq (putSection r.seq offEgo q.ego (updSeq r.seq (fun _ => q) s)))

/-- VOXEL_START. -/
def voxelBegin (s : State) : State :=
  if fbit s VHE_STATUS VHE_STATUS_CLEARING then s
  else stageStart sgVoxel [flatVhe] (hasEnded sgAlign) (fun r _ s => voxelStart r s) s

/-- POINT_INSERT: a lane of the VHE inserts the next point of the slice in VOXEL. -/
def insertNext (lane : Nat) (s : State) : State :=
  match s.slices.find? (stageOn sgVoxel) with
  | some r => if unitsUp [flatVhe] s then pointInsert lane (nth r.levels sgVoxel 0) s else s
  | none => s

/-- VOXEL_END, once every point has been inserted. -/
def voxelFinish (s : State) : State :=
  match stageEnding sgVoxel s with
  | none => s
  | some r =>
    if s.vhe.todo ≠ [] || !unitsUp [flatVhe] s then s
    else
      let e := voxelEnd r (nth r.levels sgVoxel 0) s
      stageDone sgVoxel r.seq (putSection r.seq offLevelP e.1.1
        (updSeq r.seq (fun q => { q with secP := e.1.1, tileCoarse := e.1.2 }) e.2))

/-- VHE_CLEAR_DONE. -/
def vheCleared (s : State) : State := if unitHeld flatVhe s then s else vheClearDone s

/-- CAMERA_START: the camera phase runs from ToV on, over the strips that are complete now (R161). -/
def cameraStart (s : State) : State :=
  stageStart sgCamera [flatCamera, flatProjection] (hasBegun sgAlign) (fun r _ s =>
    let xs := dueStrips (match sliceList r s with | some w => wlStrip w s | none => 0) s
    stripsAdvance r.seq xs.length (updSeq r.seq (fun q => { q with strips := xs }) (holdBuffers r s))) s

/-- CAMERA_END: once the slice is closed and aligned, every frame that joined it is lifted, the buffers are released,
and a pending golden run is decided (R160, R164, R343). -/
def cameraEnd (s : State) : State :=
  match stageEnding sgCamera s with
  | none => s
  | some r =>
    if !hasEnded sgAlign r || !unitsUp [flatCamera, flatProjection] s then s
    else
      let s1 := r.frames.foldl (liftFrame r (nth r.levels sgCamera 0)) s
      goldDecide r.seq (stageDone sgCamera r.seq (releaseBuffers r.seq (holdBuffers r s1)))

/-- FUSE_START. -/
def fuseBegin (s : State) : State :=
  stageStart sgFuse [flatProjection] (fun r => hasEnded sgVoxel r && hasEnded sgCamera r) (fun r g s =>
    let f := fuseStart r g s
    updSeq r.seq (fun q => { q with secF := f.2, fRebuilt := s.grid.rebuilt }) f.1) s

/-- FUSE_END, with the check values of its golden items if it ran any (R344). -/
def fuseFinish (values : List Nat) (s : State) : State :=
  match stageEnding sgFuse s with
  | none => s
  | some r =>
    if !unitsUp [flatProjection] s then s
    else stageDone sgFuse r.seq (goldSend r values (putSection r.seq offLevelF r.secF (fuseEnd r.secF s)))

/-- TRACK_START. -/
def trackStart (s : State) : State := stageStart sgTrack [flatAttention] (hasEnded sgFuse) (fun r _ s => trackBegin r s) s

/-- TRACK_END: level O is written (R238). -/
def trackEnd (s : State) : State :=
  match stageEnding sgTrack s with
  | none => s
  | some r =>
    if !unitsUp [flatAttention] s then s
    else
      let s1 := trackFinish r s
      let q := (sliceOf r.seq s1).getD r
      if q.committed then stageDone sgTrack r.seq (putSection r.seq offLevelO q.secO s1) else s1

/-! ## Publication (R20 to R22, R306 to R308) -/

/-- The highest governor level used by any stage. -/
def levelMax (r : SliceRec) : Nat := (r.levels.drop 1).foldl max 0

/-- Whether the handshake work ended after the deadline (R22). -/
def govMissed (r : SliceRec) (s : State) : Bool :=
  decide (lin s > r.tov + fget s SLC_GOV_DEADLINE SLC_GOV_DEADLINE_DEADLINE * 1000)

/-- The flags word (R307). -/
def recordFlags (r : SliceRec) (miss : Bool) : Nat :=
  let f := nth r.secF 0 0 / 4 % 4
  let c := nth r.secC 0 0
  let st := c % 16
  b2n r.holdover + b2n (decide (0 < levelMax r) || r.tileCoarse || decide (0 < f)) * 2 + b2n (bitOf 8 c) * 4
    + b2n (decide (svTruncated ≤ st ∧ st ≤ svBadInput)) * 8 + b2n r.unsync * 16 + b2n r.half * 32 + b2n r.poisoned * 64 + b2n miss * 128 + levelMax r * 256

/-- The sections of a record: offset and words. -/
def recordParts (r : SliceRec) : List (Nat × List Nat) :=
  [(offEgo, r.ego), (offControl, r.secC), (offLevelO, r.secO), (offLevelF, r.secF), (offLevelP, r.secP)]

/-- CONVERGED of channels 0 to 23. -/
def convergedMask (s : State) : Nat :=
  ((List.range 24).filter (fun n => fbit s (CAM_EXT_CAL n) CAM_EXT_CAL_CONVERGED)).foldl (fun a n => a + 2 ^ n) 0

/-- The record header, with VERDICT and HDR_CRC as 0 (R306). -/
def recordHeader (r : SliceRec) (miss : Bool) (s : State) : List Nat :=
  let parts := recordParts r
  let cal := match r.calOut with | some (n, l) => n % 32 + l % 8 * 32 + 256 | none => 0
  [0x46525231, 1 + 256 * 2 ^ 16, r.seq % 2 ^ 32, r.seq / 2 ^ 32] ++ t96Words (r.tov * 2 ^ 16)
    ++ [r.oldestAge, r.lateAdmitted % 2 ^ 32, r.lateDropped % 2 ^ 32, recordFlags r miss, 0, convergedMask s, cal,
        256 + (parts.map (fun p => 4 * p.2.length)).sum]
    ++ parts.flatMap (fun p => [p.1, 4 * p.2.length])
    ++ [lin32 s, govRate s, 0, 0, 0, 0] ++ r.chans.map statusWord

/-- The publish CRC: words 12 and 31 are taken as 0 (R308). -/
def publishCrc (h : List Nat) : Nat := crc32c (bytesOfWords (setNth (setNth h 12 0) 31 0))

/-- HDR_CRC: word 31 is taken as 0 (R306). -/
def headerCrc (h : List Nat) : Nat := crc32c (bytesOfWords (setNth h 31 0))

/-- The header copy that PUBLISH sends (R324). -/
def headerCopy (r : SliceRec) (h : List Nat) : UpMsg :=
  let c := r.secC
  let nu := nth c 1 0 / 2 ^ 16 % 32
  let stages := min r.spireStages (nth c 1 0 % 256)
  .header (setNth h 31 (publishCrc h)) r.ego [nth c 0 0, nth c 1 0, nth c 2 0, nth c 6 0]
    ((c.drop 16).take (stages * nu))

/-- The governor's update at a publication (R20, R22). CALM stays at 255, the largest value its field holds (DESIGN CHOICE,
log entry 87). -/
def govPublish (r : SliceRec) (miss : Bool) (s : State) : State :=
  let a := SLC_GOV_LEVEL
  let s1 := fset s a SLC_GOV_LEVEL_LAST_MAX (levelMax r)
  let s2 := if miss then reportFault 30 0 (bump s1 SLC_GOV_MISSES) else s1
  match r.minSlack with
  | none => s2
  | some m =>
    let s3 := fset s2 SLC_GOV_SLACK fWord (unsigned 32 (clampInt (-(2 ^ 31 : Int)) (2 ^ 31 - 1) (rneInt m)))
    let relax : Rat := ((fget s SLC_GOV_MARGIN SLC_GOV_MARGIN_RELAX * 1000 : Nat) : Rat)
    let calm := if relax ≤ m then clampNat 255 (fget s3 a SLC_GOV_LEVEL_CALM + 1) else 0
    if fget s3 SLC_GOV_RELAX_CNT SLC_GOV_RELAX_CNT_COUNT ≤ calm ∧ 0 < govLevel s3 then
      { fset s3 a SLC_GOV_LEVEL_CALM 0 with govLower := true }
    else fset s3 a SLC_GOV_LEVEL_CALM calm

/-- PUBLISH writes every header word but VERDICT and HDR_CRC, MAGIC last, and sends the copy (R308). -/
def publish (r : SliceRec) (s : State) : State :=
  let miss := govMissed r s
  let h := recordHeader r miss s
  let a := slotAddr r.seq s
  let s1 := ddrPutWords (ddrPutWords (ddrPutWords (ddrPutWords s (a + 4) ((h.drop 1).take 11)) (a + 52) ((h.drop 13).take 18))
    (a + 128) (h.drop 32)) a (h.take 1)
  let s2 := govPublish r miss (updSeq r.seq (fun q => { q with hdr := h }) s1)
  stopHere (calSend r.seq (sendUp (headerCopy r h) (stageMark sgPublish r.seq s2)))

/-- PUBLICATION: PUBLISH begins on the oldest slice whose SOLVE has ended, and ends once its items are done. -/
def publication (s : State) : State :=
  let s1 := stageStart sgPublish [flatPublisher] (hasEnded sgSolve) (fun _ _ s => s) s
  match stageEnding sgPublish s1 with
  | some r => if unitsUp [flatPublisher] s1 then releaseOld (publish r s1) else s1
  | none => s1

/-! ## Verdicts (R308, R309) -/

/-- A record is complete: VERDICT, then HDR_CRC; LAST_SEQ, vector 4, and the mirror (R308, R311); the consumer holds its
sections (R150, R167). -/
def completeRecord (r : SliceRec) (verdict : Nat) (s : State) : State :=
  let h := setNth r.hdr 12 verdict
  let a := slotAddr r.seq s
  let s1 := ddrPutWords (ddrPutWords s (a + 48) [verdict]) (a + 124) [headerCrc h]
  let s2 := publishF r.secF (publishP r.secP (fset (fset s1 CMD_LAST_SEQ_LO fWord (r.seq % 2 ^ 32)) CMD_LAST_SEQ_HI fWord (r.seq / 2 ^ 32)))
  let s3 := { s2 with
    slices := s2.slices.filter (fun q => q.seq != r.seq)
    anyPublished := true
    lastTov := r.tov }
  stopDone (releaseOld (mirrorJoin r.seq (raiseIrq 4 s3)))

/-- The limit of R309. -/
def verdictLimit (r : SliceRec) : Nat := r.tov + 1000000

/-- A published record that waits for its verdict. -/
def awaits (r : SliceRec) : Bool := hasEnded sgPublish r && decide (r.hdr ≠ [])

/-- The record is completed with NONE (R309). -/
def completeNone (r : SliceRec) (s : State) : State := completeRecord r 4 (bump s CMD_NO_VERDICT)

/-- VERDICT_ARRIVAL: the oldest verdict on the bridge arrives. One that comes after the limit is not written. -/
def verdictArrival (s : State) : State :=
  match takeDown (fun m => match m with | .verdict .. => true | _ => false) s with
  | (some (.verdict seq word _), s1) =>
    match s1.slices.find? (fun r => r.seq == seq && awaits r) with
    | some r => if lin s1 ≤ verdictLimit r then completeRecord r word s1 else completeNone r s1
    | none => s1
  | _ => s

/-- VERDICT_TIMEOUT (R309). -/
def verdictTimeout (s : State) : State :=
  match s.slices.find? awaits with
  | some r => completeNone r (runTo (verdictLimit r * unitsPerNs) s)
  | none => s

/-! ## Mirror copies (R311, R312) -/

/-- MIRROR_COPY_START: the head record's copy starts when a host slot is free. -/
def mirrorStart (s : State) : State :=
  match s.mirror.queue with
  | [] => s
  | q :: rest =>
    if s.mirror.copying.isSome ∨ fget s CMD_MIR_CFG CMD_MIR_CFG_MIR_SLOTS ≤ s.mirror.unreleased ∨ !s.pwr.pcieUp then s
    else updMirror (fun m => { m with queue := rest, copying := some q }) s

/-- Copy part k of a record whose header is h, when MIR_MASK selects it. -/
def mirrorPart (src dst : Nat) (h : List Nat) (s : State) (k : Nat) : State :=
  if bitOf k (fget s CMD_MIR_CFG CMD_MIR_CFG_MIR_MASK) then
    let off := nth h (16 + 2 * k) 0
    hostPut s (dst + off) (ddrWords s (src + off) (nth h (17 + 2 * k) 0 / 4))
  else s

/-- The index entry of a copy (R312). -/
def mirrorIndex (seq : Nat) (s : State) : State :=
  let m := s.mirror
  let n := fget s CMD_MIR_CFG CMD_MIR_CFG_MIR_SLOTS
  let t := fget s CMD_MIR_IDX_TAIL CMD_MIR_IDX_TAIL_TAIL
  let s1 := hostPut s (rd64 s CMD_MIR_IDX_LO + 16 * t) [seq % 2 ^ 32, seq / 2 ^ 32, m.next % 256 + m.phase * 2 ^ 31, m.skipped % 65536]
  let s2 := fset s1 CMD_MIR_IDX_TAIL CMD_MIR_IDX_TAIL_TAIL ((t + 1) % n)
  raiseIrq 5 (updMirror (fun m => { m with
    copying := none, skipped := 0, next := (m.next + 1) % n, unreleased := m.unreleased + 1
    phase := if t + 1 = n then 1 - m.phase else m.phase }) s2)

/-- MIRROR_COPY_DONE: the copy and its index entry, or a PCIe error (R311, R312). -/
def mirrorDone (err : Bool) (s : State) : State :=
  match s.mirror.copying with
  | none => s
  | some seq =>
    if err then
      updMirror (fun m => { m with copying := none, queue := [] })
        (raiseIrq 7 (fput (fon s CMD_RES_CTRL CMD_RES_CTRL_MIR_ERR) CMD_RES_CTRL CMD_RES_CTRL_MIRROR_EN false))
    else
      let src := slotAddr seq s
      let dst := rd64 s CMD_MIR_BASE_LO + s.mirror.next * fget s CMD_MIR_CFG CMD_MIR_CFG_MIR_SLOT_MIB * 2 ^ 20
      let h := ddrWords s src 64
      mirrorIndex seq (hostPut ((List.range 5).foldl (mirrorPart src dst h) s) dst h)

/-- MIR_IDX_HEAD_WRITE: the host releases entries; releasing more than are unreleased is discarded (R280, R312). The
block has no BAD_DOORBELL bit: its CFG_REJECT is set (DEDUCED, log entry 50). -/
def mirHead (v : Word) (s : State) : State :=
  let n := fget s CMD_MIR_CFG CMD_MIR_CFG_MIR_SLOTS
  let h := getBits CMD_MIR_IDX_HEAD_HEAD v
  let k := (h + n - fget s CMD_MIR_IDX_HEAD CMD_MIR_IDX_HEAD_HEAD % n) % n
  if n ≤ h ∨ s.mirror.unreleased < k then fon s CMD_RES_CTRL CMD_RES_CTRL_CFG_REJECT
  else updMirror (fun m => { m with unreleased := m.unreleased - k }) (fset s CMD_MIR_IDX_HEAD CMD_MIR_IDX_HEAD_HEAD h)

/-! ## The handshake rate (R17) -/

/-- RATE_UPDATE: the lowest of the 64 canaries' counts over 10 µs, in whole MHz rounded down (DESIGN CHOICE, log entry 87),
and the checkpoints within SOLVE (R19). -/
def rateUpdate (counts : List Nat) (s : State) : State :=
  if counts.length ≠ 64 then s
  else
    let low := counts.foldl min (nth counts 0 0)
    let ix := (counts.findIdx? (fun c => c == low)).getD 0
    let s1 := fset (fset s SLC_GOV_RATE SLC_GOV_RATE_RATE (clampNat 65535 (low / 10))) SLC_GOV_RATE SLC_GOV_RATE_SLOWEST ix
    let s2 := (counts.zipIdx).foldl (fun s e =>
      canaryDrift e.2 (e.1 / 10) (fset s (CUP_CANARY e.2) CUP_CANARY_RATE (clampNat 65535 (e.1 / 10)))) s1
    (s2.slices.filter (stageOn sgSolve)).foldl (fun s r => checkpoint r.seq s) s2

/-! ## Run-control opcodes (R300 to R303) -/

/-- The solver's first solve of a run is cold (R257). -/
def slvStartRun (s : State) : State := { s with slv := { s.slv with fresh := true } }

/-- The Spire seeds the tap's LFSRs at START (R329): with free values. -/
def spireStart (s : State) : State :=
  forUpTo 8 (fun n s => { (drawFree s).2 with tapLfsr := setNth s.tapLfsr n ((drawFree s).1 % 65536) }) s

/-- The sync counters are zeroed at START (R197). -/
def syncZero (s : State) : State :=
  { s with regs := cellsClear (fun a => decide (DOME_SYNC 0 ≤ a ∧ a ≤ DOME_SYNC 4095)) s.regs }

/-- START. Its reply comes at the first boundary of the run. -/
def cmdStart (ps : List Nat) (s : State) : CmdOut :=
  withParams 1 ps (fun s =>
    let p := nth ps 0 0
    if 1 < p then fail stParam s
    else if runState s ≠ stIdle then fail stBusy s
    else if s.img.active.isNone ∨ !fbit s CMD_RES_CTRL CMD_RES_CTRL_VALID then fail stNoResource s
    else
      let s1 := fset (fset (setRunState stArmed s) CMD_LAST_SEQ_LO fWord (2 ^ 32 - 1)) CMD_LAST_SEQ_HI fWord (2 ^ 32 - 1)
      let s2 := if p = 1 then forUpTo 32 (fun n s => if fbit s (ING_CTRL n) ING_CTRL_EN then askFlush s n else s) s1 else s1
      let s3 := slvStartRun (vheStartRun (syncZero s2))
      later (spireStart { s3 with anyPublished := false, lastTov := 0, runStart := lin s3 + 100000, nextSeq := 0 })) s

/-- STOP. -/
def cmdStop (ps : List Nat) (s : State) : CmdOut :=
  withParams 1 ps (fun s =>
    let m := nth ps 0 0
    if 1 < m then fail stParam s
    else if runState s = stStopping then fail stBusy s
    else if runState s = stArmed then
      ok (lastSeqWords s) (setRunState stIdle (finishOp 0x0601 ⟨stBusy, []⟩ (if m = 1 then sendAbort abStop s else s)))
    else if runState s = stRunning then
      let s1 := if m = 1 then sendAbort abStop s else s
      later (stopDone (stopHere (setRunState stStopping { s1 with stopAbandon := decide (m = 1) })))
    else ok (lastSeqWords s) s) s

/-- SLICE_MODE. -/
def cmdSliceMode (ps : List Nat) (s : State) : CmdOut :=
  withParams 1 ps (fun s =>
    let m := nth ps 0 0
    if 1 < m then fail stParam s
    else if fbit s DEV_RUN DEV_RUN_HALF_PENDING then fail stBusy s
    else if running s then
      ok [nextBoundary (lin s) 1000000 % 2 ^ 32] (fon { s with halfNext := decide (m = 1) } DEV_RUN DEV_RUN_HALF_PENDING)
    else
      let s1 := reaim (setHalf (decide (m = 1)) s)
      ok [fget s1 (BLF_CMP_VAL 0) fWord] s1) s

/-! ## Commands -/

def execRateUpdate (counts : List Nat) (s : State) : Host.Outcome State Fault Refusal := onMain (rateUpdate counts) s
/-- CMP_FIRE: compare n fires. CMP0 marks a boundary and CMP2 a close (R45). -/
def cmpFire (n : Nat) (s : State) : State :=
  if n = 0 then sliceBoundary s else if n = 2 then sliceClose s else cmpRunAndFire n s

def execCmpFire (n : Fin 16) (s : State) : Host.Outcome State Fault Refusal := onMain (cmpFire n) s
def execSliceBoundary (s : State) : Host.Outcome State Fault Refusal := onMain sliceBoundary s
def execSliceClose (s : State) : Host.Outcome State Fault Refusal := onMain sliceClose s
def execAlignEnd (s : State) : Host.Outcome State Fault Refusal := onMain alignEnd s
def execVoxelStart (s : State) : Host.Outcome State Fault Refusal := onMain voxelBegin s
def execPointInsert (lane : Fin 8) (s : State) : Host.Outcome State Fault Refusal := onMain (insertNext lane) s
def execVoxelEnd (s : State) : Host.Outcome State Fault Refusal := onMain voxelFinish s
def execVheClearDone (s : State) : Host.Outcome State Fault Refusal := onMain vheCleared s
def execCameraStart (s : State) : Host.Outcome State Fault Refusal := onMain cameraStart s
def execCameraEnd (s : State) : Host.Outcome State Fault Refusal := onMain cameraEnd s
def execFuseStart (s : State) : Host.Outcome State Fault Refusal := onMain fuseBegin s
def execFuseEnd (values : List Nat) (s : State) : Host.Outcome State Fault Refusal := onMain (fuseFinish values) s
def execTrackStart (s : State) : Host.Outcome State Fault Refusal := onMain trackStart s
def execTrackEnd (s : State) : Host.Outcome State Fault Refusal := onMain trackEnd s
def execPublication (s : State) : Host.Outcome State Fault Refusal := onMain publication s
def execVerdictArrival (s : State) : Host.Outcome State Fault Refusal := onMain verdictArrival s
def execVerdictTimeout (s : State) : Host.Outcome State Fault Refusal := onMain verdictTimeout s
def execMirrorCopyStart (s : State) : Host.Outcome State Fault Refusal := onMain mirrorStart s
def execMirrorCopyDone (err : Bool) (s : State) : Host.Outcome State Fault Refusal := onMain (mirrorDone err) s
def execMirIdxHeadWrite (agent : Agent) (value : Word) (s : State) : Host.Outcome State Fault Refusal :=
  onAgent agent (mirHead value) s
def execStart (h : CmdHead) (ps : List Word) (s : State) : Host.Outcome State Fault Refusal := onCmd h 0x0601 cmdStart ps s
def execStop (h : CmdHead) (ps : List Word) (s : State) : Host.Outcome State Fault Refusal := onCmd h 0x0602 cmdStop ps s
def execSliceMode (h : CmdHead) (ps : List Word) (s : State) : Host.Outcome State Fault Refusal := onCmd h 0x0603 cmdSliceMode ps s

end Sys2Proof.Machine
end

