-- ==== Sys2Proof/Machine/Spire.lean ====
section
/-! DEFINITION. The Spire die: its timer, faults, safety state and pins, slice ticks, watchdogs and references (R320 to
R339, R352). -/
namespace Sys2Proof.Machine

/-- Change the Spire. -/
def updSpr (f : SpireState → SpireState) (s : State) : State := { s with spr := f s.spr }

/-! ## The configuration (R352) -/

/-- A configuration field, or its default when it holds 0. -/
def cfgField (i hi lo dflt : Nat) (s : State) : Nat :=
  let v := natField hi lo (cfgWord i s)
  if v = 0 then dflt else v

def cfgNx (s : State) : Nat := natField 3 0 (cfgWord 1 s)
def cfgNu (s : State) : Nat := natField 8 4 (cfgWord 1 s)
def cfgVIdx (s : State) : Nat := natField 11 9 (cfgWord 1 s)
def cfgWIdx (s : State) : Nat := natField 14 12 (cfgWord 1 s)
def cfgGuard (s : State) : Nat := cfgField 4 15 0 500 s
def cfgHold (s : State) : Nat := cfgField 4 31 16 1500 s
def cfgTickTol (s : State) : Nat := cfgField 5 15 0 5000 s
def cfgImuPeriod (s : State) : Nat := cfgField 5 31 16 500 s
def cfgEgoW (s : State) : Rat := (cfgField 7 15 0 200 s : Rat) / (10 ^ 4 : Nat)
def cfgTrack (s : State) : Nat := natField 31 16 (cfgWord 7 s)
def cfgMinRate (s : State) : Nat := cfgField 11 23 0 20000 s

/-- Whether a configuration is held. -/
def cfgHeld (s : State) : Bool := decide (s.spr.config ≠ [])

/-- The default CLOSE of each watchdog in µs (R339). -/
def wwdClose (n : Nat) : Nat := nth [1050, 1070, 1230, 1250, 1350, 1410, 1705, 1745] n 0

/-- The window of a watchdog in µs. -/
def cfgOpen (n : Nat) (s : State) : Nat := cfgField (12 + n) 15 0 1000 s
def cfgClose (n : Nat) (s : State) : Nat := cfgField (12 + n) 31 16 (wwdClose n) s

/-! ## Time: cycles of 2.5 ns -/

def cycUs (us : Nat) : Nat := us * 400
def cycMs (ms : Nat) : Nat := ms * 400000
/-- Cycles of a time in ns, all of whose values here are multiples of 5 ns but for TICK_TOL, which is rounded down. -/
def cycNs (ns : Nat) : Nat := ns * 2 / 5

/-! ## Fault bits (R321, R336) -/

/-- The fault summary. -/
def faultSum (s : State) : Nat := rd64 s SPR_FAULT_LO

/-- The category of a fault bit: 0 reserved, 1 S1, 2 S2, 3 S3, 4 A. -/
def faultCat (b : Nat) (s : State) : Nat :=
  if b < 5 then 3
  else if b = 29 ∧ s.spr.goldS2 then 2
  else if [5, 6, 19, 24, 32, 38, 39].contains b then 2
  else if [21, 30, 31, 34, 36].contains b then 4
  else if b = 7 ∨ 40 ≤ b then 0 else 1

/-- Whether a bit of a category is set. -/
def anySet (c : Nat) (s : State) : Bool := (List.range 40).any (fun b => bitOf b (faultSum s) && faultCat b s == c)

/-- The safety state (R320). -/
def stNotReady : Nat := 0
def stNormal : Nat := 1
def stRecover : Nat := 2
def stHold : Nat := 3
def stSpireFail : Nat := 4

/-- READY: a configuration, a golden image, and a full self-test pass (R353). -/
def sprReady (s : State) : Bool := cfgHeld s && fbit s SPR_GOLD SPR_GOLD_LOADED && s.spr.tested

/-- The state that the conditions of R320 give. -/
def safetyState (s : State) : Nat :=
  if anySet 3 s then stSpireFail
  else if !sprReady s then stNotReady
  else if anySet 2 s || s.spr.clearHold then stHold
  else if anySet 1 s then stRecover else stNormal

/-- VALID falls. -/
def validLow (s : State) : State := fset (updSpr (fun p => { p with validAt := none }) s) SPR_STATE SPR_STATE_VALID_PIN 0

/-- The SPR region follows the Spire; FREEZE_n forces both pins low (R334, R355, R438). -/
def sprFollow (s : State) : State :=
  let st := safetyState s
  let s1 := fput (fset s SPR_STATE SPR_STATE_STATE st) SPR_STATE SPR_STATE_READY (sprReady s)
  let s2 := fput s1 SPR_STATE SPR_STATE_FAULT_PIN (st != stNormal || s.spr.forced)
  if st ≠ stNormal ∨ s.spr.forced then validLow s2 else s2

/-- What vector 6 reports: the pins and the fault summary. -/
def sprSeen (s : State) : Nat × Nat × Nat :=
  (fget s SPR_STATE SPR_STATE_VALID_PIN, fget s SPR_STATE SPR_STATE_FAULT_PIN, faultSum s)

/-- Vector 6 is raised when what it reports has changed since s0 (R295). -/
def sprNotice (s0 s : State) : State := if sprSeen s0 ≠ sprSeen s ∧ mainRuns s then raiseIrq 6 s else s

/-- The Spire's outputs after a change that began at s0. -/
def sprShow (s0 s : State) : State := sprNotice s0 (sprFollow s)

/-- The Spire's notes on a fault bit. -/
def bitNote (b : Nat) (s : State) : SprBit := nth s.spr.bits b ⟨0, 0, 0⟩

/-- Change them; the time at which both conditions and requests have ended is noted (R322). -/
def updBit (b : Nat) (f : SprBit → SprBit) (s : State) : State :=
  let n := f (bitNote b s)
  let n1 := if n.conds = 0 ∧ n.pends = 0 then { n with ended := s.spr.now } else n
  updSpr (fun p => { p with bits := setNth p.bits b n1 }) s

/-- The flat index that names no unit. -/
def noFlat : Nat := 400

/-- A reset request goes to the main die (R336). -/
def askReset (level part flat bit : Nat) (s : State) : State :=
  updBit bit (fun n => { n with pends := n.pends + 1 }) { s with bridgeDown := s.bridgeDown ++ [.resetReq level part flat bit] }

/-- An L3 of a unit, when the unit exists. -/
def askUnit (unit bit : Nat) (s : State) : State :=
  match unitFlat unit with
  | some f => askReset 3 (flatPart f) f bit s
  | none => s

/-- The reset that a fault bit requests (R336). -/
def bitReset (b : Nat) (unit : Option Nat) (s : State) : State :=
  match b, unit with
  | 5, _ => askReset 1 0 noFlat b s
  | 18, _ => askReset 2 partIngress noFlat b s
  | 19, _ => askReset 1 0 noFlat b s
  | 20, _ => askReset 2 partFusion noFlat b s
  | 22, some u => if u = 0x101 ∨ u = 0x103 ∨ u = 0x106 then askUnit u b s else s
  | 23, some u => askUnit u b s
  | 24, u => askReset 1 0 ((u.bind unitFlat).getD noFlat) b s
  | 25, some u => askUnit u b s
  | 26, some u => askUnit u b s
  | _, _ => s

/-- Cupola logs a fault bit that is set anew, with its unit and the oldest slice in processing (R409). -/
def logFault (b : Nat) (unit : Option Nat) (s : State) : State :=
  if bitOf b (faultSum s) || !cupolaRuns s then s
  else logEvent (0x0300 + b) 12 (unit.getD 0) ((match s.slices with | r :: _ => r.seq | [] => 0) % 2 ^ 32) s

/-- A fault bit is latched (R334, R336): VALID falls unless the bit is advisory, and its reset is requested. A lasting
condition ends later. -/
def latchFault (b : Nat) (lasting : Bool) (unit : Option Nat) (s : State) : State :=
  let s1 := wr64 (logFault b unit s) SPR_FAULT_LO (Nat.lor (faultSum s) (2 ^ b))
  let s2 := updBit b (fun n => { n with conds := n.conds + b2n lasting }) s1
  bitReset b unit (if faultCat b s = 4 then s2 else validLow s2)

/-- One lasting condition of a bit ends. -/
def condEnd (b : Nat) (s : State) : State :=
  if (bitNote b s).conds = 0 then s else updBit b (fun n => { n with conds := n.conds - 1 }) s

/-- Clear bits of the summary. -/
def clearBits (p : Nat → Bool) (s : State) : State :=
  wr64 s SPR_FAULT_LO (((List.range 40).filter (fun b => bitOf b (faultSum s) && !p b)).foldl (fun a b => a + 2 ^ b) 0)

/-- Whether a bit's conditions and requests have ended. -/
def bitEnded (b : Nat) (s : State) : Bool := (bitNote b s).conds == 0 && (bitNote b s).pends == 0

/-- The S1 bits clear whose conditions and requests ended before a slice started (R322). -/
def clearS1 (start : Nat) (s : State) : State :=
  clearBits (fun b => faultCat b s == 1 && bitEnded b s && decide ((bitNote b s).ended < start)) s

/-- A lasting condition that is seen now or is not: its bit is latched as it begins. -/
def follow (b : Nat) (bad : Bool) (s : State) : State :=
  if bad && (bitNote b s).conds == 0 then latchFault b true none s
  else if !bad then condEnd b s else s

/-! ## References (R328) -/

/-- Change the references. -/
def updRefs (f : SprRefs → SprRefs) (s : State) : State := updSpr (fun p => { p with refs := f p.refs }) s

/-- Wheel entry k in use, and whether it is a right wheel. -/
def wheelUsed (k : Nat) (s : State) : Bool := natField 31 16 (cfgWord (27 + 2 * k) s) != 0
def wheelRight (k : Nat) (s : State) : Bool := bitOf 31 (cfgWord (26 + 2 * k) s)

/-- The speeds of wheels in use received within the last 100 ms that satisfy p. -/
def freshWheels (p : Nat → Bool) (s : State) : List Rat :=
  (List.range 4).filterMap (fun k =>
    if wheelUsed k s && p k then
      match nth s.spr.refs.wheels k none with
      | some (t, v) => if s.spr.now - t ≤ cycMs 100 then some v else none
      | none => none
    else none)

/-- Standstill: every wheel in use is fresh and reads zero; with no wheel in use there is none. -/
def standstill (s : State) : Bool :=
  let used := (List.range 4).filter (fun k => wheelUsed k s)
  !used.isEmpty && decide ((freshWheels (fun _ => true) s).length = used.length)
    && (freshWheels (fun _ => true) s).all (fun v => decide (v = 0))

/-- The mean of a list. -/
def ratMean (l : List Rat) : Rat := l.sum / (l.length : Rat)

/-- ω_s: the yaw rate less its bias. -/
def omegaS (s : State) : Rat := s.spr.refs.yaw - s.spr.refs.bias

/-- Whether the wheel-derived yaw rate exists and differs from ω_s by more than 2 × EGO_W_ABS. -/
def yawDiffers (s : State) : Bool :=
  let r := freshWheels (fun k => wheelRight k s) s
  let l := freshWheels (fun k => !wheelRight k s) s
  cfgTrack s != 0 && !r.isEmpty && !l.isEmpty
    && decide (2 * cfgEgoW s < ratAbs ((ratMean r - ratMean l) * 1000 / (cfgTrack s : Rat) - omegaS s))

/-- The yaw comparison: an outcome that lasts 100 ms sets TAP_WHEEL's condition or ends it; while the wheel-derived rate
does not exist the condition is off. -/
def yawCheck (s : State) : State :=
  if !cfgHeld s then s
  else
    let d := yawDiffers s
    let exist := cfgTrack s != 0 && !(freshWheels (fun k => wheelRight k s) s).isEmpty
      && !(freshWheels (fun k => !wheelRight k s) s).isEmpty
    let r := s.spr.refs
    if !exist then condEnd 34 (updRefs (fun r => { r with differs := false, bad := false, since := s.spr.now }) s)
    else if d ≠ r.differs then updRefs (fun r => { r with differs := d, since := s.spr.now }) s
    else if d ≠ r.bad ∧ cycMs 100 ≤ s.spr.now - r.since then
      let s1 := updRefs (fun r => { r with bad := d }) s
      if d then latchFault 34 true none s1 else condEnd 34 s1
    else s

/-! ## Watchdogs (R338, R339) -/

/-- Change a slice of the Spire's. -/
def updWin (seq : Nat) (f : SprSlice → SprSlice) (s : State) : State :=
  updSpr (fun p => { p with slices := p.slices.map (fun w => if w.seq = seq then f w else w) }) s

/-- The 500 µs by which windows are earlier in half-slice mode. -/
def winShift (w : SprSlice) : Nat := if w.len = 500000 then 500 else 0

/-- When a window opens and closes by the Spire's timer. -/
def winOpen (w : SprSlice) (n : Nat) (s : State) : Nat := w.start + cycUs (cfgOpen n s - winShift w)
def winClose (w : SprSlice) (n : Nat) (s : State) : Nat := w.start + cycUs (cfgClose n s - winShift w)

/-- A watchdog fires. -/
def wwdFire (n : Nat) (lasting : Bool) (s : State) : State := latchFault (8 + n) lasting none (bump s (SPR_WWD_FIRED n))

/-- The partition that a stage's watchdog resets. -/
def wwdPart (n : Nat) : Nat := if n = 0 then partIngress else if n = 6 then partSolver else if n = 7 then partPublish else partFusion

/-- A slice leaves the watchdogs: conditions of absent kicks end. -/
def dropWin (s : State) (w : SprSlice) : State :=
  (maskBits 8 w.late).foldl (fun s n => if bitOf n w.kicked then s else condEnd (8 + n) s)
    (updSpr (fun p => { p with slices := p.slices.filter (fun v => v.seq != w.seq) }) s)

/-- A slice that is judged and whose stages have all kicked is done. -/
def retireWin (seq : Nat) (s : State) : State :=
  match s.spr.slices.find? (fun w => w.seq == seq) with
  | some w => if w.rendered && w.kicked == 255 then dropWin s w else s
  | none => s

/-- One window whose CLOSE has passed fires; still absent after L, its reset is requested. `due t` says that time t has
passed. -/
def winCheck (due : Nat → Bool) (w : SprSlice) (s : State) (n : Nat) : State :=
  let c := winClose w n s
  let s1 := if !bitOf n w.kicked && !bitOf n w.late && due c then
      wwdFire n true (updWin w.seq (fun v => { v with late := Nat.lor v.late (2 ^ n) }) s)
    else s
  if !bitOf n w.kicked && !bitOf n w.asked && due (c + cycNs w.len) then
    askReset 2 (wwdPart n) noFlat (8 + n) (updWin w.seq (fun v => { v with asked := Nat.lor v.asked (2 ^ n) }) s1)
  else s1

/-! ## Deadlines -/

/-- When the next tick's absence shows (R323): the slice length is the longer of that at the last tick and the present
one (DEDUCED, log entry 49). -/
def tickLimit (t : Nat) (s : State) : Nat := t + cycNs (max s.spr.len (sliceLen s) + cfgTickTol s)

/-- The tick check. -/
def tickCheck (due : Nat → Bool) (s : State) : State :=
  match s.spr.ticks with
  | (t, _) :: _ =>
    if !s.spr.suspended && !s.spr.missed && due (tickLimit t s) then
      latchFault 6 false none (updSpr (fun p => { p with missed := true }) s)
    else s
  | [] => s

/-- VALID_HOLD (R334). -/
def holdCheck (due : Nat → Bool) (s : State) : State :=
  match s.spr.validAt with
  | some t => if due (t + cycUs (cfgHold s)) then validLow s else s
  | none => s

/-- No IMU sample for 4 × IMU_PERIOD (R328). -/
def imuCheck (due : Nat → Bool) (s : State) : State :=
  if cfgHeld s && (bitNote 33 s).conds == 0 && due (s.spr.refs.imuAt + cycUs (4 * cfgImuPeriod s)) then
    latchFault 33 true none s
  else s

/-- Every deadline that has passed acts. -/
def sprExpire (due : Nat → Bool) (s : State) : State :=
  let s1 := s.spr.slices.foldl (fun s w => (List.range 8).foldl (winCheck due w) s) s
  yawCheck (imuCheck due (holdCheck due (tickCheck due s1)))

/-- The Spire's timer moves on: tap points are carried along and those older than 100 ms are dropped (R330). -/
def sprAdvance (d : Nat) (s : State) : State :=
  if d = 0 then s
  else
    let now := s.spr.now + d
    let carried (t : TapPt) : TapPt :=
      let c := planeCarry t.x t.y s.spr.refs.vs (omegaS s) ((d : Rat) / (400000000 : Nat))
      { t with x := c.1, y := c.2 }
    updSpr (fun p => { p with now := now, points := (p.points.filter (fun t => decide (now ≤ t.arrived + cycMs 100))).map carried }) s

/-- An event reaches the Spire d cycles later. A deadline at the same instant loses to it (R27). -/
def sprAfter (d : Nat) (f : State → State) (s : State) : State :=
  let s1 := sprAdvance d s
  sprShow s (f (sprExpire (fun t => decide (t < s1.spr.now)) s1))

/-- An event that loses to a deadline at its own instant: a fault latch wins over the verdict of its cycle (R326). -/
def sprMeet (d : Nat) (f : State → State) (s : State) : State :=
  let s1 := sprAdvance d s
  sprShow s (f (sprExpire (fun t => decide (t ≤ s1.spr.now)) s1))

/-- The timer reaches a deadline, and every deadline up to it acts. -/
def sprReach (t : Option Nat) (s : State) : State :=
  match t with
  | none => s
  | some t =>
    let s1 := sprAdvance (t - s.spr.now) s
    sprShow s (sprExpire (fun u => decide (u ≤ s1.spr.now)) s1)

/-- The earlier of the times that are there. -/
def earliest (l : List (Option Nat)) : Option Nat := lowest (l.filterMap id)

/-! ## Ticks (R323, R329) -/

/-- A slice's start becomes its ToV tick minus L. -/
def settleWins (s : State) : State :=
  updSpr (fun p => { p with
    slices := p.slices.map (fun w => if w.ticked then w else { w with start := p.now - cycNs w.len, ticked := true }) }) s

/-- A slice enters the watchdogs; with the first of a run, what a run starts with is fresh (R327, R329). -/
def openWin (seq : Nat) (s : State) : State :=
  let s1 := if seq = 0 then
      updSpr (fun p => { p with prev := none, verdicts := [], startAt := some p.now }) (s.spr.slices.foldl dropWin s)
    else s
  updSpr (fun p => { p with slices := p.slices ++ [⟨seq, p.now, false, sliceLen s, 0, 0, 0, false⟩] }) s1

/-- Whether an interval between ticks is right: L at one of its ends, within TICK_TOL. -/
def tickRight (d : Nat) (s : State) : Bool :=
  [s.spr.len, sliceLen s].any (fun l => decide (cycNs l ≤ d + cycNs (cfgTickTol s) ∧ d ≤ cycNs (l + cfgTickTol s)))

/-- The TAP tasks that the newest tick has released: eight or four, 125 µs apart (R325). -/
def tapsDue (s : State) : Nat :=
  match s.spr.ticks with
  | (t, _) :: _ => min (if s.spr.len = 500000 then 4 else 8) ((s.spr.now - t) / cycUs 125 + 1)
  | [] => 0

/-- When the k-th TAP task of the newest tick is released (R325). -/
def tapRelease (k : Nat) (s : State) : Nat :=
  match s.spr.ticks with
  | (t, _) :: _ => t + k * cycUs 125
  | [] => s.spr.now

/-- A slice tick arrives. The check, while suspended, resumes with the first tick after the main die's reset (R365). -/
def sliceTick (lin32 : Nat) (starts : Option Nat) (s : State) : State :=
  let bad := match s.spr.ticks with
    | (t, _) :: _ => !s.spr.suspended && !tickRight (s.spr.now - t) s
    | [] => false
  let s1 := if bad then latchFault 6 false none s else s
  let s2 := updSpr (fun p => { p with
    ticks := ((p.now, lin32) :: p.ticks).take 16
    len := sliceLen s
    missed := false
    suspended := p.suspended && !p.sawReset
    tapsOwed := p.tapsOwed ++ (List.range (tapsDue s - p.taps)).map (fun k => tapRelease (p.taps + k) s)
    taps := 0 }) (settleWins s1)
  match starts with
  | some n => openWin n s2
  | none => s2

/-! ## Kicks (R338) -/

/-- The stages that must have kicked before a stage: the order of the data flow. -/
def stageBefore (n : Nat) : List Nat :=
  match n with
  | 1 => [0] | 2 => [1] | 3 => [0] | 4 => [2, 3] | 5 => [4] | 6 => [5] | 7 => [6] | _ => []

/-- A stage-end kick arrives. -/
def stageKick (n seq : Nat) (s : State) : State :=
  match s.spr.slices.find? (fun w => w.seq == seq) with
  | none => s
  | some w =>
    if 8 ≤ n || bitOf n w.kicked then s
    else
      let s1 := updWin seq (fun v => { v with kicked := Nat.lor v.kicked (2 ^ n) }) s
      let early := decide (s.spr.now < winOpen w n s)
      let order := (stageBefore n).any (fun b => !bitOf b w.kicked)
      let s2 := if early || order then wwdFire n false s1 else s1
      retireWin seq (if bitOf n w.late then condEnd (8 + n) s2 else s2)

end Sys2Proof.Machine
end

