-- ==== Sys2Proof/Machine/Judge.lean ====
section
/-! DEFINITION. Judgement: golden comparison, the checks of a result in their order, the verdict, and calibration
proposals (R326 to R333, R344, R345). -/
namespace Sys2Proof.Machine

/-! ## Golden values (R344, R345) -/

/-- Whether check value i of a rotation is within its band. -/
def goldValueOk (crc rot i v : Nat) : Bool :=
  let b := Config.goldBand crc rot i
  fpFinite fp32 v && decide (ratAbs (ofFp32 v - ofFp32 b.1) ≤ ofFp32 b.2.1 + ofFp32 b.2.2 * ratAbs (ofFp32 b.1))

/-- Whether every check value of a run has arrived and passes. -/
def goldPass (g : SprGold) (s : State) : Bool :=
  let crc := fget s SPR_GOLD_CRC fWord
  let n := Config.goldCount crc g.rotation % 257
  decide (n ≤ g.values.length) && (List.range n).all (fun i => goldValueOk crc g.rotation i (nth g.values i 0x7FC00000))

/-- The sequencer is told of forced runs still to start, and of the rotation they use. -/
def goldPlan (forced : Nat) (recheck : Bool) (rot : Nat) (s : State) : State :=
  showGold { s with goldForced := forced, goldRecheck := recheck, goldRotation := rot }

/-- A golden run has passed. -/
def goldGood (g : SprGold) (s : State) : State :=
  let s1 := fset s SPR_GOLD SPR_GOLD_PASSED (fget s SPR_GOLD SPR_GOLD_PASSED + 1)
  let s2 := if g.clear then updSpr (fun p => { p with clearHold := false }) s1 else s1
  match s2.spr.recheck with
  | some (rot, n) =>
    if g.rotation ≠ rot then s2
    else if n + 1 < 2 then updSpr (fun p => { p with recheck := some (rot, n + 1) }) s2
    else goldPlan s2.goldForced false ((rot + 1) % 8) (condEnd 29 (updSpr (fun p => { p with recheck := none }) s2))
  | none => s2

/-- A golden run has failed: two rechecks of its rotation are forced, or, when it was one of them, GOLDEN becomes S2 and
the rotation is reported for self-test. -/
def goldBad (g : SprGold) (s : State) : State :=
  match s.spr.recheck with
  | none => goldPlan 2 true g.rotation (latchFault 29 true none (updSpr (fun p => { p with recheck := some (g.rotation, 0) }) s))
  | some (rot, _) =>
    goldPlan 0 false ((rot + 1) % 8) (latchFault 29 false none (condEnd 29 (updSpr (fun p => { p with
      recheck := none, goldS2 := true, bist := p.bist ++ [rot] }) s)))

/-- JUDGE compares the golden values that came with a copy before its other checks. -/
def goldCheck (c : SprCopy) (s : State) : State :=
  match c.gold with
  | none => s
  | some g => if goldPass g s then goldGood g s else goldBad g s

/-! ## Checks (R326 to R332) -/

def rsNotReady : Nat := 1
def rsFault : Nat := 2
def rsHeader : Nat := 3
def rsTime : Nat := 4
def rsAge : Nat := 5
def rsTap : Nat := 6
def rsEgo : Nat := 7
def rsSolver : Nat := 8
def rsLimit : Nat := 9
def rsModel : Nat := 10
def rsFreespace : Nat := 11

/-- MAGIC, VERSION and the publish CRC of a header copy. -/
def copyIntact (c : SprCopy) : Bool :=
  nth c.header 0 0 == 0x46525231 && nth c.header 1 0 % 65536 == 1 && nth c.header 31 0 == publishCrc c.header

/-- Sequence number and low linear count of the ToV of a copy. -/
def copySeq (c : SprCopy) : Nat := nth c.header 2 0 + 2 ^ 32 * nth c.header 3 0
def copyTov (c : SprCopy) : Nat := t96Of ((c.header.drop 4).take 4) / 2 ^ 16 % 2 ^ 32

/-- L by the HALF flag, in ns. -/
def copyLen (c : SprCopy) : Nat := if bitOf 5 (nth c.header 11 0) then 500000 else 1000000

/-- TIME (R327). -/
def timeOk (c : SprCopy) (s : State) : Bool :=
  let prev := match s.spr.prev with
    | some (q, t) => decide (q < copySeq c)
        && (copyTov c + 2 ^ 32 - t) % 2 ^ 32 == (copySeq c - q) * copyLen c % 2 ^ 32
    | none => true
  prev && s.spr.ticks.any (fun k => k.2 == copyTov c && decide (k.1 ≤ c.arrived ∧ c.arrived ≤ k.1 + cycNs (2 * copyLen c)))

/-- EGO (R328). -/
def egoCheck (c : SprCopy) (s : State) : Bool :=
  let q16 (i : Nat) : Rat := (signed 32 (nth c.ego i 0) : Rat) / (65536 : Nat)
  let m := nth c.ego 16 0 % 8
  let vs := s.spr.refs.vs
  let vAbs : Rat := (cfgField 6 15 0 200 s : Rat) / (1000 : Nat)
  let vRel : Rat := (cfgField 6 31 16 50 s : Rat) / (1000 : Nat)
  m != egoInit && m != egoLost
    && (s.spr.refs.bad || decide (ratAbs (q16 10 - vs) ≤ vAbs + vRel * ratAbs vs))
    && decide (ratAbs (q16 15 - omegaS s) ≤ cfgEgoW s)

/-- A bound below, and a bound above, given as FP32: an infinity bounds as IEEE compares it. -/
def aboveLo (lo : Nat) (r : Rat) : Bool := match fpDecode fp32 lo with | .num a => decide (a ≤ r) | .inf neg => neg | .nan => false
def belowHi (hi : Nat) (r : Rat) : Bool := match fpDecode fp32 hi with | .num a => decide (r ≤ a) | .inf neg => !neg | .nan => false

/-- DT_S in seconds. -/
def cfgDt (s : State) : Rat := (cfgWord 2 s : Rat) / (10 ^ 6 : Nat)

/-- The inputs of stage j. -/
def stageU (us : List Nat) (nu j : Nat) : List Nat := slice (j * nu) nu us

/-- nu of the control section of a copy, and the stages judged. -/
def copyNu (c : SprCopy) : Nat := natField 20 16 (nth c.control 1 0)
def copyStages (c : SprCopy) : Nat := if copyNu c = 0 then 0 else c.inputs.length / copyNu c

/-- Whether a change of input i is within DUMAX_i × DT_S. -/
def duOk (s : State) (i a b : Nat) : Bool :=
  match fpDecode fp32 (cfgWord (160 + i) s) with
  | .num m => decide (ratAbs (ofFp32 b - ofFp32 a) ≤ m * cfgDt s)
  | .inf neg => !neg
  | .nan => false

/-- Whether every input changes within its rate from one stage's inputs to the next's. -/
def rateOk (s : State) (a b : List Nat) : Bool := ((List.zip a b).zipIdx).all (fun e => duOk s e.2 e.1.1 e.1.2)

/-- The input that the last VALID result within 100 ms prescribed for an instant (R331). The ToVs are known modulo 2³² ns, so
its verdict must also be less than that old. -/
def planAt (tov : Nat) (s : State) : Option (List Nat) :=
  match s.spr.plan with
  | some p =>
    let d := (tov + 2 ^ 32 - p.tov) % 2 ^ 32
    let j := if cfgWord 2 s = 0 then 0 else d / (cfgWord 2 s * 1000)
    if d ≤ 10 ^ 8 ∧ s.spr.now - p.at_ < cycMs 4000 ∧ (j + 1) * p.nu ≤ p.inputs.length ∧ p.nu ≠ 0 then some (stageU p.inputs p.nu j) else none
  | none => none

/-- CONTROL_LIMIT; a NaN or an infinite input fails it. -/
def limitOk (c : SprCopy) (s : State) : Bool :=
  let nu := copyNu c
  let st := copyStages c
  c.inputs.all (fpFinite fp32)
    && (List.range st).all (fun j => ((stageU c.inputs nu j).zipIdx).all (fun e =>
      aboveLo (cfgWord (128 + e.2) s) (ofFp32 e.1) && belowHi (cfgWord (144 + e.2) s) (ofFp32 e.1)))
    && (List.range (st - 1)).all (fun j => rateOk s (stageU c.inputs nu j) (stageU c.inputs nu (j + 1)))
    && (match planAt (copyTov c) s with
        | some p => rateOk s p (stageU c.inputs nu 0)
        | none => true)

/-- The initial state of the Spire's model. -/
def modelX0 (s : State) : List Rat :=
  (List.range (cfgNx s)).map (fun i =>
    match cfgWord (384 + i / 4) s / 256 ^ (i % 4) % 256 with
    | 1 => s.spr.refs.vs
    | 2 => omegaS s
    | 3 => s.spr.refs.ax
    | 4 => s.spr.refs.ay
    | _ => 0)

/-- One step of the linear model, in exact arithmetic. -/
def modelNext (s : State) (x : List Rat) (u : List Nat) : List Rat :=
  (List.range (cfgNx s)).map (fun (i : Nat) =>
    let a : Rat := ((List.range (cfgNx s)).map (fun (j : Nat) => ofFp32 (cfgWord (176 + 8 * i + j) s) * vget x j)).sum
    let b : Rat := ((List.range (cfgNu s)).map (fun (j : Nat) => ofFp32 (cfgWord (240 + 16 * i + j) s) * ofFp32 (nth u j 0))).sum
    a + b)

/-- The states x₀ … x_S of the model. -/
def modelRun (s : State) : List Rat → List (List Nat) → List (List Rat)
  | x, [] => [x]
  | x, u :: us => x :: modelRun s (modelNext s x u) us

/-- The states of a copy. -/
def copyStates (c : SprCopy) (s : State) : List (List Rat) :=
  modelRun s (modelX0 s) ((List.range (copyStages c)).map (fun j => stageU c.inputs (copyNu c) j))

/-- Whether a state lies in its box. -/
def inBox (s : State) (x : List Rat) : Bool :=
  (List.range (cfgNx s)).all (fun i => aboveLo (cfgWord (368 + i) s) (vget x i) && belowHi (cfgWord (376 + i) s) (vget x i))

/-- CONTROL_MODEL. -/
def modelOk (c : SprCopy) (s : State) : Bool :=
  nth c.control 3 0 == cfgWord 2 s && copyNu c == cfgNu s && c.inputs.all (fpFinite fp32)
    && ((copyStates c s).drop 1).all (inBox s)

/-- The middle of a cell by its number along an axis, in metres. -/
def cellMid (k : Int) : Rat := ((2 * k - 127 : Int) : Rat) / 4

/-- The cell of a tap point. -/
def tapCell (t : TapPt) : Int × Int := ((t.x * 2).floor + 64, (t.y * 2).floor + 64)

/-- The tap points that the grid counts: within it, of the last 100 ms, and high enough. -/
def gridPoints (s : State) : List (Int × Int) :=
  let zmin : Rat := (cfgField 9 31 16 300 s : Rat) / (1000 : Nat)
  (s.spr.points.filter (fun t => decide (((s.spr.now - cycMs 100 : Nat) : Int) ≤ t.time ∧ zmin ≤ t.z))).map tapCell
    |>.filter (fun c => decide (0 ≤ c.1 ∧ c.1 < 128 ∧ 0 ≤ c.2 ∧ c.2 < 128))

/-- FREESPACE (R330). The rectangle is centred at its pose, which R330 does not say (DESIGN CHOICE, log entry 35). -/
def freeOk (c : SprCopy) (s : State) : Bool :=
  let xs := copyStates c s
  let vw := xs.map (fun x => (vget x (cfgVIdx s), vget x (cfgWIdx s)))
  let poses := planePoses (cfgDt s) Pose.still vw
  let v := (vw.getLast?.getD (0, 0)).1
  let decel : Rat := (cfgField 10 31 16 200 s : Rat) / (100 : Nat)
  let len : Rat := (natField 15 0 (cfgWord 8 s) : Rat) / (100 : Nat)
  let wid : Rat := (natField 31 16 (cfgWord 8 s) : Rat) / (100 : Nat)
  let marg : Rat := (cfgField 9 15 0 500 s : Rat) / (1000 : Nat)
  let cells := gridPoints s
  let full := cells.filter (fun k => decide (cfgField 10 7 0 3 s ≤ cells.count k))
  let half : Rat := 1 / 2
  let hit (p : Pose) (ext : Rat) : Bool := full.any (fun k =>
    rectMeets p (len / 2 + marg + ext) (len / 2 + marg) (wid / 2 + marg) (half / 2) (cellMid k.1, cellMid k.2))
  !(poses.zipIdx.any (fun e => hit e.1 (if e.2 + 1 = poses.length then v * v / (2 * decel) else 0)))

/-- The Spire's own references are unusable: no IMU sample, or too few tap points. -/
def tapBad (s : State) : Bool := decide (0 < (bitNote 33 s).conds) || decide (0 < (bitNote 35 s).conds)

/-- The checks of the control inputs, for a solver status that has them (R332). -/
def controlReason (c : SprCopy) (s : State) : Nat :=
  let st := nth c.control 0 0 % 16
  if st ≤ 3 then
    if !limitOk c s then rsLimit else if !modelOk c s then rsModel else if !freeOk c s then rsFreespace else 0
  else if st = svNotRun ∧ bitOf 16 (cfgWord 1 s) then 0 else rsSolver

/-- REASON: the first check that fails, in order (R326). -/
def judgeReason (c : SprCopy) (s : State) : Nat :=
  if safetyState s = stNotReady then rsNotReady
  else if anySet 1 s || anySet 2 s || anySet 3 s || s.spr.clearHold then rsFault
  else if !copyIntact c || bitOf 6 (nth c.header 11 0) then rsHeader
  else if !timeOk c s then rsTime
  else if cfgField 3 31 0 50000 s * 1000 < nth c.header 8 0 then rsAge
  else if tapBad s then rsTap
  else if !egoCheck c s then rsEgo
  else controlReason c s

/-! ## The verdict (R313, R314, R334) -/

/-- The channels whose status words are UNSYNC in a header. -/
def unsyncMask (h : List Nat) : Nat :=
  ((List.range 32).filter (fun n => nth h (32 + n) 0 % 4 == 3)).foldl (fun a n => a + 2 ^ n) 0

/-- A verdict is rendered for a copy. -/
def render (c : SprCopy) (reason : Nat) (s0 : State) : State :=
  let s := sprFollow s0
  let valid := reason == 0
  let word := b2n valid + 2 * b2n (fbit s SPR_STATE SPR_STATE_FAULT_PIN) + 256 * reason
  let s1 := bumpBy (fset s SPR_STATE SPR_STATE_LAST_REASON reason) (SPR_REASON reason) fWord 1
  let s2 := fset (fset s1 SPR_VERDICT SPR_VERDICT_VERDICT word) SPR_VERDICT SPR_VERDICT_COUNT (fget s SPR_VERDICT SPR_VERDICT_COUNT + 1)
  let s3 := fset (fset s2 SPR_SEQ fWord (copySeq c)) SPR_TOV fWord (copyTov c)
  let s4 := if valid then fset (updSpr (fun p => { p with
      validAt := some p.now, plan := some ⟨copyTov c, c.inputs, copyNu c, p.now⟩ }) s3) SPR_STATE SPR_STATE_VALID_PIN 1
    else validLow s3
  let s5 := updSpr (fun p => { p with
    flags := nth c.header 11 0 % 65536
    solve := nth c.control 0 0 % 16 + 16 * (copyStages c % 16)
    prev := if copyIntact c then some (copySeq c, copyTov c) else p.prev
    verdicts := (⟨copySeq c, valid, unsyncMask c.header, p.now⟩ :: p.verdicts).take 16 }) s4
  let s6 := { s5 with bridgeDown := s5.bridgeDown ++ [.verdict (copySeq c) word (faultSum s5)] }
  retireWin (copySeq c) (updWin (copySeq c) (fun w => { w with rendered := true }) s6)

/-- When the slice of a copy started by the Spire's timer; a slice that the watchdogs no longer hold counts as started
before anything that has ended. -/
def copyStart (c : SprCopy) (s : State) : Nat :=
  match s.spr.slices.find? (fun w => w.seq == copySeq c) with | some w => w.start | none => 0

/-- JUDGE judges the oldest waiting copy. -/
def judge (s : State) : State :=
  match s.spr.copies with
  | [] => s
  | c :: rest =>
    let s1 := goldCheck c (clearS1 (copyStart c s) (updSpr (fun p => { p with copies := rest }) s))
    let reason := judgeReason c s1
    let s2 := if reason = rsSolver ∧ nth c.control 0 0 % 16 = svBadInput then latchFault 28 false none s1 else s1
    render c reason s2

/-! ## Tap points (R329) -/

/-- A little-endian or big-endian field of a point. -/
def tapField (i off n : Nat) (pt : List Nat) (s : State) : Nat := readField (bitOf 5 (cfgWord (42 + 4 * i) s)) (slice off n pt)

/-- A coordinate of a point in metres. -/
def tapCoord (i lo : Nat) (pt : List Nat) (s : State) : FpVal :=
  let w := tapField i (natField (lo + 7) lo (cfgWord (41 + 4 * i) s)) 4 pt s
  let f := cfgWord (42 + 4 * i) s
  if bitOf 0 f then fpDecode fp32 w else .num ((signed 32 w : Rat) * (natField 31 16 f : Rat) / (10 ^ 6 : Nat))

/-- The point's time in 2⁻¹⁶ ns, by the Belfry and TOFF, with the accepted time offset. -/
def tapTime (i stamp : Nat) (pt : List Nat) (s : State) : Int :=
  let f := cfgWord (42 + 4 * i) s
  let rel := tapField i (natField 31 24 (cfgWord (41 + 4 * i) s)) (if bitOf 2 f then 8 else 4) pt s
  ((stamp + rel * nth [1, 10, 100, 1000] (natField 4 3 f) 1 * 2 ^ 16 : Nat) : Int)
    + signed 32 (cfgWord (43 + 4 * i) s) * 2 ^ 14 + ratFree ((nth s.spr.corr i noCorr).2.2 * (65536 : Nat))

/-- The Spire's copy of a channel's extrinsic applied to a point. -/
def tapExtrinsic (i : Nat) (x : List Rat) (s : State) : List Rat :=
  let a := 72 + 7 * i
  let q := (List.range 4).map (fun k => (signed 32 (cfgWord (a + k) s) : Rat) / (2 ^ 30 : Nat))
  let t := (List.range 3).map (fun k => (signed 32 (cfgWord (a + 4 + k) s) : Rat) / (10 ^ 6 : Nat))
  let c := nth s.spr.corr i noCorr
  vadd (qrot q (vadd (qrot c.1 x) c.2.1)) t

/-- A selected tap point arrives; its time is placed on the Spire's timer by the newest tick. -/
def tapPoint (i stamp : Nat) (pt : List Nat) (s : State) : State :=
  let cs := [tapCoord i 0 pt s, tapCoord i 8 pt s, tapCoord i 16 pt s]
  if !cfgHeld s || cs.contains .nan then s
  else
    let x := tapExtrinsic i (cs.map coordNum) s
    let t := tapTime i stamp pt s / 2 ^ 16
    let at_ : Int := match s.spr.ticks with
      | (k, l) :: _ => (k : Int) + divFree (linDiff (unsigned 32 t) l * 2) 5
      | [] => s.spr.now
    updSpr (fun p => { p with points := p.points ++ [⟨p.now, at_, vget x 0, vget x 1, if cs.all coordFinite then vget x 2 else -1⟩] }) s

/-- Whether fewer than FS_MIN_RATE points per second have arrived over the last 100 ms of a run. -/
def fewPoints (s : State) : Bool :=
  match s.spr.startAt with
  | some t => decide (cycMs 100 ≤ s.spr.now - t) && decide ((s.spr.points.length : Nat) * 10 < cfgMinRate s)
  | none => false

/-! ## Own inputs (R328) -/

/-- A field of an IMU read, as the configuration's IMU format places it. -/
def sprImuField (w lo : Nat) (bytes : List Nat) (s : State) : Option Int :=
  let g := cfgWord 34 s
  let n := if bitOf 24 g then 4 else 2
  let off := natField (lo + 7) lo w
  if off + n ≤ bytes.length then some (signed (8 * n) (readField (bitOf 25 g) (slice off n bytes))) else none

/-- An axis of B from three raw fields. -/
def sprAxis (lo : Nat) (raw : List Int) (s : State) : Int :=
  let m := natField (lo + 2) lo (cfgWord 38 s)
  (if 4 ≤ m then -1 else 1) * nth raw (m % 4) 0

/-- The Spire reads its IMU. At standstill the bias is corrected by an estimate that the manual does not give. -/
def sprImu (bytes : List Nat) (s : State) : State :=
  let fields (w : Nat) : List (Option Int) := [sprImuField w 0 bytes s, sprImuField w 8 bytes s, sprImuField w 16 bytes s]
  let g := (fields (cfgWord 34 s)).filterMap id
  let a := (fields (cfgWord 35 s)).filterMap id
  if !cfgHeld s || g.length ≠ 3 || a.length ≠ 3 then s
  else
    let nano : Rat := (10 ^ 9 : Nat)
    let yaw : Rat := (sprAxis 8 g s : Rat) * (cfgWord 36 s : Rat) / nano
    let acc (lo : Nat) : Rat := (sprAxis lo a s : Rat) * (cfgWord 37 s : Rat) / nano
    let s1 := updRefs (fun r => { r with imuAt := s.spr.now, yaw := yaw, ax := acc 0, ay := acc 4 }) (condEnd 33 s)
    if standstill s then updRefs (fun r => { r with bias := Config.freeRat (drawFree s1).1 }) (drawFree s1).2 else s1

/-- A CAN FD frame brings the speeds of the wheels whose entries it matches. -/
def sprWheel (ident : Nat) (data : List Nat) (s : State) : State :=
  (List.range 4).foldl (fun s k =>
    let a := cfgWord (26 + 2 * k) s
    let b := cfgWord (27 + 2 * k) s
    let off := natField 7 0 b
    if !cfgHeld s || !wheelUsed k s || natField 28 0 a != ident || decide (data.length < off + 2) then s
    else
      let v : Rat := (signed 16 (readField (bitOf 8 b) (slice off 2 data)) * signed 16 (natField 31 16 b) : Int) / (1000 : Nat)
      updRefs (fun r => { r with wheels := setNth r.wheels k (some (s.spr.now, v)) }) s) s

/-- TAP: v_s is formed anew, by a rule the manual does not give, and the point rate is judged. -/
def tapTask (s : State) : State :=
  let s1 := updSpr (fun p => if p.tapsOwed.isEmpty then { p with taps := p.taps + 1 } else { p with tapsOwed := p.tapsOwed.drop 1 }) s
  if !cfgHeld s then s1
  else follow 35 (fewPoints s) (updRefs (fun r => { r with vs := Config.freeRat (drawFree s1).1 }) (drawFree s1).2)

/-! ## Calibration (R333) -/

/-- A 16-bit half of words 22 to 24, or the reset value that R175 gives. -/
def calCfg (i hi lo dflt : Nat) (s : State) : Rat := (cfgField i hi lo dflt s : Rat)

/-- A field's reset value. -/
def resetField (a : Nat) (f : Bits) : Nat := getBits f (resetWord a)

/-- Whether a step is within STEP plus 1%, and the correction with it within BOUND. -/
def calWithin (rot trans : List Rat) (dt : Rat) (sum : List Rat × List Rat × Int) (s : State) : Bool :=
  let sr := calCfg 22 15 0 (resetField CAM_CAL_STEP CAM_CAL_STEP_STEP_ROT) s / 1000 * 101 / 100
  let st := calCfg 22 31 16 (resetField CAM_CAL_STEP CAM_CAL_STEP_STEP_TRANS) s / 1000 * 101 / 100
  let sd := calCfg 23 15 0 (resetField CAM_CAL_STEP_T CAM_CAL_STEP_T_STEP_T) s * 101 / 100
  let br := calCfg 23 31 16 (resetField CAM_CAL_BOUND CAM_CAL_BOUND_BOUND_ROT) s / 1000
  let bt := calCfg 24 15 0 (resetField CAM_CAL_BOUND CAM_CAL_BOUND_BOUND_TRANS) s * (10 ^ 6 : Nat)
  let bd := calCfg 24 31 16 (resetField CAM_CAL_BOUND_T CAM_CAL_BOUND_T_BOUND_T) s * 4000
  decide (vsq rot ≤ sr * sr ∧ vsq trans ≤ st * st ∧ ratAbs dt ≤ sd ∧ vsq sum.1 ≤ br * br
    ∧ ratAbs (sum.2.2 : Rat) ≤ bd) && sum.2.1.all (fun x => decide (ratAbs x ≤ bt))

/-- An accepted step enters the Spire's own extrinsic of a tapped channel. -/
def calOwn (sensor : Nat) (rot trans : List Rat) (dt : Rat) (s : State) : State :=
  if 16 ≤ sensor ∧ sensor < 24 ∧ bitOf (sensor - 16) (cfgWord 39 s) then
    let q := Config.rotExp (rot.map (fun d => Config.degToNrad d / (10 ^ 9 : Nat)))
    let c := nth s.spr.corr (sensor - 16) noCorr
    let c1 := (qmul q c.1, vadd (qrot q c.2.1) (vscale (1 / (1000 : Nat)) trans), c.2.2 + dt)
    updSpr (fun p => { p with corr := setNth p.corr (sensor - 16) c1 }) s
  else s

/-- CAL judges the oldest proposal whose slice has its verdict, and replies. A proposal's message whose count or CRC is
wrong sets BRIDGE, and no proposal is there to judge (R324). -/
def calJudge (intact : Bool) (s : State) : State :=
  let judged (q : Nat) : Bool := s.spr.verdicts.any (fun v => v.seq == q)
  match takeUp (fun m => match m with | .calStep q .. => judged q | _ => false) s with
  | (some (.calStep q n rot shift dt _ sum), s1) => if !intact then latchFault 5 false none s1 else
    let v := (s1.spr.verdicts.find? (fun v => v.seq == q)).getD ⟨q, false, 0, 0⟩
    let yes := cfgHeld s1 && calWithin rot shift dt sum s1 && v.valid && !bitOf n v.unsync
    let s2 := if yes then calOwn n rot shift dt s1 else s1
    { s2 with bridgeDown := s2.bridgeDown ++ [.calReply q n yes] }
  | _ => s

end Sys2Proof.Machine
end

