-- ==== Sys2Proof/Machine/SpireCmds.lean ====
section
/-! DEFINITION. The Spire's events, the Verdict port and the safety opcodes (R314 to R316, R323 to R354, R365, R438,
R470). -/
namespace Sys2Proof.Machine

/-! ## Arrivals over the bridge -/

/-- The oldest message of a kind reaches the Spire; a message whose count or CRC is wrong sets BRIDGE instead (R324). -/
def arrive (dt : Nat) (intact : Bool) (kind : UpMsg → Bool) (f : UpMsg → State → State) : State → State :=
  sprAfter dt (fun s =>
    match takeUp kind s with
    | (some m, s1) => if intact then f m s1 else latchFault 5 false none s1
    | (none, _) => s)

/-- SLICE_TICK. -/
def rxTick (dt : Nat) (ok : Bool) : State → State :=
  arrive dt ok (fun m => match m with | .tick .. => true | _ => false)
    (fun m s => match m with | .tick l n => sliceTick l n s | _ => s)

/-- STAGE_KICK. -/
def rxKick (dt : Nat) (ok : Bool) : State → State :=
  arrive dt ok (fun m => match m with | .kick .. => true | _ => false)
    (fun m s => match m with | .kick n q => stageKick n q s | _ => s)

/-- FAULT_REPORT: RECOVERY and OUT_OF_SERVICE last until they are reported over (R337, R383). -/
def rxFault (dt : Nat) (ok : Bool) : State → State :=
  arrive dt ok (fun m => match m with | .fault .. => true | _ => false)
    (fun m s => match m with | .fault b u => latchFault b (b == 37 || b == 38) (some u) s | _ => s)

/-- TAP_POINT_RX. -/
def rxPoint (dt : Nat) (ok : Bool) : State → State :=
  arrive dt ok (fun m => match m with | .tapPoint .. => true | _ => false)
    (fun m s => match m with | .tapPoint i t bs => tapPoint i t bs s | _ => s)

/-- ABANDON_NOTICE: the slice's windows close without firing, and it gets no verdict (R373). -/
def rxAbandon (dt : Nat) (ok : Bool) : State → State :=
  arrive dt ok (fun m => match m with | .abandon .. => true | _ => false)
    (fun m s => match m with
      | .abandon q => (s.spr.slices.filter (fun w => w.seq == q)).foldl dropWin
          (updSpr (fun p => { p with copies := p.copies.filter (fun c => copySeq c != q) }) s)
      | _ => s)

/-- Whether an L0 or L1 has begun whose reset has not asserted yet. -/
def resetAhead (s : State) : Bool :=
  s.rcv.any (fun r => decide (r.level ≤ 1) && (r.step == .fence || r.step == .drain || r.step == .capture))

/-- RESET_NOTICE: the tick check is suspended until a tick that follows the reset, windows close without firing, and every
scope counts as locked (R365, R438). A notice may arrive when its reset has already asserted. -/
def noticed (s : State) : State :=
  updSpr (fun p => { p with suspended := true, sawReset := !resetAhead s, scopes := 0 }) (s.spr.slices.foldl dropWin s)

def rxNotice (dt : Nat) (ok : Bool) : State → State :=
  arrive dt ok (fun m => match m with | .resetNotice => true | _ => false) (fun _ s => noticed s)

/-- RECOVERY_COMPLETE_REPORT: the requests that the reset answers have been completed, and RECOVERY's condition ends; an L0 or
L1 completes every request and also ends OUT_OF_SERVICE (R322, R337, R383). -/
def recovered (level : Nat) (asked : List Nat) (s : State) : State :=
  let clear (f : SprBit → SprBit) (s : State) (b : Nat) : State := if f (bitNote b s) = bitNote b s then s else updBit b f s
  if level ≤ 1 then
    [37, 38].foldl (clear (fun n => { n with conds := 0 })) ((List.range 40).foldl (clear (fun n => { n with pends := 0 })) s)
  else condEnd 37 (asked.foldl (clear (fun n => { n with pends := n.pends - 1 })) s)

def rxRecovered (dt : Nat) (ok : Bool) : State → State :=
  arrive dt ok (fun m => match m with | .recoveryDone .. => true | _ => false)
    (fun m s => match m with | .recoveryDone l bits => recovered l bits s | _ => s)

/-- The Spire takes a low FREEZE_n on its own input while FREEZE is unlocked: VALID and FAULT_n are forced low and the
core clock stops, so that VP_D is high impedance (R437 to R439). -/
def spireFreeze (s : State) : State :=
  if s.pwr.freezeIn && bitOf 1 s.spr.scopes then { updSpr (fun p => { p with forced := true }) s with vpData := none } else s

/-- SCOPE_REPORT. -/
def rxScopes (dt : Nat) (ok : Bool) : State → State :=
  arrive dt ok (fun m => match m with | .scopes .. => true | _ => false)
    (fun m s => match m with | .scopes k => spireFreeze (updSpr (fun p => { p with scopes := k }) s) | _ => s)

/-- The golden values of a slice, when their message has arrived by now; one whose count or CRC is wrong sets BRIDGE, and
none of its values has arrived (R324, R344). -/
def takeGold (seq : Nat) (goldOk : Bool) (s : State) : Option SprGold × State :=
  match takeUp (fun m => match m with | .gold n .. => n == seq | _ => false) s with
  | (some (.gold _ rot clear vs), s1) =>
    if goldOk then (some ⟨rot, clear, vs⟩, s1) else (some ⟨rot, clear, []⟩, latchFault 5 false none s1)
  | _ => (none, s)

/-- HEADER_COPY_RX: the copy, with the golden values of its slice that have arrived by then, releases JUDGE (R324,
R344). -/
def rxHeader (dt : Nat) (ok goldOk : Bool) : State → State :=
  arrive dt ok (fun m => match m with | .header .. => true | _ => false)
    (fun m s => match m with
      | .header h e c u =>
        let g := takeGold (nth h 2 0 + 2 ^ 32 * nth h 3 0) goldOk s
        updSpr (fun p => { p with lastCopy := some p.now, copies := p.copies ++ [⟨h, e, c, u, g.1, p.now⟩] }) g.2
      | _ => s)

/-! ## Tasks (R325, R346, R347) -/

/-- Whether a task of d cycles ends before ToV + JUDGE_GUARD of every slice whose verdict is not rendered. -/
def guardOk (d : Nat) (s : State) : Bool :=
  s.spr.slices.all (fun w =>
    w.rendered || decide (s.spr.now + d < w.start + cycNs w.len + cycUs (cfgGuard s)))

/-- The tasks but TICK and JUDGE, by their place in the table of R325. -/
def tkTap : Nat := 2
def tkCal : Nat := 3
def tkStatus : Nat := 4

/-- The execution of a task at most, in cycles. -/
def taskCycles (k : Nat) : Nat := cycUs (if k = tkTap then 12 else if k = tkCal then 40 else 6)

/-- When the oldest task of a kind that waits was released. -/
def released (k : Nat) (s : State) : Option Nat :=
  if k = tkTap then
    match s.spr.tapsOwed with
    | t :: _ => some t
    | [] => if s.spr.taps < tapsDue s then some (tapRelease s.spr.taps s) else none
  else if k = tkCal then
    lowest (s.bridgeUp.flatMap (fun m => match m with
      | .calStep q .. => (s.spr.verdicts.filter (fun v => v.seq == q)).map (fun v => v.at_)
      | _ => []))
  else
    let t := (s.spr.statuses + 1) * cycMs 10
    if t ≤ s.spr.now then some t else none

/-- Whether a released task k is ahead of another: in release order, simultaneous releases in the order of the table. -/
def taskAhead (s : State) (k j : Nat) : Bool :=
  match released k s, released j s with
  | some a, some b => decide (a < b ∨ a = b ∧ k ≤ j)
  | some _, none => true
  | none, _ => false

/-- Whether a released task may start: no JUDGE waits, it ends before the guarded intervals, and it is ahead of every
other released task that may start. One held back by the guard keeps its place and holds up no other (DEDUCED, log
entry 93). -/
def taskMay (k : Nat) (s : State) : Bool :=
  s.spr.copies.isEmpty && guardOk (taskCycles k) s
    && [tkTap, tkCal, tkStatus].all (fun j => !guardOk (taskCycles j) s || taskAhead s k j)

/-- Whether a released task could start now. -/
def taskWaits (s : State) : Bool := [tkTap, tkCal, tkStatus].any (fun j => (released j s).isSome && guardOk (taskCycles j) s)

/-- JUDGE. -/
def runJudge (dt : Nat) : State → State := sprMeet dt judge

/-- TAP_TASK, once a release is due. -/
def runTap (dt : Nat) : State → State :=
  sprAfter dt (fun s => if taskMay tkTap s then tapTask s else s)

/-- CAL_JUDGE. -/
def runCal (dt : Nat) (intact : Bool) : State → State := sprAfter dt (fun s => if taskMay tkCal s then calJudge intact s else s)

/-- SPIRE_STATUS_TASK: every 10 ms; the frame goes out once READY, when STATUS_EN is set (R353). -/
def runStatus (dt : Nat) : State → State :=
  sprAfter dt (fun s =>
    if taskMay tkStatus s then
      let s1 := updSpr (fun p => { p with statuses := p.statuses + 1 }) s
      if sprReady s && bitOf 31 (cfgWord 25 s) then
        emit (.spireCan (natField 28 0 (cfgWord 25 s))
          [safetyState s, faultSum s % 2 ^ 32, fget s SPR_CFG_CRC fWord, fget s SPR_GOLD_CRC fWord]) s1
      else s1
    else s)

/-- The quanta of each self-test group (R346): LOCKSTEP, CPU, SRAM, BRIDGE, TIMERS, PINS, PORTS, VERDICT. -/
def groupQuanta : List Nat := [8, 64, 512, 8, 16, 4, 16, 4]

/-- The group whose last quantum is quantum q of a pass. -/
def groupEnding (q : Nat) : Option Nat :=
  (List.range 8).find? (fun g => decide (((groupQuanta.take (g + 1)).foldl (· + ·) 0) = q + 1))

/-- The interval between two successive passes of a group (R348). -/
def groupInterval (d : Nat) (s : State) : State :=
  let a := SPR_SELFTEST
  let s1 := fset s a SPR_SELFTEST_MAX_MS (max (fget s a SPR_SELFTEST_MAX_MS) (clampNat 255 (divFree d (cycMs 10)).toNat))
  if cycMs 1000 < d then latchFault 36 false none (bumpBy s1 a SPR_SELFTEST_EXCESS 1) else s1

/-- A group's pass completes. -/
def groupPass (g : Nat) (s : State) : State :=
  let s1 := match nth s.spr.groupDone g none with | some t => groupInterval (s.spr.now - t) s | none => s
  updSpr (fun p => { p with groupDone := setNth p.groupDone g (some p.now) }) s1

/-- A quantum that passes moves on; the last one completes a full pass. -/
def quantumPass (s : State) : State :=
  let s1 := match groupEnding s.spr.quantum with | some g => groupPass g s | none => s
  if s.spr.quantum + 1 < 632 then updSpr (fun p => { p with quantum := p.quantum + 1 }) s1
  else fset (updSpr (fun p => { p with quantum := 0, tested := true }) s1) SPR_SELFTEST SPR_SELFTEST_PASSES
    (fget s1 SPR_SELFTEST SPR_SELFTEST_PASSES + 1)

/-- Whether a quantum fits: before the next TAP release and the next expected tick, as R325 asks, and after every released
task that may start. -/
def quantumMay (s : State) : Bool :=
  let e := s.spr.now + cycUs 20
  s.spr.copies.isEmpty && guardOk (cycUs 20) s && !taskWaits s && (match s.spr.ticks with
    | (t, _) :: _ =>
      let exp := t + cycNs (s.spr.len - cfgTickTol s)
      let next := t + tapsDue s * cycUs 125
      (s.spr.missed || s.spr.suspended || decide (e < exp)) && (tapsDue s == (if s.spr.len = 500000 then 4 else 8) || decide (e < next))
    | [] => true)

/-- SELFTEST_QUANTUM: a failed quantum sets SPIRE_SELFTEST, a CRC mismatch at its read-back of the configuration or the
golden image sets CONFIG (R336, R346). -/
def runQuantum (dt : Nat) (pass readback : Bool) : State → State :=
  sprAfter dt (fun s =>
    if !quantumMay s then s
    else
      let s1 := updSpr (fun p => { p with now := p.now + cycUs 20 }) s
      let s2 := if readback then s1 else latchFault 39 false none s1
      if pass then quantumPass s2 else latchFault 2 false none s2)

/-! ## The Verdict port (R314 to R316) -/

/-- One bit of CRC-16. -/
def crc16Bit (c : Nat) : Nat := if 0x8000 ≤ c then (c * 2 % 65536) ^^^ 0x1021 else c * 2

/-- CRC-16 over bytes: polynomial 0x1021, initial 0xFFFF, not reflected, no final XOR (R316). -/
def crc16 (bs : List Nat) : Nat :=
  bs.foldl (fun c b => crc16Bit (crc16Bit (crc16Bit (crc16Bit (crc16Bit (crc16Bit (crc16Bit (crc16Bit (c ^^^ (b % 256 * 256)))))))))) 0xFFFF

/-- Words 0x00 to 0x0F as they stand. -/
def portWords (s : State) : List Nat :=
  let f := faultSum s
  let q := fget s SPR_SEQ fWord
  let t := fget s SPR_TOV fWord
  let ws := [fget s SPR_VERDICT SPR_VERDICT_VERDICT, q % 65536, q / 65536, t % 65536, t / 65536,
    f % 65536, f / 2 ^ 16 % 65536, f / 2 ^ 32 % 65536, f / 2 ^ 48 % 65536, fget s SPR_VERDICT SPR_VERDICT_COUNT,
    s.spr.flags, s.spr.solve, 0, 0, 0]
  ws ++ [crc16 (ws.flatMap (fun w => [w / 256, w % 256]))]

/-- HEARTBEAT: once every 10 µs of the Spire's clock. -/
def heartbeat (s : State) : Nat := s.spr.now / cycUs 10 % 65536

/-- VP_READ. A read of 0x00 latches the block. -/
def vpRead (dt addr : Nat) : State → State :=
  sprAfter dt (fun s =>
    let s1 := if addr = 0 then updSpr (fun p => { p with latch := some (portWords s) }) s else s
    let v := if addr < 16 then nth (s1.spr.latch.getD (portWords s)) addr 0
      else if addr = 0x10 then fget s SPR_VERDICT SPR_VERDICT_VERDICT
      else if addr = 0x11 then heartbeat s
      else if addr = 0x3E then 0x8740
      else if addr = 0x3F then 1 else 0
    { s1 with vpData := some v })

/-! ## Resets and hardware faults -/

/-- The Spire die is reset: what it holds and the SPR region take their reset values, and messages in flight are lost.
The sequencer's copy of GOLD_RES returns to its default while no configuration is held (R357, R470). -/
def spireReset (s : State) : State :=
  sprNotice s { s with
    spr := SpireState.reset
    bridgeUp := []
    bridgeDown := []
    goldRes := 34500
    regs := cellsClear (fun a => decide (0x00C00000 ≤ a ∧ a < 0x00D00000)) s.regs }

/-- SPIRE_HARDWARE_FAULT. -/
def hardFault (dt : Nat) (b : Nat) : State → State := sprAfter dt (latchFault b false none)

/-! ## The safety opcodes (R354) -/

/-- A command relayed to the Spire; a Spire without power or in reset never answers. Its pins and mirror follow. -/
def relay (f : State → CmdOut) (s : State) : CmdOut :=
  if spireRuns s then (sprShow s (f s).1, (f s).2) else later s

/-- SAFE_STATUS. -/
def cmdSafeStatus (ps : List Nat) (s : State) : CmdOut :=
  withParams 0 ps (relay (fun s => ok ([SPR_STATE, SPR_VERDICT, SPR_FAULT_LO, SPR_FAULT_HI, SPR_GOLD, SPR_SELFTEST,
    SPR_CFG_CRC, SPR_GOLD_CRC].map (fun a => (rd s a).toNat)) s)) s

/-- A value that holds 0 or lies in a range. -/
def zeroOr (lo hi v : Nat) : Bool := v == 0 || decide (lo ≤ v ∧ v ≤ hi)

/-- Whether word i of a configuration passes validation (R352, R353). -/
def cfgWordOk (ws : List Nat) (i : Nat) : Bool :=
  let w := nth ws i 0
  let nx := natField 3 0 (nth ws 1 0)
  let lo := natField 15 0 w
  let hi := natField 31 16 w
  let fp := decide (128 ≤ i ∧ i < 384)
  let matrix := decide (176 ≤ i ∧ i < 368)
  let notAbove (a b : Nat) : Bool := match fpDecode fp32 a, fpDecode fp32 b with
    | .num x, .num y => decide (x ≤ y)
    | .inf false, .num _ => false
    | .inf false, .inf true => false
    | .num _, .inf true => false
    | _, _ => true
  (i != 0 || w == 0x53504346)
    && (i != 1 || (decide (1 ≤ nx ∧ nx ≤ 8) && decide (1 ≤ natField 8 4 w ∧ natField 8 4 w ≤ 16)
        && decide (natField 11 9 w < nx ∧ natField 14 12 w < nx)))
    && (i != 4 || (zeroOr 300 700 lo && zeroOr 600 5000 hi))
    && (i != 5 || (zeroOr 1000 50000 lo && zeroOr 125 1000 hi))
    && (!decide (12 ≤ i ∧ i < 20)
        || decide ((if lo = 0 then 1000 else lo) < (if hi = 0 then wwdClose (i - 12) else hi)))
    && (i != 20 || decide (natField 6 0 w ≤ 99))
    && (i != 22 || (decide (lo ≤ 20) && decide (hi ≤ 1000)))
    && (i != 23 || (decide (lo ≤ 1000) && decide (hi ≤ 2000)))
    && (i != 24 || (decide (lo ≤ 100) && decide (hi ≤ 1000)))
    && (!fp || !fpIsNan fp32 w) && (!matrix || fpFinite fp32 w)
    && (!decide (128 ≤ i ∧ i < 144) || notAbove w (nth ws (i + 16) 0))
    && (!decide (368 ≤ i ∧ i < 376) || notAbove w (nth ws (i + 8) 0))
    && (!decide (384 ≤ i) || (List.range 4).all (fun k =>
        decide (nx ≤ 4 * (i - 384) + k) || decide (w / 256 ^ k % 256 ≤ 4)))

/-- The failing word that SAFE_CONFIG reports: the first missing or excess word of a block of another length, else the
first word that fails validation. -/
def cfgFailing (ws : List Nat) : Option Nat :=
  if ws.length = 386 then (List.range 386).find? (fun i => !cfgWordOk ws i) else some (min ws.length 386)

/-- The Spire drops the configuration it holds. -/
def dropConfig (s : State) : State :=
  let s1 := forUpTo 8 (fun n s => wr s (SPR_WWD_WIN n) 0) (wr s SPR_CFG_CRC 0)
  { updSpr (fun p => { p with config := [] }) s1 with goldRes := 34500 }

/-- The Spire takes a configuration; its references and the corrections of its extrinsics start afresh. -/
def takeConfig (ws : List Nat) (s : State) : State :=
  let s1 := updSpr (fun p => { p with
    config := ws, refs := { SprRefs.reset with imuAt := p.now, since := p.now }, points := [], corr := List.replicate 8 noCorr }) s
  let s2 := forUpTo 8 (fun n s => fset (fset s (SPR_WWD_WIN n) SPR_WWD_WIN_OPEN (cfgOpen n s)) (SPR_WWD_WIN n) SPR_WWD_WIN_CLOSE
    (cfgClose n s)) s1
  let s3 := [33, 34, 35].foldl (fun s b => condEnd b s) (fset s2 SPR_CFG_CRC fWord (crc32c (bytesOfWords ws)))
  { s3 with goldRes := cfgField 21 31 0 34500 s3 }

/-- SAFE_CONFIG: a configuration that fails validation leaves none held (R320, R353, R470). -/
def cmdSafeConfig (ps : List Nat) : State → CmdOut :=
  relay (fun s =>
    match cfgFailing ps with
    | some i => (dropConfig s, some ⟨stParam, [i]⟩)
    | none =>
      if running s then fail stBusy s
      else ok [crc32c (bytesOfWords ps)] (takeConfig ps s))

/-- The content checks of a golden image (R202, R354): FUSE items alone, and every variant's FUSE path within GOLD_RES. -/
def goldImageOk (w : WorkList) (s : State) : Bool :=
  (wlReasons w s).isEmpty && (wlVariants w s).all (fun v =>
    decide (wlPath w v sgFuse s ≤ s.goldRes)
      && (List.range (wlCount w v s)).all (fun i => itStage (wlItem w v i s) == sgFuse))

/-- A golden image that fails its checks leaves none held (R320). -/
def goldReject (st : Nat) (s : State) : CmdOut := (fset s SPR_GOLD SPR_GOLD_LOADED 0, some ⟨st, []⟩)

/-- GOLD_LOAD, in the stages of R473. -/
def cmdGoldLoad (ps : List Nat) (s : State) : CmdOut :=
  withParams 4 ps (relay (fun s =>
    let w : WorkList := ⟨nth ps 0 0 + 2 ^ 32 * nth ps 1 0, nth ps 2 0, 0⟩
    if w.len = 0 ∨ 2 ^ 21 < w.len ∨ placeBad w.addr w.len s then goldReject stParam s
    else if running s then fail stBusy s
    else if w.len < 4 ∨ crc32c (getBytes s.lpddr w.addr (w.len - 4)) ≠ nth ps 3 0
        ∨ ofBytes (getBytes s.lpddr (w.addr + w.len - 4) 4) ≠ nth ps 3 0 then goldReject stCrc s
    else if !goldImageOk w s then goldReject stParam s
    else
      let s1 := fset (fon s SPR_GOLD SPR_GOLD_LOADED) SPR_GOLD_CRC fWord (nth ps 3 0)
      ok [8, nth ps 3 0] (goldPlan 0 false 0 (updSpr (fun p => { p with recheck := none }) (condEnd 29 s1))))) s

/-- SAFE_CLEAR: the masked A and S2 bits whose conditions have ended clear, and a golden run is forced. HOLD lasts until
that run passes. -/
def cmdSafeClear (ps : List Nat) (s : State) : CmdOut :=
  withParams 2 ps (relay (fun s =>
    if safetyState s = stSpireFail ∨ !fbit s SPR_GOLD SPR_GOLD_LOADED then fail stNoResource s
    else
      let m := nth ps 0 0 + 2 ^ 32 * nth ps 1 0
      let goes (b : Nat) : Bool := bitOf b m && (faultCat b s == 4 || faultCat b s == 2) && (bitNote b s).conds == 0
      let hold := anySet 2 s || s.spr.clearHold
      let s1 := clearBits goes s
      let s2 := updSpr (fun p => { p with clearHold := hold, goldS2 := p.goldS2 && !goes 29 }) s1
      let s3 := if s2.goldClear then s2 else showGold { s2 with goldForced := s2.goldForced + 1, goldClear := true }
      ok [faultSum s3 % 2 ^ 32, faultSum s3 / 2 ^ 32] s3)) s

/-- Whether SAFE_PIN_TEST and SAFE_INJECT are turned away: not IDLE, or a header copy in the last 100 ms. -/
def pinsBusy (s : State) : Bool :=
  runState s != stIdle || (match s.spr.lastCopy with | some t => decide (s.spr.now < t + cycMs 100) | none => false)

/-- SAFE_PIN_TEST: each level is driven in turn, and all four read back. -/
def cmdSafePinTest (ps : List Nat) (s : State) : CmdOut :=
  withParams 0 ps (relay (fun s =>
    if pinsBusy s then fail stBusy s
    else ok [15] (emit (.pinTest false false) (emit (.pinTest false true) (emit (.pinTest true false)
      (emit (.pinTest true true) s)))))) s

/-- SAFE_INJECT. -/
def cmdSafeInject (ps : List Nat) (s : State) : CmdOut :=
  withParams 1 ps (relay (fun s =>
    let b := nth ps 0 0
    if b < 5 ∨ 39 < b ∨ faultCat b s = 0 then fail stParam s
    else if pinsBusy s then fail stBusy s
    else ok [] (latchFault b false none s))) s

/-! ## Commands -/

def execVpRead (dt : Nat) (addr : Fin 64) (s : State) : Host.Outcome State Fault Refusal :=
  .next (if spireRuns s then vpRead dt addr s else { s with vpData := none })
/-- The timer reaches the next multiple of 10 µs. -/
def execVpHeartbeat (s : State) : Host.Outcome State Fault Refusal :=
  onSpire (fun s => sprReach (some ((s.spr.now / cycUs 10 + 1) * cycUs 10)) s) s
def execSliceTick (dt : Nat) (intact : Bool) (s : State) : Host.Outcome State Fault Refusal := onSpire (rxTick dt intact) s
def execTickMissing (s : State) : Host.Outcome State Fault Refusal :=
  onSpire (fun s => sprReach (if s.spr.suspended || s.spr.missed then none else s.spr.ticks.head?.map (fun k => tickLimit k.1 s)) s) s
def execHeaderCopyRx (dt : Nat) (intact goldIntact : Bool) (s : State) : Host.Outcome State Fault Refusal :=
  onSpire (rxHeader dt intact goldIntact) s
def execJudge (dt : Nat) (s : State) : Host.Outcome State Fault Refusal := onSpire (runJudge dt) s
def execTapTask (dt : Nat) (s : State) : Host.Outcome State Fault Refusal := onSpire (runTap dt) s
def execCalJudge (dt : Nat) (intact : Bool) (s : State) : Host.Outcome State Fault Refusal := onSpire (runCal dt intact) s
def execSpireStatusTask (dt : Nat) (s : State) : Host.Outcome State Fault Refusal := onSpire (runStatus dt) s
def execSelftestQuantum (dt : Nat) (pass readback : Bool) (s : State) : Host.Outcome State Fault Refusal :=
  onSpire (runQuantum dt pass readback) s
def execSpireImuSample (dt : Nat) (bytes : List Nat) (s : State) : Host.Outcome State Fault Refusal :=
  onSpire (sprAfter dt (sprImu bytes)) s
def execSpireWheelFrame (dt ident : Nat) (data : List Nat) (s : State) : Host.Outcome State Fault Refusal :=
  onSpire (sprAfter dt (sprWheel ident data)) s
def execTapImuTimeout (s : State) : Host.Outcome State Fault Refusal :=
  onSpire (fun s => sprReach (if cfgHeld s && (bitNote 33 s).conds == 0 then some (s.spr.refs.imuAt + cycUs (4 * cfgImuPeriod s))
    else none) s) s
def execTapWheelDisagree (s : State) : Host.Outcome State Fault Refusal :=
  onSpire (fun s => sprReach (if s.spr.refs.differs && !s.spr.refs.bad then some (s.spr.refs.since + cycMs 100) else none) s) s
def execTapPointRx (dt : Nat) (intact : Bool) (s : State) : Host.Outcome State Fault Refusal := onSpire (rxPoint dt intact) s
def execStageKick (dt : Nat) (intact : Bool) (s : State) : Host.Outcome State Fault Refusal := onSpire (rxKick dt intact) s
/-- The earliest CLOSE of a stage that has not kicked. -/
def execWwdCloseExpiry (s : State) : Host.Outcome State Fault Refusal :=
  onSpire (fun s => sprReach (earliest (s.spr.slices.flatMap (fun w => (List.range 8).map (fun n =>
    if bitOf n w.kicked || bitOf n w.late then none else some (winClose w n s))))) s) s
/-- The earliest CLOSE + L of a stage that has not kicked. -/
def execWwdResetTimeout (s : State) : Host.Outcome State Fault Refusal :=
  onSpire (fun s => sprReach (earliest (s.spr.slices.flatMap (fun w => (List.range 8).map (fun n =>
    if bitOf n w.kicked || bitOf n w.asked then none else some (winClose w n s + cycNs w.len))))) s) s
def execFaultReport (dt : Nat) (intact : Bool) (s : State) : Host.Outcome State Fault Refusal := onSpire (rxFault dt intact) s
def execValidHoldExpiry (s : State) : Host.Outcome State Fault Refusal :=
  onSpire (fun s => sprReach (s.spr.validAt.map (· + cycUs (cfgHold s))) s) s
def execAbandonNotice (dt : Nat) (intact : Bool) (s : State) : Host.Outcome State Fault Refusal := onSpire (rxAbandon dt intact) s
def execResetNotice (dt : Nat) (intact : Bool) (s : State) : Host.Outcome State Fault Refusal := onSpire (rxNotice dt intact) s
def execRecoveryCompleteReport (dt : Nat) (intact : Bool) (s : State) : Host.Outcome State Fault Refusal :=
  onSpire (rxRecovered dt intact) s
def execScopeReport (dt : Nat) (intact : Bool) (s : State) : Host.Outcome State Fault Refusal := onSpire (rxScopes dt intact) s
/-- The Spire's supply rises or RST_IN_n resets it; it runs again once the reset is over. -/
def execSpireReset (s : State) : Host.Outcome State Fault Refusal :=
  .next (spireReset { s with pwr := { s.pwr with spireUp := true } })
def execSpireHardwareFault (dt : Nat) (bit : Fin 5) (s : State) : Host.Outcome State Fault Refusal := onSpire (hardFault dt bit) s
def execSafeStatus (h : CmdHead) (ps : List Word) (s : State) : Host.Outcome State Fault Refusal := onCmd h 0x0801 cmdSafeStatus ps s
def execSafeConfig (h : CmdHead) (ps : List Word) (s : State) : Host.Outcome State Fault Refusal := onCmd h 0x0802 cmdSafeConfig ps s
def execGoldLoad (h : CmdHead) (ps : List Word) (s : State) : Host.Outcome State Fault Refusal := onCmd h 0x0803 cmdGoldLoad ps s
def execSafeClear (h : CmdHead) (ps : List Word) (s : State) : Host.Outcome State Fault Refusal := onCmd h 0x0804 cmdSafeClear ps s
def execSafePinTest (h : CmdHead) (ps : List Word) (s : State) : Host.Outcome State Fault Refusal := onCmd h 0x0805 cmdSafePinTest ps s
def execSafeInject (h : CmdHead) (ps : List Word) (s : State) : Host.Outcome State Fault Refusal := onCmd h 0x0806 cmdSafeInject ps s

end Sys2Proof.Machine
end

