-- ==== Sys2Proof/Machine/Recovery.lean ====
section
/-! DEFINITION. The reset controller: sources, fences, drain, capture, assertion, rebuild, replay, audit and escalation
(R356 to R388). -/
namespace Sys2Proof.Machine

/-! ## Sources (R359 to R361) -/

def srcPor : Nat := 0
def srcRstIn : Nat := 1
def srcSpire : Nat := 2
def srcCupola : Nat := 3
def srcThermal : Nat := 4
def srcSupply : Nat := 5
def srcTollis : Nat := 6
def srcJtag : Nat := 7
def srcFreezeExit : Nat := 8

/-- The default fuse entry of a source and whether a source allows an entry. -/
def fuseDefault (src : Nat) : Nat := nth [0, 0, 1, 0, 1, 1, 3, 0, 1] src 3
def fuseAllows (src e : Nat) : Bool :=
  if src = srcPor then e == 0
  else if src = srcSpire ∨ src = srcCupola then decide (e ≤ 3)
  else if src = srcTollis then decide (1 ≤ e ∧ e ≤ 3)
  else decide (e ≤ 1)

/-- The fused entry of a source; parts are fused within the allowed entries (DEDUCED, log entry 52). -/
def fuseEntry (src : Nat) : Nat :=
  let e := Config.fuseMap / 4 ^ src % 4
  if fuseAllows src e then e else fuseDefault src

/-- The sticky cause bit of a source's event (R363). -/
def setCause (src : Nat) (s : State) : State :=
  fset s RST_CAUSE RST_CAUSE_CAUSE (Nat.lor (fget s RST_CAUSE RST_CAUSE_CAUSE) (2 ^ src))

/-! ## Recoveries -/

/-- A recovery at its request. -/
def rcvNew (level src fault part flat : Nat) (s : State) : Recovery where
  level := level
  source := src
  fault := fault
  part := part
  flat := flat
  step := .fence
  since := upNs s
  fencedAt := time16 s
  fenceNs := upNs s
  holding := false
  holdFrom := upNs s
  replay := false
  suspects := []
  heads := []
  drained := 0
  errors := 0
  capture := none
  oldest := match s.slices with | r :: _ => r.seq | [] => 0
  faults := faultSum s
  test := false
  pinned := false
  thaws := false
  named := []
  asked := []

/-- Whether a recovery is still in progress, and whether its scope contains another's (R364). -/
def rcvActive (r : Recovery) : Bool := r.step != .done
def rcvCovers (a b : Recovery) : Bool :=
  decide (a.level ≤ b.level) && (decide (a.level ≤ 1) || (rcvFlats b).all (fun f => (rcvFlats a).contains f))

/-- Replace a recovery. -/
def rcvPut (old new : Recovery) (s : State) : State :=
  { s with rcv := s.rcv.map (fun r => if r = old then new else r) }

/-- The first recovery that satisfies a test. -/
def rcvFind (p : Recovery → Bool) (s : State) : Option Recovery := s.rcv.find? p

/-- The target of a recovery as the log and the capture name it. -/
def rcvTarget (r : Recovery) : Nat := if r.level = 3 then flatUnit r.flat else if r.level = 2 then r.part else 0

/-- A recovery passes to a step. -/
def rcvTo (r : Recovery) (st : RcvStep) (s : State) : State :=
  showRcv { r with step := st } (rcvPut r { r with step := st } s)

/-! ## Units in reset -/

/-- An ingress channel is reset: its banks are FREE, a flush has nothing left to do, and the packets that the consumer has
not used are lost, with the drops that their headers carried (R89, R99, R111, R372). The MAC and its tap go on (R97). -/
def ingReset (n : Nat) (s : State) : State :=
  let c := chGet n s
  let lost := ((c.packets.filter (fun p => !p.used)).map (fun p => 1 + p.dropGap)).sum
  let s1 := chSet n { IngChan.reset with
    seq := c.seq, dropGap := c.dropGap, inputs := c.inputs, paused := c.paused, heldPtp := c.heldPtp,
    arriving := c.arriving, macStamp := c.macStamp, macBytes := c.macBytes, delivered := c.delivered } s
  xoffUpdate n (noteLoss n lost (flushDone n s1))

/-- The integrator resumes from its last finalised knot (R119). -/
def egoResume (s : State) : State :=
  match s.ego.knots with
  | k :: _ =>
    let t : Int := ((k.t * 2 ^ 16 : Nat) : Int)
    { s with ego := { s.ego with pose := k.pose, last := some t, before := k.pose, beforeT := t } }
  | [] => s

/-- The slice aligner is reset: only a sample ends a channel's silence (R112); the offset windows and the clocks' states
start again, and the status registers show it. -/
def alignerReset (s : State) : State :=
  forUpTo 32 (fun n s => chanStatus n s)
    { s with aln := s.aln.map (fun a => { a with unsync := false, windowMin := none, okCount := 0 }) }

/-- The lanes of the camera front end start again; the meshes of those enabled are built anew, READY clear meanwhile
(R158, R467). -/
def lanesReset (s : State) : State :=
  forUpTo 16 (fun n s =>
    let s1 := laneSet n Lane.reset s
    if fbit s1 (CAM_CFG n) CAM_CFG_EN then meshStart n s1 else s1) s

/-- The buffers of a unit lose their contents. -/
def bufClear (f : Nat) (s : State) : State :=
  let mine (k : Nat) : Bool := k / 2 ^ 20 == f
  updFab (fun b => { b with
    bufs := cellsClear mine b.bufs
    marks := cellsClear (fun k => decide (2 ^ 41 ≤ k) && mine ((k - 2 ^ 41) * 8)) b.marks }) s

/-- The reset of one unit's own state. -/
def unitClear (s : State) (f : Nat) : State :=
  if f < 32 then ingReset f s
  else if f = flatAligner then alignerReset s
  else if f = flatEgo then egoResume s
  else if f = flatVhe then vheClear s
  else if f = flatCamera then lanesReset s
  else if f = flatAttention ∨ f = flatWalker then fon s ATN_STATUS ATN_STATUS_REBUILDING
  else if f < 48 then s
  else bufClear f s

/-- The reset of one unit of R366. One of FUSION or SOLVER clears the grids, and one of SOLVER ends a calibration solve
that runs (R171, R173). -/
def unitReset (s : State) (f : Nat) : State :=
  let s1 := unitClear s f
  if 32 ≤ f ∧ f < 43 then gridClear (if 40 ≤ f then calSolverReset s1 else s1) else s1

/-! ## Escalation counts (R380, R382) -/

def retireN (s : State) : Nat := fget s RST_FUSE_ESC RST_FUSE_ESC_RETIRE_N
def retireSpan (s : State) : Nat := fget s RST_FUSE_ESC RST_FUSE_ESC_RETIRE_WIN * ns1s
def oosN (s : State) : Nat := fget s RST_FUSE_ESC RST_FUSE_ESC_OOS_N
def oosSpan (s : State) : Nat := fget s RST_FUSE_ESC RST_FUSE_ESC_OOS_WIN * ns1s

/-- Resets within the windows now. -/
def deviceCount (s : State) : Nat := (s.esc.device.filter (fun t => decide (upNs s < t + oosSpan s))).length
def unitCount (f : Nat) (s : State) : Nat :=
  (s.esc.units.filter (fun e => e.1 == f && decide (upNs s < e.2 + retireSpan s))).length

/-- The units for which a recovery counts: that of an L3, and those a fault of an L2 named. -/
def countedUnits (r : Recovery) : List Nat := if r.level = 3 then [r.flat] else if r.level = 2 then r.named else []

/-- A carried-out reset of a unit is counted. -/
def countUnit (s : State) (f : Nat) : State :=
  let s1 := { s with esc := { s.esc with units := s.esc.units ++ [(f, upNs s)] } }
  let a := RST_UNIT f
  fset (fset s1 a RST_UNIT_IN_WINDOW (clampNat 15 (unitCount f s1))) a RST_UNIT_TOTAL (fget s1 a RST_UNIT_TOTAL + 1)

/-- A carried-out reset is counted; an L1 that leaves OUT_OF_SERVICE clears the device-wide history (R383). -/
def countReset (r : Recovery) (s : State) : State :=
  if r.level = 0 then s
  else
    let dev := if r.level = 1 ∧ runState s = stOutOfService then [] else s.esc.device ++ [upNs s]
    let s1 := { s with esc := { s.esc with device := dev } }
    let s2 := fset (fset s1 RST_ESC RST_ESC_IN_WINDOW (clampNat 63 (deviceCount s1)))
      RST_ESC RST_ESC_TOTAL (fget s1 RST_ESC RST_ESC_TOTAL + 1)
    (countedUnits r).foldl countUnit s2

/-! ## L0 and L1 (R356, R367, R368, R467) -/

/-- Registers that belong to the Spire, and the cause register, which follows R363. -/
def keptAlways (a : Nat) : Bool := decide (0x00C00000 ≤ a ∧ a < 0x00D00000) || a == RST_CAUSE

/-- Registers that an L1 keeps: those marked so, the map, the log's numbering and the capture numbering. -/
def keptL1 (a : Nat) : Bool :=
  keptAlways a || a == RST_ESC || a == RST_PM || a == LNT_FREEZE || a == LNT_STATUS || a == CUP_SPARE
    || a == CUP_LOG_NEXT || a == CUP_LOG_PERSISTED || decide (RST_UNIT 0 ≤ a ∧ a ≤ RST_UNIT 271)
    || decide (CUP_MAP_MXA 0 ≤ a ∧ a ≤ CUP_MAP_DOME 63)
    || (List.range 34).any (fun p => a == MXA_ID p) || (List.range 136).any (fun p => a == VEC_ID p)
    || (List.range 68).any (fun p => a == DOME_BANK_ID p)

/-- The packages enter or leave self-refresh (R209, R367, R437). -/
def selfRefresh (on : Bool) (s : State) : State := forUpTo 4 (fun g s => fput s (DOME_MEMGRP_ST g) DOME_MEMGRP_ST_SELF_REFRESH on) s

/-- The fields beside the kept ones in the registers of an L1 take their reset values. -/
def trimL1 (s : State) : State :=
  let s1 := fset (fset (fset s RST_ESC RST_ESC_OOS 0) LNT_STATUS LNT_STATUS_CFG_REJECT 0) RST_ESC RST_ESC_IN_WINDOW
    (clampNat 63 (deviceCount s))
  (List.range 272).foldl (fun s f =>
    let a := RST_UNIT f
    if rd s a = 0 then s else fset (fset s a RST_UNIT_FENCED 0) a RST_UNIT_RECOVERING 0) s1

/-- Cupola's own state after an L0 or L1: flash and fuses are kept; the boot copy survives in LPDDR5X only. -/
def cupAfter (cold : Bool) (c : CupolaState) : CupolaState :=
  { CupolaState.reset with
    descA := c.descA, descB := c.descB, banks := c.banks, burned := c.burned, flashLog := c.flashLog, cert := c.cert
    bootCopy := if cold then none else c.bootCopy, loaded := false }

/-- Buttress's own state after an L0 or L1: the repair record is kept; an L0 also ends the error histories. -/
def btAfter (cold : Bool) (b : ButtressState) : ButtressState :=
  { ButtressState.reset with
    failed := b.failed, rows := b.rows, fresh := b.fresh
    rowErrors := if cold then [] else b.rowErrors, errors := if cold then [] else b.errors }

/-- The whole main die is reset. What lies in host memory, in flash, on the Spire and in messages already on their way to
it stays; LPDDR5X stays through an L1, and so does T96 (R35), at whose count CMP0 and CMP2 aim again (R45). The VHE is
left as after a clear (R155). A Spire with power loses its golden image, and its pin override ends (R357, R440). -/
def mainReset (cold : Bool) (s : State) : State :=
  let spr := { s.spr with sawReset := true, forced := false }
  let s1 : State := { State.reset with
    pending := s.pending
    regs := cellsClear (fun a => !(if cold then keptAlways a else keptL1 a)) s.regs
    readData := s.readData
    barData := s.barData
    out := s.out
    bridgeUp := s.bridgeUp
    spr := spr
    lpddr := if cold then [] else s.lpddr
    hostMem := s.hostMem
    vpData := s.vpData
    freeCount := s.freeCount
    time := if cold then 0 else s.time
    stepped := if cold then -upTime s else s.stepped
    pwr := { s.pwr with mainHeld := true, booted := false, frozen := false, pcieUp := false }
    fab := if cold then FabricState.reset else { FabricState.reset with
      marks := cellsClear (fun k => !decide (2 ^ 40 ≤ k ∧ k < 2 ^ 41)) s.fab.marks }
    rcv := s.rcv
    esc := if cold then ⟨[], [], 0⟩ else s.esc
    bt := btAfter cold s.bt
    cup := cupAfter cold s.cup
    dbg := { s.dbg with nonce := none } }
  let s2 := if spireOn s1 then sprFollow (fset s1 SPR_GOLD SPR_GOLD_LOADED 0) else s1
  reaim (if cold then s2 else selfRefresh true (trimL1 s2))

/-! ## Assertion and release (R362) -/

/-- Whether a reset of a level drives RST_OUT_n. -/
def drivesOut (level : Nat) (s : State) : Bool := level == 0 || bitOf level (fget s RST_CFG RST_CFG_OUT_MASK)

/-- RST_LAST names the reset just carried out. -/
def showLast (r : Recovery) (at_ : Nat) (s : State) : State :=
  let a := RST_LAST
  fset (fset (fset (fset (fset s a RST_LAST_LEVEL r.level) a RST_LAST_SOURCE r.source) a RST_LAST_PARTITION r.part)
    a RST_LAST_UNIT (if r.level = 3 then flatUnit r.flat else 0)) RST_LAST_TIME fWord at_

/-- Whether some reset holds RST_OUT_n low. -/
def outLow (s : State) : Bool := s.rcv.any (fun r => r.pinned)

/-- The reset of a recovery asserts; RST_OUT_n falls unless another reset, or one that this one overtook, holds it low
already. -/
def rcvAssert (r : Recovery) (s0 : State) : State :=
  let out := drivesOut r.level s0
  let now := lin s0
  let r1 := { r with step := .reset, holdFrom := upNs s0, pinned := out || r.pinned }
  let s := countReset r (rcvPut r r1 (if out && !outLow s0 then emit (.rstOut true) s0 else s0))
  let thawed := if r.thaws then fset s LNT_FREEZE LNT_FREEZE_COUNT (fget s LNT_FREEZE LNT_FREEZE_COUNT + 1) else s
  let s1 :=
    if r.level ≤ 1 then mainReset (r.level == 0) thawed
    else (rcvFlats r).foldl unitReset { s with heldUnits := s.heldUnits ++ (rcvFlats r).filter (fun f => !s.heldUnits.contains f) }
  let s2 := if r.level ≤ 1 then s1 else showRcv r1 s1
  showLast r1 now s2

/-! ## Fences (R369, R372) -/

/-- What a reset at its fence does to the slices in processing (R372). -/
def fenceSlices (r : Recovery) (s : State) : State :=
  let fs := rcvFlats r
  let s1 := if fs.any (fun f => 40 ≤ f && f < 43) then slvAbort s else s
  if fs.any (fun f => (decide (32 ≤ f) && f < 40) || f == flatPublisher) then stopDone (abandonAll s1) else s1

/-- The contexts of items by their first issue (R376): up to 16 suspects, the rest untested. -/
def suspectsOf (items : List RunItem) : List Nat := (items.map (fun i => itContext i.words)).eraseDups

/-- Queue heads with their progress, which the manual does not give (DESIGN CHOICE, log entry 53). -/
def headsOf : List RunItem → State → List (RunItem × Nat) × State
  | [], s => ([], s)
  | i :: r, s =>
    let d := drawFree s
    let t := headsOf r d.2
    ((i, d.1 % 2 ^ 32) :: t.1, t.2)

/-- Whether a tag or a waiting request belongs to a scope. -/
def inScope (fs : List Nat) (level : Nat) (q : MemReq) : Bool :=
  decide (level ≤ 1) || (match reqFlat q.from_ with | some f => fs.contains f | none => false)

/-- Tags of a scope whose access has not completed, and requests of it that wait for a tag. -/
def scopeTags (r : Recovery) (s : State) : Nat :=
  ((allocTags s).filter (fun t => inScope (rcvFlats r) r.level t.req)).length
def scopeWaits (r : Recovery) (s : State) : Nat :=
  (s.fab.waiting.filter (fun q => inScope (rcvFlats r) r.level q)).length
    + (s.fab.outer.filter (fun x => inScope (rcvFlats r) r.level (outerReq x))).length

/-- The fence of a recovery: items in progress complete as refused items, and its units are marked. -/
def rcvFence (r : Recovery) (s : State) : State :=
  let fs := rcvFlats r
  let items := s.fab.items.filter (fun i => r.level ≤ 1 || fs.contains i.unit)
  let issued := items.filter (fun i => !i.waits)
  let h := headsOf issued s
  let sus := suspectsOf issued
  let r1 := { r with
    step := .drain, fencedAt := time16 s, fenceNs := upNs s, heads := h.1, suspects := (sus.take 16).map (fun c => (c, 0)), drained := scopeTags r s }
  let s1 := bumpBy (rcvPut r r1 h.2) RST_UNTESTED fWord (sus.length - 16)
  let s2 := items.foldl (fun s i => refuseRunning i.unit s) s1
  showRcv r1 (showFence (markUnits fs true (fenceSlices r1 s2)))

/-! ## Grants (R361, R364, R365) -/

/-- An L0 or L1 begins: the Spire is told unless POR or RST_IN_n caused it, slices are abandoned, and an L1 sends an abort
token, also one that ends a freeze (R440). An L0, and an L1 that ends a freeze, asserts at once; one that a command asked for waits for the reply (R398). -/
def wideBegin (q : Recovery) (s : State) : State :=
  let s1 := if q.source = srcPor ∨ q.source = srcRstIn then s else sendUp .resetNotice s
  let s2 := if q.level = 1 then sendAbort abReset s1 else s1
  let s3 := stopDone (abandonAll s2)
  if q.level = 0 ∨ q.thaws then (if q.source = srcCupola then rcvTo q .capture s3 else rcvAssert q s3)
  else rcvFence q s3

/-- An L2 or L3 begins: RECOVERY is reported, unless it takes over from a recovery in progress and the report still stands,
and an L2 aborts a shared job (R337, R395). -/
def narrowBegin (q : Recovery) (takesOver : Bool) (s : State) : State :=
  let s1 := if q.level = 2 then sendAbort abReset s else s
  rcvFence q (if takesOver then s1 else reportFault 37 (rcvTarget q) s1)

/-- A recovery is granted: narrower ones within its scope stop, it answers the Spire's requests in their place (R322), and it
begins at its first step. RST_OUT_n, where one of them holds it low, stays low until the wider reset is released (DEDUCED,
log entry 53). -/
def rcvGrant (q0 : Recovery) (s : State) : State :=
  let overtaken (r : Recovery) : Bool := rcvCovers q0 r || decide (q0.level ≤ 1 ∧ r.level ≤ 1)
  let stopped := s.rcv.filter (fun r => overtaken r && rcvActive r)
  let q := { q0 with
    pinned := s.rcv.any (fun r => overtaken r && r.pinned), asked := q0.asked ++ stopped.flatMap (fun r => r.asked) }
  let s1 := { s with
    rcv := s.rcv.filter (fun r => !overtaken r) ++ [q]
    replaying := s.replaying.filter (fun f => !(rcvFlats q).contains f) }
  let s2 := if q.level = 0 then fset s1 RST_CAUSE RST_CAUSE_CAUSE (2 ^ q.source) else s1
  if q.level ≤ 1 then wideBegin q s2 else narrowBegin q (!stopped.isEmpty) s2

/-- Whether a reset in progress absorbs a request; once an L0 or L1 is released, another one begins anew. -/
def rcvAbsorbs (r q : Recovery) : Bool :=
  rcvActive r && rcvCovers r q && !(decide (q.level ≤ 1) && r.step == .rebuild)

/-- A request reaches the reset controller: absorbed by a reset in progress that contains it, joined with an L3 running in
its partition into an L2, or granted. -/
def rcvRequest (q : Recovery) (s : State) : State :=
  match rcvFind (fun r => rcvAbsorbs r q) s with
  | some r =>
    let f := if q.fault < 64 then 2 ^ q.fault else 0
    bump (rcvPut r { r with faults := Nat.lor r.faults f, asked := r.asked ++ q.asked } s) RST_ABSORBED
  | none =>
    match rcvFind (fun r => rcvActive r && r.level == 3 && q.level == 3 && r.part == q.part) s with
    | some r => rcvGrant { q with
        level := 2, flat := noFlat, named := r.named ++ [r.flat, q.flat], test := false
        replay := (r.replay && r.source == srcCupola) || (q.replay && q.source == srcCupola) } s
    | none => rcvGrant q s

/-- The event of a source without a target (R359, R360). -/
def sourceEvent (src : Nat) (holding : Bool) (s0 : State) : State :=
  let s := setCause src s0
  let mk (level part : Nat) (s : State) : Recovery :=
    { rcvNew level src 64 part noFlat s with holding := holding, thaws := s0.pwr.frozen }
  match fuseEntry src with
  | 0 => rcvRequest (mk 0 0 s) s
  | 1 => rcvRequest (mk 1 0 s) s
  | 2 => (List.range 12).foldl (fun s p => rcvRequest (mk 2 p s) s) s
  | _ => s

/-- A request of SPIRE or CUPOLA_CMD under its cap (R361): one that names no scope at the cap is logged and performs no
reset. A flat index of 400 names no unit. -/
def cappedRequest (q : Recovery) (s0 : State) : State :=
  let s := setCause q.source s0
  let cap := fuseEntry q.source
  if cap ≤ q.level then rcvRequest q s
  else if q.flat < 272 then rcvRequest { q with level := cap, part := flatPart q.flat, flat := if cap = 3 then q.flat else noFlat } s
  else if cap = 1 then rcvRequest { q with level := 1 } s
  else logEvent (0x0200 + q.level * 16 + q.source) blkRst (rcvTarget q) s.esc.captures s

/-! ## Drain and capture (R370, R375) -/

/-- An L1 of THERMAL or SUPPLY writes no capture, nor does an L0 or an L1 that ends a freeze. -/
def capturesNot (r : Recovery) : Bool :=
  r.level == 0 || r.thaws || (r.level == 1 && (r.source == srcThermal || r.source == srcSupply))

/-- The drain is over: the capture follows, or the assertion. -/
def drainOver (r : Recovery) (errs : Nat) (s : State) : State :=
  let r1 := { r with drained := r.drained - scopeTags r s, errors := errs }
  let s1 := rcvPut r r1 s
  if capturesNot r then rcvAssert r1 s1 else rcvTo r1 .capture s1

/-- DRAIN_END: nothing of the scope is outstanding or waits. -/
def drainEnd (s : State) : State :=
  match rcvFind (fun r => r.step == .drain && scopeTags r s == 0 && scopeWaits r s == 0) s with
  | some r => drainOver r 0 s
  | none => s

/-- DRAIN_TIMEOUT: 50 µs after the fence, requests that wait are answered with an error and counted; a host read among them
completes as poisoned. -/
def drainTimeout (s : State) : State :=
  match rcvFind (fun r => r.step == .drain) s with
  | some r =>
    let s1 := runToUp (r.fenceNs + 50000) s
    let n := scopeWaits r s1
    let lost := s1.fab.outer.filter (fun x => x.port == .host && !x.write && inScope (rcvFlats r) r.level (outerReq x))
    let s0 := match lost.getLast? with | some x => { s1 with barData := (List.replicate x.len 0, true) } | none => s1
    let s2 := updFab (fun f => { f with
      waiting := f.waiting.filter (fun q => !inScope (rcvFlats r) r.level q)
      outer := f.outer.filter (fun x => !inScope (rcvFlats r) r.level (outerReq x)) }) s0
    drainOver r n (bumpBy s2 RST_DRAIN_ERR fWord n)
  | none => s

/-- The slot of a capture in the post-mortem region. -/
def captureAddr (c : Nat) : Nat := 0x04000000 + c % 32 * 0x200000

/-- Header word 12: suspects, the guilty one's index, and how many are UNTESTED. -/
def suspectWord (sus : List (Nat × Nat)) : Nat :=
  sus.length + ((sus.findIdx? (fun e => e.2 == 2)).getD 255) * 2 ^ 8 + (sus.filter (fun e => e.2 == 3)).length * 2 ^ 16

/-- The 16 suspect entries. -/
def suspectList (sus : List (Nat × Nat)) : List Nat :=
  (List.range 16).map (fun i => (nth sus i (0, 0)).1 % 2 ^ 16 + (nth sus i (0, 0)).2 * 2 ^ 16)

/-- A record's words with its CRC in word 14. -/
def withCrc (ws : List Nat) : List Nat := setNth ws 14 (crc32c (bytesOfWords (setNth ws 14 0)))

/-- The capture record of a recovery, its CRC word still 0; the unit state's layout is free (DESIGN CHOICE, log entry 53). -/
def captureWords (r : Recovery) (c draw : Nat) (s : State) : List Nat :=
  let body := suspectList r.suspects
    ++ r.heads.flatMap (fun h => (List.range 8).map (fun i => nth h.1.words i 0) ++ [h.2])
    ++ (List.range 4096).map (fun i => fget s (DOME_SYNC i) fWord)
  let unit := (wordsOfBytes (Config.unitState draw)).take (524288 - 16 - body.length)
  let head := [0x504D5231, 1 + r.level * 2 ^ 16 + r.source * 2 ^ 24, rcvTarget r, c] ++ t96Words r.fencedAt
    ++ [r.oldest % 2 ^ 32, r.faults % 2 ^ 32, r.faults / 2 ^ 32 % 2 ^ 32, r.drained % 2 ^ 16 + r.errors % 2 ^ 16 * 2 ^ 16,
      suspectWord r.suspects, (16 + body.length + unit.length) * 4, 0, 0]
  head ++ body ++ unit

/-- Whether the reply of the command that asked for a device reset is still to be posted (R398, R424). -/
def resetReplyWaits (s : State) : Bool :=
  s.cmds.any (fun c => (c.opcode == 0x0901 || c.opcode == 0x0A08) && c.reply.isSome)

/-- The reset asserts; an L0 or L1 that a command asked for does so 10 µs after its reply (R398). -/
def assertAfter (r : Recovery) (s : State) : State :=
  rcvAssert r (if r.level ≤ 1 ∧ r.source = srcCupola then runToUp (upNs s + 10000) s else s)

/-- CAPTURE_DONE: the record is written and the reset asserts; an L0 or L1 waits for the reply of its command. Words 12 and
14 of an L2 or L3 stay 0 until its replay is over (R375); an L1 has none, and its record is complete at once. -/
def captureDone (s : State) : State :=
  match rcvFind (fun r => r.step == .capture && !(decide (r.level ≤ 1) && resetReplyWaits s)) s with
  | none => s
  | some r =>
    if capturesNot r then assertAfter r s
    else
      let c := s.esc.captures
      let d := drawFree s
      let r1 := { r with capture := some c }
      let ws := captureWords r c d.1 d.2
      let s1 := ddrPutWords (rcvPut r r1 d.2) (captureAddr c) (if r.level ≤ 1 then withCrc ws else setNth ws 12 0)
      let s2 := { s1 with esc := { s1.esc with captures := c + 1 } }
      assertAfter r1 (fset (fset s2 RST_PM RST_PM_NEXT ((c + 1) % 32)) RST_PM RST_PM_CAPTURES ((c + 1) % 65536))

/-- Words 12 and 14 and the suspects' outcomes are completed after the replay. -/
def captureComplete (r : Recovery) (s : State) : State :=
  match r.capture with
  | none => s
  | some c =>
    let a := captureAddr c
    let ws := ddrWords s a (ddrWord s (a + 52) / 4)
    let w1 := setNth ws 12 (suspectWord r.suspects)
    ddrPutWords s a (withCrc (w1.take 16 ++ suspectList r.suspects ++ w1.drop 32))

/-! ## Audit (R386 to R388) -/

/-- The slots of a submission ring (R279). -/
def sqSlots (n : Nat) (s : State) : Nat := 2 ^ fget s (CMD_CFG n) CMD_CFG_SQ_LOG2

/-- Whether each ledger balances: ingress, tags, KV, Tollis, command (R98, R196, R219, R284, R391). -/
def tagsBalanced (s : State) : Bool := decide (s.fab.tags.length ≤ 32768)
def kvBalanced (s : State) : Bool :=
  decide (pageCount pgMigrating s ≤ 1)
    && pageCount pgFree s + pageCount pgAlloc s + pageCount pgMigrating s + pageCount pgQuarantined s == poolPages s
def vcBalanced (l v : Nat) (s : State) : Bool :=
  vcAvail l v s + vcOut l v s == fget s (TOL_VC_CAP l (v - 1)) TOL_VC_CAP_ADVERT
    && vcFree l v s + vcHeld l v s + vcReturning l v s == fget s (TOL_VC_CAP l (v - 1)) TOL_VC_CAP_BUF
def tolBalanced (s : State) : Bool := [0, 1].all (fun l => [1, 2, 3, 4].all (fun v => vcBalanced l v s))
def cmdBalanced (s : State) : Bool :=
  (List.range 4).all (fun n => !fbit s (CMD_CFG n) CMD_CFG_EN || decide (ringUsed n s ≤ cqSlots n s))
def ledgersGood (s : State) : List Bool := [ingBalanced s, tagsBalanced s, kvBalanced s, tolBalanced s, cmdBalanced s]

/-- EN is cleared; SQ slots not fetched are abandoned (R279). -/
def ringOff (n : Nat) (s : State) : State :=
  ringUpd n (fun r => { r with disabling := false }) (fset s (CMD_CFG n) CMD_CFG_EN 0)

/-- EN cleared acts once the command in execution has posted its reply (R279); the host and Cupola firmware, in its
reaction to a command ledger's fault (R336 bit 21), clear it alike. -/
def ringDisable (n : Nat) (s : State) : State :=
  if !fbit s (CMD_CFG n) CMD_CFG_EN then s
  else if ringBusy n s then ringUpd n (fun r => { r with disabling := true }) s else ringOff n s

/-- One sample of all five ledgers: BALANCED, and the faults of those out of balance. -/
def auditRun (s : State) : State :=
  let g := ledgersGood s
  let s0 := fset s RST_AUDIT RST_AUDIT_BALANCED ((g.zipIdx.map (fun e => b2n e.1 * 2 ^ e.2)).sum)
  let s1 := if nth g 0 true then s0 else ledgerErr ING_LEDGER ING_LEDGER_ERR 18 0 s0
  let s2 := if nth g 1 true then s1 else ledgerErr DOME_TAG_LEDGER1 DOME_TAG_LEDGER1_ERR 19 0 s1
  let s3 := if nth g 2 true then s2 else ledgerErr ATN_PAGE_MIG ATN_PAGE_MIG_ERR 20 (flatUnit flatAttention) s2
  let s4 := [0, 1].foldl (fun s l => [1, 2, 3, 4].foldl (fun s v =>
    if vcBalanced l v s then s
    else raiseIrq 7 (fon (fon s (TOL_VC_RET l (v - 1)) TOL_VC_RET_ERR) (TOL_STATUS l) TOL_STATUS_CREDIT_ERR)) s) s3
  (List.range 4).foldl (fun s n =>
    if !fbit s (CMD_CFG n) CMD_CFG_EN || decide (ringUsed n s ≤ cqSlots n s) then s
    else ringDisable n (ledgerErr (CMD_LEDGER n) CMD_LEDGER_ERR 21 0 s)) s4

/-! ## Retirement (R380 to R382) -/

/-- The identity registers of a physical array or vector core: LOGICAL (all ones out of service), RETIRED, IN_SERVICE. -/
def physSet (vec : Bool) (p : Nat) (logical : Option Nat) (retired inSvc : Bool) (s : State) : State :=
  if vec then
    let s1 := fset s (VEC_ID p) VEC_ID_LOGICAL (logical.getD 0x7F)
    fput (fput s1 (VEC_ID p) VEC_ID_RETIRED retired) (VEC_ID p) VEC_ID_IN_SERVICE inSvc
  else
    let s1 := fset s (MXA_ID p) MXA_ID_LOGICAL (logical.getD 0x3F)
    fput (fput s1 (MXA_ID p) MXA_ID_RETIRED retired) (MXA_ID p) MXA_ID_IN_SERVICE inSvc

/-- Logical units in service. -/
def arraysIn (s : State) : Nat := ((List.range 32).filter (fun l => inService (48 + l) s)).length
def vecsIn (s : State) : Nat := ((List.range 128).filter (fun l => inService (80 + l) s)).length

/-- Fewer units than the degraded pipeline needs take the device out of service. -/
def tooFew (s : State) : State := if arraysIn s < 8 ∨ vecsIn s < 32 then outOfService s else s

/-- A logical array or vector core leaves service without a replacement. -/
def leaveService (s : State) (f : Nat) : State :=
  if f < 80 then fon (physSet false (mxaSlot (f - 48) s) none true false (fon s (RST_UNIT f) RST_UNIT_RETIRED))
    (CUP_MAP_MXA (f - 48)) CUP_MAP_MXA_NONE
  else fon (physSet true (vecSlot (f - 80) s) none true false (fon s (RST_UNIT f) RST_UNIT_RETIRED))
    (CUP_MAP_VEC (f - 80)) CUP_MAP_VEC_NONE

/-- A unit is retired with no spare left (R381). -/
def noSpare (f : Nat) (s : State) : State :=
  if f < 32 then
    let s1 := fset (fon s (RST_UNIT f) RST_UNIT_RETIRED) (ING_CTRL f) ING_CTRL_EN 0
    receiverStop f s1
  else if f < 48 then outOfService (fon s (RST_UNIT f) RST_UNIT_RETIRED)
  else if f < 208 then tooFew (leaveService s f)
  else
    let c := f - 208
    tooFew ([80 + 2 * c, 81 + 2 * c].foldl (fun s v => if inService v s then leaveService s v else s)
      (fon s (RST_UNIT f) RST_UNIT_RETIRED))

/-- A unit is retired: Buttress replaces an array or a vector core; the other units have no spares. -/
def retireUnit (confirmed : Bool) (f : Nat) (s : State) : State :=
  if fbit s (RST_UNIT f) RST_UNIT_RETIRED || s.bt.swaps.any (fun w => w.1 == f) then s
  else if 48 ≤ f ∧ f < 208 then showBt (updBt (fun b => { b with swaps := b.swaps ++ [(f, confirmed)] }) s)
  else noSpare f s

/-! ## The end of a recovery (R371, R379) -/

/-- Whether an ALIGN start is due at which fences lift. -/
def alignDue (s : State) : Bool :=
  runState s == stRunning || (runState s == stStopping && s.slices.any (fun r => !hasBegun sgAlign r))

/-- Fences that need not wait for an ALIGN start lift. -/
def liftNow (s : State) : State := if alignDue s then s else liftFences s

/-- A recovery whose audit balanced is over: escalation, its record, its report, and its fence's lifting. -/
def rcvEnd (s0 : State) (r : Recovery) : State :=
  let s := captureComplete r s0
  let s1 := (countedUnits r).foldl (fun s f => if retireN s ≤ unitCount f s then retireUnit false f s else s) s
  let s2 := if oosN s1 ≤ deviceCount s1 then outOfService s1 else s1
  let s3 := logEvent (0x0200 + r.level * 16 + r.source) blkRst (rcvTarget r) (r.capture.getD 0) s2
  sendUp (.recoveryDone r.level r.asked) (rcvPut r { r with step := .done } s3)

/-- The audit step: when every ledger balances, each recovery that waits at it ends; else its fence stays until the
reaction to the fault has run. -/
def rcvAudit (s : State) : State :=
  let s1 := auditRun s
  if (ledgersGood s1).all id then
    liftNow ((s1.rcv.filter (fun r => r.step == .audit)).foldl rcvEnd s1)
  else s1

/-- A recovery's replay is over, or it has none. -/
def replayOver (r : Recovery) (s : State) : State :=
  rcvAudit (rcvTo r .audit { s with replaying := s.replaying.filter (fun f => !(rcvFlats r).contains f) })

/-! ## Release and rebuild (R362, R379) -/

/-- The lowest-numbered spare in reserve of a kind. -/
def spareArray (s : State) : Option Nat := (List.range 34).find? (fun p =>
  fbit s (MXA_ID p) MXA_ID_SPARE && !fbit s (MXA_ID p) MXA_ID_RETIRED && !fbit s (MXA_ID p) MXA_ID_IN_SERVICE)
def spareVec (s : State) : Option Nat := (List.range 136).find? (fun p =>
  fbit s (VEC_ID p) VEC_ID_SPARE && !fbit s (VEC_ID p) VEC_ID_RETIRED && !fbit s (VEC_ID p) VEC_ID_IN_SERVICE)
def spareBank (s : State) : Option Nat := (List.range 68).find? (fun p =>
  fbit s (DOME_BANK_ID p) DOME_BANK_ID_SPARE && !fbit s (DOME_BANK_ID p) DOME_BANK_ID_RETIRED
    && !fbit s (DOME_BANK_ID p) DOME_BANK_ID_IN_SERVICE)

/-- CUP_SPARE counts the spares in reserve. -/
def showSpares (s : State) : State :=
  let reserve (a : Nat → Nat) (sp rt sv : Bits) (n : Nat) : Nat :=
    ((List.range n).filter (fun p => fbit s (a p) sp && !fbit s (a p) rt && !fbit s (a p) sv)).length
  fset (fset (fset s CUP_SPARE CUP_SPARE_MXA_LEFT (reserve MXA_ID MXA_ID_SPARE MXA_ID_RETIRED MXA_ID_IN_SERVICE 34))
    CUP_SPARE CUP_SPARE_VEC_LEFT (reserve VEC_ID VEC_ID_SPARE VEC_ID_RETIRED VEC_ID_IN_SERVICE 136))
    CUP_SPARE CUP_SPARE_DOME_LEFT
      (reserve DOME_BANK_ID DOME_BANK_ID_SPARE DOME_BANK_ID_RETIRED DOME_BANK_ID_IN_SERVICE 68)

/-- A failed physical unit reads RETIRED. -/
def retirePhys (s : State) (u : Nat) : State :=
  let p := u % 256
  match u / 256 with
  | 0 => physSet false p none true false s
  | 1 => physSet true p none true false s
  | _ => fset (fset (fon s (DOME_BANK_ID p) DOME_BANK_ID_RETIRED) (DOME_BANK_ID p) DOME_BANK_ID_IN_SERVICE 0)
      (DOME_BANK_ID p) DOME_BANK_ID_LOGICAL 0x3F

/-- A logical unit whose physical unit is retired takes the lowest spare, or none (R413). -/
def mapArray (s : State) (l : Nat) : State :=
  if !fbit s (MXA_ID l) MXA_ID_RETIRED then s
  else match spareArray s with
    | some p => fset (physSet false p (some l) false true s) (CUP_MAP_MXA l) CUP_MAP_MXA_PHYSICAL p
    | none => leaveService s (48 + l)
def mapVec (s : State) (l : Nat) : State :=
  if !fbit s (VEC_ID l) VEC_ID_RETIRED then s
  else match spareVec s with
    | some p => fset (physSet true p (some l) false true s) (CUP_MAP_VEC l) CUP_MAP_VEC_PHYSICAL p
    | none => leaveService s (80 + l)
def mapBank (s : State) (l : Nat) : State :=
  if !fbit s (DOME_BANK_ID l) DOME_BANK_ID_RETIRED then s
  else match spareBank s with
    | some p => fset (fon (fset s (DOME_BANK_ID p) DOME_BANK_ID_LOGICAL l) (DOME_BANK_ID p) DOME_BANK_ID_IN_SERVICE)
        (CUP_MAP_DOME l) CUP_MAP_DOME_PHYSICAL p
    | none => fon s (CUP_MAP_DOME l) CUP_MAP_DOME_NONE

/-- Buttress at the release of an L0 or L1 (R413, R414): spares that fail their self-test join the repair record; after an
L0 the map is built from it. -/
def btRelease (cold : Bool) (bad : List Nat) (s : State) : State :=
  let s1 := updBt (fun b => { b with failed := b.failed ++ bad.filter (fun u => !b.failed.contains u) }) s
  let s2 := (if cold then s1.bt.failed else bad).foldl retirePhys s1
  let s3 := if cold then (List.range 64).foldl mapBank ((List.range 128).foldl mapVec ((List.range 32).foldl mapArray s2)) else s2
  showSpares s3

/-- RESET_RELEASE: 20 µs after the assertion or the source's release, whichever is later, the reset is released; steps
accepted while FUSION was held apply as it leaves reset (R173). -/
def resetRelease (bad : List Nat) (s0 : State) : State :=
  match rcvFind (fun r => r.step == .reset && !r.holding) s0 with
  | none => s0
  | some r =>
    let s := if r.level ≤ 1 then s0 else runToUp (r.holdFrom + 20000) s0
    let r1 := { r with pinned := false }
    let s9 := rcvPut r r1 s
    let s1 := if r.pinned && !outLow s9 then emit (.rstOut false) s9 else s9
    if r.level ≤ 1 then
      let s2 := rcvPut r1 { r1 with step := .rebuild } s1
      btRelease (r.level == 0) bad { selfRefresh false s2 with pwr := { s2.pwr with mainHeld := false, pcieUp := !s2.pwr.perst } }
    else
      let fs := rcvFlats r
      let s2 := rcvTo r1 .rebuild { s1 with heldUnits := s1.heldUnits.filter (fun f => !fs.contains f) }
      let s3 := if (partFlats partFusion).all (fun f => fs.contains f) then calApply s2 else s2
      let s4 := if fs.contains flatAttention then journalResume s3 else s3
      fs.foldl (fun s f => if f < 32 then chSet f (ensureFilling (fbit s (ING_CTRL f) ING_CTRL_EN) (chGet f s)) s else s) s4

/-- The outcome of a self-test that ran in a rebuild (R415, R416). -/
def testOutcome (pass : Bool) (f : Nat) (s : State) : State :=
  let s1 := showBt (updBt (fun b => { b with testing := none, errors := b.errors.filter (fun e => e.1 != f) }) s)
  if pass then btEvent 0x0402 f s1 else retireUnit true f (btEvent 0x0403 f s1)

/-- The instant at which the replay's time is up. -/
def replayLimit (r : Recovery) : Nat := r.fenceNs + (if r.level = 3 then 1400000 else 5000000)

/-- Mark suspects from index i on UNTESTED; how many there were. -/
def untestFrom (i : Nat) (sus : List (Nat × Nat)) : List (Nat × Nat) :=
  sus.zipIdx.map (fun e => if i ≤ e.2 ∧ e.1.2 = 0 then (e.1.1, 3) else e.1)

/-- REBUILD_DONE: the units' own rebuilds end, then the replay or the audit begins; with the time already up, every suspect is
UNTESTED (R377). -/
def rebuildDone (pass : Bool) (s : State) : State :=
  match rcvFind (fun r => r.step == .rebuild && decide (2 ≤ r.level)) s with
  | none => s
  | some r =>
    let fs := rcvFlats r
    let s1 := if fs.contains flatVhe then vheClearDone s else s
    let s2 := if fs.contains flatAttention || fs.contains flatWalker then ledgerRebuild s1 else s1
    let s3 := if r.test then testOutcome pass r.flat s2 else s2
    if r.replay && fbit s3 RST_CFG RST_CFG_REPLAY_EN && !r.suspects.isEmpty then
      if replayLimit r ≤ upNs s3 then
        let sus := untestFrom 0 r.suspects
        let r1 := { r with suspects := sus }
        replayOver r1 (bumpBy (rcvPut r r1 s3) RST_UNTESTED fWord (sus.filter (fun e => e.2 == 3)).length)
      else
        let r1 := { r with step := .replay }
        showRcv r1 (rcvPut r r1 { s3 with replaying := s3.replaying ++ fs })
    else replayOver r s3

/-! ## Replay (R376 to R378) -/

/-- A context is refused; a seventeenth takes the device out of service (R378). -/
def refuseContext (c : Nat) (s : State) : State :=
  if contextRefused c s then s
  else match (List.range 16).find? (fun i => !fbit s (RST_REFUSED i) RST_REFUSED_VALID) with
    | some i => fon (fset s (RST_REFUSED i) RST_REFUSED_CONTEXT c) (RST_REFUSED i) RST_REFUSED_VALID
    | none => outOfService s

/-- What a replay wrote is discarded. -/
def replayDiscard (s : State) : State :=
  { s with dome := cellsClear (fun a => decide (0x05C00000 ≤ a ∧ a < 0x05D00000)) s.dome }

/-- REPLAY_SUSPECT_DONE: the suspect in replay is CLEAN or GUILTY. The next begins unless the time is up. -/
def replayDone (guilty : Bool) (s0 : State) : State :=
  match rcvFind (fun r => r.step == .replay) s0 with
  | none => s0
  | some r =>
    match r.suspects.findIdx? (fun e => e.2 == 0) with
    | none => replayOver r s0
    | some i =>
      let c := (nth r.suspects i (0, 0)).1
      let s := bump (replayDiscard s0) RST_REPLAYS
      let sus := setNth r.suspects i (c, if guilty then 2 else 1)
      if guilty then
        let r1 := { r with suspects := sus }
        replayOver r1 (refuseContext c (bump (rcvPut r r1 s) RST_GUILTY))
      else
        let late := decide (replayLimit r ≤ upNs s)
        let sus1 := if late then untestFrom (i + 1) sus else sus
        let r1 := { r with suspects := sus1 }
        let s1 := bumpBy (rcvPut r r1 s) RST_UNTESTED fWord
          ((sus1.filter (fun e => e.2 == 3)).length - (sus.filter (fun e => e.2 == 3)).length)
        if sus1.any (fun e => e.2 == 0) then s1 else replayOver r1 s1

/-- REPLAY_LIMIT_EXPIRY: the time is up; suspects that have not begun are UNTESTED. -/
def replayExpiry (s : State) : State :=
  match rcvFind (fun r => r.step == .replay) s with
  | none => s
  | some r =>
    let s1 := runToUp (replayLimit r) s
    match r.suspects.findIdx? (fun e => e.2 == 0) with
    | none => s1
    | some i =>
      let sus := untestFrom (i + 1) r.suspects
      bumpBy (rcvPut r { r with suspects := sus } s1) RST_UNTESTED fWord
        ((sus.filter (fun e => e.2 == 3)).length - (r.suspects.filter (fun e => e.2 == 3)).length)

/-! ## Pins and the Spire's requests -/

/-- POR: the main die's supplies reach their thresholds. -/
def por (s : State) : State :=
  sourceEvent srcPor s.pwr.rstIn { s with pwr := { s.pwr with mainUp := true } }

/-- RST_IN_n has been low for 1 µs: it resets both dies (R357, R447). -/
def rstIn (s : State) : State :=
  let s1 := { s with pwr := { s.pwr with rstIn := true } }
  let s2 := if s1.pwr.spireUp then { spireReset s1 with pwr := { s1.pwr with spireHeld := true } } else s1
  if s2.pwr.mainUp then
    let s3 := sourceEvent srcRstIn true s2
    { s3 with rcv := s3.rcv.map (fun r => if r.level ≤ 1 then { r with holding := true } else r) }
  else s2

/-- RST_IN_n rises: the sources' assertion ends. -/
def rstInRelease (s : State) : State :=
  { s with
    pwr := { s.pwr with rstIn := false, spireHeld := false }
    rcv := s.rcv.map (fun r => if r.holding then { r with holding := false, holdFrom := upNs s } else r) }

/-- Whether a Spire request is followed by a replay (R376): a window watchdog's L2, or an L3 for DOME_BOUNDS. -/
def spireReplays (level bit : Nat) : Bool :=
  (level == 2 && decide (8 ≤ bit ∧ bit ≤ 15)) || (level == 3 && bit == 23)

/-- SPIRE_RESET_REQUEST: the oldest reset request of the Spire reaches the reset controller. -/
def spireRequest (s : State) : State :=
  match takeDown (fun m => match m with | .resetReq .. => true | _ => false) s with
  | (some (.resetReq level part flat bit), s1) =>
    cappedRequest { rcvNew level srcSpire bit part flat s1 with
      asked := [bit], replay := spireReplays level bit, named := if flat < 272 then [flat] else [] } s1
  | (_, _) => s

/-- AUDIT_REQUEST: RST_AUDIT.RUN is written. Recoveries that wait at their audit go on when it balances. -/
def auditRequest (s : State) : State := rcvAudit s

/-! ## Recovery opcodes (R398) -/

/-- Whether an existing target is named: a partition for L2, a unit ID for L3, nothing for L0 and L1. -/
def rcvTargetOk (level target : Nat) : Bool :=
  if level = 2 then decide (target < 12) else if level = 3 then (unitFlat target).isSome else true

/-- RCV_RESET. -/
def cmdRcvReset (ps : List Nat) (s : State) : CmdOut :=
  withParams 2 ps (fun s =>
    let w := nth ps 0 0
    let level := w % 4
    let t := nth ps 1 0
    if w / 512 ≠ 0 ∨ natField 7 2 w ≠ 0 ∨ !rcvTargetOk level t then fail stParam s
    else
      let f := if level = 3 then (unitFlat t).getD noFlat else noFlat
      let q := { rcvNew level srcCupola 64 (if level = 3 then flatPart f else if level = 2 then t else 0) f s with replay := bitOf 8 w }
      if s.rcv.any (fun r => rcvActive r && r.level == q.level && rcvFlats r == rcvFlats q) then fail stBusy s
      else ok [] (cappedRequest q s)) s

/-- RST_ESC and RST_UNIT as they read now: their window counts move with time. -/
def escWord (s : State) : Word := setBits RST_ESC_IN_WINDOW (rd s RST_ESC) (clampNat 63 (deviceCount s))
def unitWord (f : Nat) (s : State) : Word := setBits RST_UNIT_IN_WINDOW (rd s (RST_UNIT f)) (clampNat 15 (unitCount f s))

/-- RCV_STATUS. -/
def cmdRcvStatus (ps : List Nat) (s : State) : CmdOut :=
  withParams 0 ps (fun s => ok [(rd s RST_STATE).toNat, (rd s RST_LAST).toNat, (rd s RST_LAST_TIME).toNat,
    (rd s RST_LAST_DURATION).toNat, (escWord s).toNat, (rd s RST_CAUSE).toNat, (rd s RST_FENCE).toNat] s) s

/-- RCV_CAPTURE. -/
def cmdRcvCapture (ps : List Nat) (s : State) : CmdOut :=
  withParams 1 ps (fun s =>
    if 31 < nth ps 0 0 then fail stParam s else ok (ddrWords s (captureAddr (nth ps 0 0)) 16) s) s

/-- RCV_UNREFUSE. -/
def cmdRcvUnrefuse (ps : List Nat) (s : State) : CmdOut :=
  withParams 1 ps (fun s =>
    match (List.range 16).find? (fun i => fbit s (RST_REFUSED i) RST_REFUSED_VALID
        && fget s (RST_REFUSED i) RST_REFUSED_CONTEXT == nth ps 0 0) with
    | some i => ok [] (wr s (RST_REFUSED i) 0)
    | none => fail stParam s) s

/-! ## Commands -/

/-- Reset events reach the reset controller whenever the main die has power, frozen or not (R440). -/
def execPor (s : State) : Host.Outcome State Fault Refusal := .next (por s)
def execRstIn (s : State) : Host.Outcome State Fault Refusal := .next (rstIn s)
def execRstInRelease (s : State) : Host.Outcome State Fault Refusal := .next (rstInRelease s)
def execSpireResetRequest (s : State) : Host.Outcome State Fault Refusal := onMain spireRequest s
def execDrainEnd (s : State) : Host.Outcome State Fault Refusal := onMain drainEnd s
def execDrainTimeout (s : State) : Host.Outcome State Fault Refusal := onMain drainTimeout s
def execCaptureDone (s : State) : Host.Outcome State Fault Refusal := onMain captureDone s
def execResetRelease (badSpares : List Nat) (s : State) : Host.Outcome State Fault Refusal :=
  .next (if s.pwr.mainUp && !s.pwr.frozen then resetRelease badSpares s else s)
def execRebuildDone (pass : Bool) (s : State) : Host.Outcome State Fault Refusal := onMain (rebuildDone pass) s
def execReplaySuspectDone (guilty : Bool) (s : State) : Host.Outcome State Fault Refusal := onMain (replayDone guilty) s
def execReplayLimitExpiry (s : State) : Host.Outcome State Fault Refusal := onMain replayExpiry s
def execAuditRequest (agent : Agent) (s : State) : Host.Outcome State Fault Refusal := onAgent agent auditRequest s
def execRcvReset (h : CmdHead) (ps : List Word) (s : State) : Host.Outcome State Fault Refusal := onCmd h 0x0901 cmdRcvReset ps s
def execRcvStatus (h : CmdHead) (ps : List Word) (s : State) : Host.Outcome State Fault Refusal := onCmd h 0x0902 cmdRcvStatus ps s
def execRcvCapture (h : CmdHead) (ps : List Word) (s : State) : Host.Outcome State Fault Refusal := onCmd h 0x0903 cmdRcvCapture ps s
def execRcvUnrefuse (h : CmdHead) (ps : List Word) (s : State) : Host.Outcome State Fault Refusal := onCmd h 0x0904 cmdRcvUnrefuse ps s

end Sys2Proof.Machine
end

