-- ==== Sys2Proof/Machine/Tollis.lean ====
section
/-! DEFINITION. The Tollis links: flits and credits, training, the receive window, jobs and abort tokens, and the last
recovery opcodes (R389 to R400). -/
namespace Sys2Proof.Machine

/-! ## Local aborts (R397) -/

/-- A local abort: the run ends, the cause bit is set, and the fused reset follows. -/
def localAbort (s : State) : State := sourceEvent srcTollis false (abortRun s)

/-- Whether this module's job was aborted in the last 10 ms, so that a token for it is a duplicate (R396). -/
def tokenStale (job : Nat) (s : State) : Bool :=
  match s.tol.aborted with
  | some (j, t) => j == job && decide (upNs s ≤ t + 10000000)
  | none => false

/-- ABORT_TOKEN_RX: a token for the module's job is forwarded on every other link that carries it and aborts the run;
any other is dropped and counted. -/
def tokenRx (l job origin hops seq : Nat) (s0 : State) : State :=
  let s := bump s0 (TOL_ABORT_RX l)
  if job ≠ jobId s ∨ job = 0 ∨ tokenStale job s then bump s (TOL_ABORT_DUP l)
  else
    let s1 := ([0, 1].filter (fun k => k != l && jobLink k s)).foldl (tokenOut job origin abForwarded (hops + 1) seq) s
    let s2 := { s1 with tol := { s1.tol with aborted := some (job, upNs s) } }
    if running s2 then localAbort s2 else s2

/-! ## Flits and credits (R390, R391) -/

/-- The symbols corrected on a lane in the last second; beyond 10⁴ the lane is marked (R418). -/
def laneSymbols (l lane n : Nat) (s : State) : State :=
  if n = 0 then s
  else linkUpd l (fun t =>
    let h := addRecent lane n ns1s (upNs s) t.symbols
    { t with
      symbols := h
      marked := if 10000 < sumOf lane h ∧ lane ∉ t.marked then t.marked ++ [lane] else t.marked }) s

/-- FLIT_RX: a good flit of a credited VC is held until it is consumed; a flit that fails its CRC is sent again. -/
def flitRx (l v : Nat) (good : Bool) (codewords lane symbols : Nat) (s : State) : State :=
  if !linkIsUp l s then s
  else
    let s1 := laneSymbols l lane symbols (bumpBy s (TOL_FEC_CORR l) fWord codewords)
    if !good then bump s1 (TOL_CRC_RETRY l)
    else if v = 0 ∨ vcFree l v s1 = 0 then s1
    else vcRxSet l v (vcFree l v s1 - 1) (vcHeld l v s1 + 1) (vcReturning l v s1) s1

/-- CREDIT_RETURN: a credit of this module's as the sender comes back, or one it freed as the receiver has reached the
peer. -/
def creditReturn (l v : Nat) (toPeer : Bool) (s : State) : State :=
  if !linkIsUp l s ∨ v = 0 then s
  else if toPeer then
    match takeOne (fun e => e.1 == v) (linkGet l s).returning with
    | some (_, r) => linkUpd l (fun t => { t with returning := r })
        (vcRxSet l v (vcFree l v s + 1) (vcHeld l v s) (vcReturning l v s - 1) s)
    | none => s
  else if vcOut l v s = 0 then s
  else vcTxSet l v (vcAvail l v s + 1) (vcOut l v s - 1) s

/-- CREDIT_RETURNING_TIMEOUT: a freed credit has stayed RETURNING for more than 1 µs. -/
def creditTimeout (l v : Nat) (s : State) : State :=
  match (linkGet l s).returning.find? (fun e => e.1 == v) with
  | some (_, since) =>
    let s1 := runToUp (since + 1001) s
    raiseIrq 7 (fon (fon s1 (TOL_VC_RET l (v - 1)) TOL_VC_RET_ERR) (TOL_STATUS l) TOL_STATUS_CREDIT_ERR)
  | none => s

/-! ## Training (R390, R418) -/

/-- The link goes DOWN, which is the end of a slave port on it (R66). A job it carried is aborted on the other links too (R395, R396). -/
def linkDown (l : Nat) (s : State) : State :=
  let jobbed := linkIsUp l s && fbit s (TOL_CTRL l) TOL_CTRL_JOB_EN && jobRuns s
  let s0 := if slavePort s = some (8 + l) then slaveHoldover s else s
  let s1 := bump (fset s0 (TOL_STATUS l) TOL_STATUS_STATE tolDown) (TOL_DOWN_EVENTS l)
  if jobbed then localAbort (sendAbort abLinkDown s1) else s1

/-- LINK_LOCK_LOSS: a lane loses lock and is marked. -/
def lockLoss (l lane : Nat) (s : State) : State :=
  if fget s (TOL_STATUS l) TOL_STATUS_STATE = tolDown then s
  else linkDown l (linkUpd l (fun t => { t with marked := if lane ∈ t.marked then t.marked else t.marked ++ [lane] }) s)

/-- The books of a VC restart from the credits the peer advertises; its contents are discarded. -/
def vcRestart (l : Nat) (adverts : List Nat) (s : State) (v : Nat) : State :=
  let ad := nth adverts (v - 1) 0 % 65536
  vcRxSet l v (fget s (TOL_VC_CAP l (v - 1)) TOL_VC_CAP_BUF) 0 0
    (vcTxSet l v ad 0 (fset s (TOL_VC_CAP l (v - 1)) TOL_VC_CAP_ADVERT ad))

/-- LINK_RETRAIN_DONE: an enabled link is UP again; the spare takes the place of a marked lane. Credits survive the
retrain of a link that was not DOWN. -/
def retrainDone (l : Nat) (adverts : List Nat) (s : State) : State :=
  if !fbit s (TOL_CTRL l) TOL_CTRL_EN then s
  else
    let s2 :=
      if linkIsUp l s then s
      else
        let s1 := [1, 2, 3, 4].foldl (vcRestart l adverts) (fset s (TOL_STATUS l) TOL_STATUS_STATE tolUp)
        linkUpd l (fun t => { t with returning := [] }) s1
    match (linkGet l s2).marked with
    | lane :: _ =>
      if fget s2 (TOL_STATUS l) TOL_STATUS_SPARE_FOR = 7 ∧ lane < 4 then
        logEvent 0x0407 blkTol l lane (linkUpd l (fun t => { t with marked := t.marked.filter (fun k => k != lane) })
          (fset s2 (TOL_STATUS l) TOL_STATUS_SPARE_FOR lane))
      else s2
    | [] => s2

/-- A write of TOL_CTRL while the run state allows it: EN starts or ends the link (R400). -/
def tolCtrl (l : Nat) (v : Word) (s : State) : State :=
  let was := fbit s (TOL_CTRL l) TOL_CTRL_EN
  let s1 := storeRw (TOL_CTRL l) v s
  let now := fbit s1 (TOL_CTRL l) TOL_CTRL_EN
  if now && !was then fset s1 (TOL_STATUS l) TOL_STATUS_STATE tolTraining
  else if was && !now then
    (if fget s1 (TOL_STATUS l) TOL_STATUS_STATE = tolDown then s1 else linkDown l s1)
  else s1

/-- RXWIN values: the base and length are multiples of 8,192, and the window lies within a footprint's range (R191,
R400). -/
def rxwinBad (base len : Nat) : Bool := decide (base % 8192 ≠ 0 ∨ len % 8192 ≠ 0 ∨ 0x05800000 < base + len)

/-- RXWIN_WRITE: an arriving write of STATE or GRID data lands in the window or is discarded; its flits are consumed. -/
def rxwinWrite (l v off : Nat) (bytes : List Nat) (s0 : State) : State :=
  let n := bytes.length
  let s := tolConsume l v ((n + 63) / 64) s0
  let base := fget s (TOL_RXWIN_BASE l) fWord
  let len := fget s (TOL_RXWIN_BYTES l) TOL_RXWIN_BYTES_BYTES
  if !linkIsUp l s0 then s0
  else if len < off + n then bump s (TOL_RXWIN_DISCARD l)
  else if n = 0 then s
  else outerAsk ⟨.tollis (if l = 0 then 0 else 1), false, true, base + off, n, bytes, .good⟩ s

/-! ## Opcodes (R398) -/

/-- TOL_JOB. -/
def cmdTolJob (ps : List Nat) (s : State) : CmdOut :=
  withParams 3 ps (fun s =>
    let m := nth ps 2 0
    if 7 < nth ps 1 0 ∨ 0xFFFF < nth ps 0 0 ∨ 3 < m then fail stParam s
    else if running s then fail stBusy s
    else
      let s1 := fset (fset s TOL_JOB TOL_JOB_JOB_ID (nth ps 0 0)) TOL_JOB TOL_JOB_MODULE_ID (nth ps 1 0)
      ok [] ([0, 1].foldl (fun s l => fput s (TOL_CTRL l) TOL_CTRL_JOB_EN (bitOf l m)) s1)) s

/-- TOL_ABORT. -/
def cmdTolAbort (ps : List Nat) (s : State) : CmdOut :=
  withParams 0 ps (fun s => if jobRuns s then ok [] (localAbort (sendAbort abCommand s)) else fail stNoResource s) s

/-- The audit registers of the five ledgers, four words each (R98, R196, R219, R284, R391, R398). -/
def ledgerWords (s : State) : List Nat :=
  let tags := [(32768 - s.fab.tags.length) + (allocTags s).length * 65536,
    (returningTags s).length + b2n (fbit s DOME_TAG_LEDGER1 DOME_TAG_LEDGER1_ERR) * 2 ^ 31,
    fget s DOME_TAG_HWM DOME_TAG_HWM_HWM, (rd s DOME_TAG_WAITS).toNat]
  let kv := [pageCount pgFree s, pageCount pgAlloc s, pageCount pgQuarantined s,
    pageCount pgMigrating s + b2n (fbit s ATN_PAGE_MIG ATN_PAGE_MIG_ERR) * 2 ^ 31]
  let vc := (List.range 4).map (fun i => (rd s (nth [TOL_VC_TX 0 0, TOL_VC_RX 0 0, TOL_VC_RET 0 0, TOL_VC_CAP 0 0] i 0)).toNat)
  [ingLedgerWord s, 0, 0, 0] ++ tags ++ kv ++ vc

/-! ## Commands -/

def execAbortTokenRx (l : Fin 2) (job origin hops seq : Nat) (s : State) : Host.Outcome State Fault Refusal :=
  onMain (tokenRx l job origin hops seq) s
def execFlitRx (l : Fin 2) (vc : Fin 5) (good : Bool) (codewords : Nat) (lane : Fin 5) (symbols : Nat) (s : State) :
    Host.Outcome State Fault Refusal := onMain (flitRx l vc good codewords lane symbols) s
def execCreditReturn (l : Fin 2) (vc : Fin 5) (toPeer : Bool) (s : State) : Host.Outcome State Fault Refusal :=
  onMain (creditReturn l vc toPeer) s
def execCreditReturningTimeout (l : Fin 2) (vc : Fin 5) (s : State) : Host.Outcome State Fault Refusal :=
  onMain (creditTimeout l vc) s
def execLinkLockLoss (l : Fin 2) (lane : Fin 5) (s : State) : Host.Outcome State Fault Refusal := onMain (lockLoss l lane) s
def execLinkRetrainDone (l : Fin 2) (adverts : List Nat) (s : State) : Host.Outcome State Fault Refusal :=
  onMain (retrainDone l adverts) s
def execRxwinWrite (l : Fin 2) (vc : Fin 5) (offset : Nat) (bytes : List Nat) (s : State) : Host.Outcome State Fault Refusal :=
  onMain (rxwinWrite l vc offset bytes) s
def execTolJob (h : CmdHead) (ps : List Word) (s : State) : Host.Outcome State Fault Refusal := onCmd h 0x0906 cmdTolJob ps s
def execTolAbort (h : CmdHead) (ps : List Word) (s : State) : Host.Outcome State Fault Refusal := onCmd h 0x0907 cmdTolAbort ps s

end Sys2Proof.Machine
end

