-- ==== Sys2Proof/Machine/Cupola.lean ====
section
/-! DEFINITION. Cupola: sensors, VDD_CORE, Buttress, the event log, firmware update and boot, attestation, and the
management opcodes (R401 to R430). -/
namespace Sys2Proof.Machine

/-- Change Cupola's own state. -/
def updCup (f : CupolaState → CupolaState) (s : State) : State := { s with cup := f s.cup }

/-- Cupola firmware runs, rather than the boot ROM (R423). -/
def firmwareRuns (s : State) : Bool := cupolaRuns s && !fbit s CUP_STATUS CUP_STATUS_ROM_RECOVERY

/-- An event of Cupola firmware's own. -/
def onFirmware (f : State → State) (s : State) : Host.Outcome State Fault Refusal :=
  .next (if firmwareRuns s then f s else s)

/-! ## MONITOR (R404 to R406) -/

/-- The nominal voltage of a monitor other than VDD_CORE's, in mV. -/
def nominalMv (i : Nat) : Nat :=
  if i < 6 then 750 else if i < 8 then 850 else if i < 10 then 1800 else if i < 14 then 500 else 1050

/-- Whether a reading is outside its window; that of VDD_CORE is suspended for 200 µs after a new target. -/
def voltOut (i mv : Nat) (s : State) : Bool :=
  if i < 4 then decide (s.cup.targetAt + 200000 ≤ upNs s) && decide (mv + 30 < s.cup.target ∨ s.cup.target + 30 < mv)
  else decide (mv * 100 < nominalMv i * 95 ∨ nominalMv i * 105 < mv * 100)

/-- Store the readings. -/
def storeSensors (ts : List Int) (vs ps : List Nat) (s : State) : State :=
  let s1 := forUpTo 24 (fun i s => fset s (CUP_TEMP i) CUP_TEMP_TEMP (unsigned 16 (nth ts i 0))) s
  let s2 := forUpTo 16 (fun i s => fset s (CUP_VMON i) CUP_VMON_MV (clampNat 4095 (nth vs i 0))) s1
  forUpTo 6 (fun i s => fset s (CUP_POWER i) CUP_POWER_MW (clampNat 65535 (nth ps i 0))) s2

/-- The thermal warning with its hysteresis (R405). -/
def thermWarn (ts : List Int) (s : State) : State :=
  let warn : Int := (fget s CUP_THERM CUP_THERM_WARN * 10 : Nat)
  match (List.range 24).find? (fun i => decide (warn ≤ nth ts i 0)) with
  | some i =>
    if fbit s CUP_STATUS CUP_STATUS_THERM_WARN then s
    else reportFault 31 0 (logEvent 0x0501 blkCup i (unsigned 32 (nth ts i 0)) (fon s CUP_STATUS CUP_STATUS_THERM_WARN))
  | none =>
    if (List.range 24).all (fun i => decide (nth ts i 0 ≤ warn - 50)) then fset s CUP_STATUS CUP_STATUS_THERM_WARN 0 else s

/-- A diode at or above TRIP in two consecutive samples fires the THERMAL source (R405). -/
def thermTrip (ts : List Int) (s : State) : State :=
  let trip : Int := (fget s CUP_THERM CUP_THERM_TRIP * 10 : Nat)
  let hot := (List.range 24).filter (fun i => decide (trip ≤ nth ts i 0))
  let s1 := updCup (fun c => { c with hot := hot }) s
  match hot.find? (fun i => s.cup.hot.contains i) with
  | some i => sourceEvent srcThermal false (logEvent 0x0502 blkCup i (unsigned 32 (nth ts i 0)) s1)
  | none => s1

/-- A monitor outside its window in two consecutive samples sends SUPPLY_MAIN and fires the SUPPLY source (R406). -/
def supplyCheck (vs : List Nat) (s : State) : State :=
  let out := (List.range 16).filter (fun i => voltOut i (nth vs i 0) s)
  let s1 := out.foldl (fun s i => fon s (CUP_VMON i) CUP_VMON_OUT) (updCup (fun c => { c with out := out }) s)
  match out.find? (fun i => s.cup.out.contains i) with
  | some i => sourceEvent srcSupply false (reportFault 32 0 (logEvent 0x0503 blkCup i (nth vs i 0) s1))
  | none => s1

/-- MONITOR_TASK: temperatures in 0.1 °C, voltages in mV, rail powers in 10 mW. -/
def monitor (ts : List Int) (vs ps : List Nat) (s : State) : State :=
  if ts.length ≠ 24 ∨ vs.length ≠ 16 ∨ ps.length ≠ 6 then s
  else
    let s1 := thermTrip ts (thermWarn ts (storeSensors ts vs ps s))
    if mainRuns s1 then supplyCheck vs s1 else s1

/-! ## VDD_CORE (R407, R408) -/

def vMin (s : State) : Nat := fget s CUP_VCORE CUP_VCORE_VMIN
def vMax (s : State) : Nat := fget s CUP_VCORE CUP_VCORE_VMAX

/-- A target is written over AVSBus; the next waits for its acknowledgement. -/
def avsWrite (v : Nat) (s : State) : State :=
  emit (.avsTarget v) (updCup (fun c => { c with target := v, avsWaits := true, targetAt := upNs s }) s)

/-- The power of all rails exceeds the cap. -/
def overCap (s : State) : Bool :=
  decide (fget s CUP_PCAP CUP_PCAP_CAP * 100 < ((List.range 6).map (fun i => fget s (CUP_POWER i) CUP_POWER_MW)).sum)

/-- The target that ADAPTIVE mode asks for, before the clamp, and the calm count. -/
def adaptive (v calm : Nat) (s : State) : Nat × Nat :=
  let slack := signed 32 (fget s SLC_GOV_SLACK fWord)
  if fbit s CUP_STATUS CUP_STATUS_THERM_WARN || overCap s then (v - 5, calm)
  else if fget s SLC_GOV_LEVEL SLC_GOV_LEVEL_LAST_MAX > 0
      ∨ slack < ((fget s SLC_GOV_MARGIN SLC_GOV_MARGIN_MARGIN * 1000 : Nat) : Int) then (v + 5, 0)
  else if ((fget s SLC_GOV_MARGIN SLC_GOV_MARGIN_RELAX * 1000 : Nat) : Int) ≤ slack then
    (if 1000 ≤ calm + 1 then (v - 5, 0) else (v, calm + 1))
  else (v, calm)

/-- A step of at most 10 mV towards a target. -/
def toward (v t : Nat) : Nat := if v < t then min t (v + 10) else max t (v - 10)

/-- VCORE_TASK. -/
def vcoreTask (s : State) : State :=
  let v := s.cup.target
  if fbit s CUP_VCORE CUP_VCORE_FIXED then
    let goal := max (vMin s) (min (vMax s) (fget s CUP_VCORE CUP_VCORE_TARGET))
    let w := if s.cup.fixedAt ≠ some goal then toward v goal else if overCap s then v - 5 else v
    let u := max (vMin s) (min (vMax s) w)
    if s.cup.avsWaits then s
    else
      let s1 := if w = goal then updCup (fun c => { c with fixedAt := some goal }) s else s
      if u ≠ v then avsWrite u s1 else s1
  else
    let a := adaptive v s.cup.calm s
    let u := max (vMin s) (min (vMax s) a.1)
    let s1 := updCup (fun c => { c with calm := a.2, fixedAt := none }) s
    if u = v ∨ s.cup.avsWaits then s1
    else avsWrite (toward v u) (fset s1 CUP_VCORE CUP_VCORE_TARGET (toward v u))

/-- AVS_TARGET_ACK. -/
def avsAck (s : State) : State := updCup (fun c => { c with avsWaits := false }) s

/-- Whether a CUP_VCORE image, a cap or a CUP_THERM image is out of range (R408, R430). -/
def vcoreBad (v : Word) : Bool :=
  let lo := getBits CUP_VCORE_VMIN v
  let hi := getBits CUP_VCORE_VMAX v
  decide (lo < 550 ∨ 800 < lo ∨ hi < 550 ∨ 800 < hi ∨ hi < lo)
def pcapBad (v : Word) : Bool := decide (getBits CUP_PCAP_CAP v < 60 ∨ 150 < getBits CUP_PCAP_CAP v)
def thermBad (v : Word) : Bool := decide (getBits CUP_THERM_WARN v < 85 ∨ 125 < getBits CUP_THERM_WARN v)

/-- A valid image is stored; TARGET only in FIXED mode. BELOW_FLOOR follows VMIN, and its changes are logged. -/
def vcoreWrite (v : Word) (s : State) : State :=
  let old := vMin s
  let t := fget s CUP_VCORE CUP_VCORE_TARGET
  let s1 := storeRw CUP_VCORE v s
  let s2 := if getBits CUP_VCORE_FIXED v = 1 then s1 else fset s1 CUP_VCORE CUP_VCORE_TARGET t
  let s3 := fput s2 CUP_STATUS CUP_STATUS_BELOW_FLOOR (decide (vMin s2 < 650))
  if vMin s3 ≠ old ∧ (vMin s3 < 650 ∨ old < 650) then logEvent 0x0504 blkCup 0 (vMin s3) s3 else s3

/-! ## Buttress (R415, R416) -/

/-- Golden rotations that the Spire reported bring their units to the queue as it has room (R341, R345). -/
def rotationUnits (r : Nat) : List Nat :=
  (List.range 4).map (fun i => 48 + 4 * r + i) ++ (List.range 16).map (fun i => 80 + 16 * r + i)
    ++ (List.range 8).map (fun i => 208 + 8 * r + i) ++ [flatProjection]

def btFeed (s : State) : State :=
  let b := s.bt.backlog ++ s.spr.bist.flatMap rotationUnits
  let room := 16 - s.bt.queue.length
  let s1 : State := { s with spr := { s.spr with bist := [] } }
  (b.take room).foldl (fun s f => flagTarget f 2 s) (updBt (fun t => { t with backlog := b.drop room }) s1)

/-- A logical array or vector core takes a spare: in one grant the map changes (R416). -/
def swapTo (f p : Nat) (confirmed : Bool) (s : State) : State :=
  let vec := decide (80 ≤ f)
  let l := if vec then f - 80 else f - 48
  let old := targetSlot f s
  let s1 := physSet vec p (some l) false true (physSet vec old none true false s)
  let s2 := if vec then fset s1 (CUP_MAP_VEC l) CUP_MAP_VEC_PHYSICAL p else fset s1 (CUP_MAP_MXA l) CUP_MAP_MXA_PHYSICAL p
  let s3 : State := fset { s2 with esc := { s2.esc with units := s2.esc.units.filter (fun e => e.1 != f) } }
    (RST_UNIT f) RST_UNIT_IN_WINDOW 0
  let s4 := updBt (fun b => { b with
    failed := if confirmed then b.failed ++ [256 * b2n vec + old] else b.failed }) s3
  logEvent 0x0404 blkCup (flatUnit f) p (showSpares s4)

/-- One retired unit is replaced, or leaves service when no spare is left; its fence may lift. -/
def swapUnit (f : Nat) (confirmed : Bool) (s : State) : State :=
  let done := updBt (fun b => { b with swaps := b.swaps.filter (fun w => w.1 != f) }) s
  match (if 80 ≤ f then spareVec s else spareArray s) with
  | some p => liftNow (showBt (swapTo f p confirmed done))
  | none => liftNow (showBt (noSpare f (btEvent 0x0405 f done)))

/-- A Dome bank's test ends: a failing bank is copied to a spare. -/
def bankTested (pass : Bool) (t : Nat) (s : State) : State :=
  let s1 := updBt (fun b => { b with testing := none, errors := b.errors.filter (fun e => e.1 != t) }) s
  if pass then showBt (btEvent 0x0402 t s1)
  else
    let s2 := btEvent 0x0403 t s1
    match spareBank s2 with
    | some p => showBt (updBt (fun b => { b with copy := some (t - 0x8000, p) }) s2)
    | none => showBt (btEvent 0x0405 t s2)

/-- Whether the reset controller could start an L3 of a unit now. -/
def l3Free (f : Nat) (s : State) : Bool :=
  !s.rcv.any (fun r => decide (r.level ≤ 1) || (r.part == flatPart f && rcvActive r))

/-- A flagged target comes to its test: a unit through an L3 with test, a Dome bank by itself. -/
def testBegin (e : Nat × Nat) (s : State) : State :=
  let t := e.1
  let s1 := showBt (updBt (fun b => { b with queue := b.queue.erase e, testing := some t }) s)
  if 0x8000 ≤ t then s1
  else if fuseEntry srcCupola ≤ 3 ∧ l3Free t s then
    cappedRequest { rcvNew 3 srcCupola 64 (flatPart t) t s1 with test := true } s1
  else s

/-- BUTTRESS_STEP: a swap, else the end of a bank's test, else the next test; one at a time. Units flagged for golden
failure or by SPARE_TEST are tested at once, the others while the run state is IDLE. -/
def btStep (pass : Bool) (s0 : State) : State :=
  let s := btFeed s0
  if s.bt.copy.isSome then s
  else match s.bt.testing with
    | some t => if 0x8000 ≤ t then bankTested pass t s else s
    | none =>
      match s.bt.swaps.find? (fun w => !s.rcv.any (fun r => rcvActive r && (rcvFlats r).contains w.1)) with
      | some (f, c) => swapUnit f c s
      | none =>
        match s.bt.queue.find? (fun e => decide (2 ≤ e.2) || runState s == stIdle) with
        | some e => testBegin e s
        | none => s

/-- DOME_BANK_COPY_DONE: in one grant the map changes to the spare. -/
def bankCopied (s : State) : State :=
  match s.bt.copy with
  | none => s
  | some (b, p) =>
    let old := domeSlot b s
    let s1 := fset (fon s (DOME_BANK_ID old) DOME_BANK_ID_RETIRED) (DOME_BANK_ID old) DOME_BANK_ID_IN_SERVICE 0
    let s2 := fon (fset s1 (DOME_BANK_ID p) DOME_BANK_ID_LOGICAL b) (DOME_BANK_ID p) DOME_BANK_ID_IN_SERVICE
    let s3 := updBt (fun t => { t with copy := none, failed := t.failed ++ [0x200 + old] })
      (fset s2 (CUP_MAP_DOME b) CUP_MAP_DOME_PHYSICAL p)
    logEvent 0x0404 blkCup (0x8000 + b) p (showBt (showSpares s3))

/-! ## The event log and budgets (R403, R410, R411) -/

/-- The ring slot of a sequence number. -/
def logEntry (q : Nat) (s : State) : List Nat := ddrWords s (logBase + q % 32768 * 32) 8

/-- LOG_TASK: every pending entry still in the ring is persisted in sequence order. -/
def logTask (s : State) : State :=
  let next := fget s CUP_LOG_NEXT fWord
  let from_ := max (fget s CUP_LOG_PERSISTED fWord) (next - 32768)
  let es := (List.range (next - from_)).map (fun i => logEntry (from_ + i) s)
  fset (updCup (fun c => { c with flashLog := (es.reverse ++ c.flashLog).take 131072 }) s) CUP_LOG_PERSISTED fWord next

/-- TASK_BUDGET_OVERRUN: the task continues. -/
def budgetOverrun (t : Nat) (s : State) : State := reportFault 17 0 (bump s (CUP_BUDGET t))

/-- LOG_READ. -/
def cmdLogRead (ps : List Nat) (s : State) : CmdOut :=
  withParams 2 ps (fun s =>
    let first := nth ps 0 0
    let n := nth ps 1 0
    if n = 0 ∨ 120 < n then fail stParam s
    else
      let next := fget s CUP_LOG_NEXT fWord
      let a := max first (next - 32768)
      let k := min n (next - a)
      ok ([b2n (decide (first < next - 32768)), k] ++ (List.range k).flatMap (fun i => logEntry (a + i) s)) s) s

/-! ## Firmware images (R419 to R422) -/

/-- Word i of an image's bytes. -/
def fwWord (img : List Nat) (i : Nat) : Nat := ofBytes (slice (4 * i) 4 img)
def fwPayload (img : List Nat) : List Nat := slice 4096 (fwWord img 4) img
def fwSvn (img : List Nat) : Nat := fwWord img 2
def fwVersion (img : List Nat) : Nat := fwWord img 3

/-- The anti-rollback count (R422). -/
def fwCount (s : State) : Nat := min 64 (max Config.rollback s.cup.burned)

/-- R421's checks of an image, in order; the first failure's code. -/
def fwCheck (img : List Nat) (count : Nat) : Nat :=
  let ecdsa := slice 256 96 img
  let lms := slice 448 56 img
  let ks := fwWord img 6
  if fwWord img 0 ≠ 0x43465746 ∨ fwWord img 1 ≠ 1 ∨ (List.range 44).any (fun i => fwWord img (20 + i) != 0) then 1
  else if 2 ^ 22 < img.length ∨ img.length < 4096 + fwWord img 4 ∨ 1572864 < fwWord img 7 then 2
  else if Config.sha384 ecdsa ≠ Config.ecdsaKeyHash (ks % 4) ∨ Config.ecdsaRevoked (ks % 4)
      ∨ Config.sha256 lms ≠ Config.lmsKeyHash (ks / 256 % 4) ∨ Config.lmsRevoked (ks / 256 % 4) then 3
  else if !Config.ecdsaGood ecdsa (slice 352 96 img) (img.take 256) then 4
  else if !Config.lmsGood lms (slice 504 1772 img) (img.take 256) then 5
  else if Config.sha384 (fwPayload img) ≠ slice 32 48 img then 6
  else if fwSvn img < count ∨ 64 < fwSvn img then 7
  else 0

/-- The staging area (R424). -/
def stageBase : Nat := 0x01000000
def stagedImage (s : State) : List Nat := getBytes s.lpddr stageBase s.cup.staged

/-- The bytes of a flash bank. -/
def bankImage (b : Nat) (s : State) : List Nat := (nth s.cup.banks b none).getD (Config.flashBank b)

/-! ## Boot descriptors (R412) -/

/-- The current descriptor: the valid copy with the higher sequence; whether it is copy A. -/
def descCurrent (c : CupolaState) : Option (BootDesc × Bool) :=
  match c.descA, c.descB with
  | some a, some b => if b.seq < a.seq then some (a, true) else some (b, false)
  | some a, none => some (a, true)
  | none, some b => some (b, false)
  | none, none => none

/-- A descriptor write goes to the other copy with the sequence raised by one. -/
def descWrite (f : BootDesc → BootDesc) (s : State) : State :=
  match descCurrent s.cup with
  | none => s
  | some (d, isA) =>
    let d1 := { f d with seq := d.seq + 1 }
    updCup (fun c => if isA then { c with descB := some d1 } else { c with descA := some d1 }) s

/-- The INVALID flag of a bank. -/
def setInvalid (b : Nat) (on : Bool) (d : BootDesc) : BootDesc :=
  { d with invalid := if on then Nat.lor d.invalid (2 ^ b) else d.invalid - b2n (bitOf b d.invalid) * 2 ^ b }

/-- The bank other than ACTIVE. -/
def inactiveBank (s : State) : Nat := match descCurrent s.cup with | some (d, _) => 1 - d.active | none => 1

/-! ## The boot ROM (R423, R425) -/

/-- The image the ROM reads of a bank: the boot copy in LPDDR5X, when it is of that bank and its digest matches. -/
def romImage (b : Nat) (s : State) : List Nat :=
  match s.cup.bootCopy with
  | some (k, d) =>
    let img := getBytes s.lpddr 0 (bankImage b s).length
    if k = b ∧ Config.sha384 img = d then img else bankImage b s
  | none => bankImage b s

/-- The result of checking a bank; an INVALID bank counts as HEADER without being read. -/
def romCheck (b : Nat) (s : State) : Nat :=
  match descCurrent s.cup with
  | some (d, _) => if bitOf b d.invalid then 1 else fwCheck (romImage b s) (fwCount s)
  | none => 1

/-- A bank is loaded: its image goes to the boot staging range, and CUP_FW shows it. -/
def romLoad (b : Nat) (fallback : Bool) (s : State) : State :=
  let img := romImage b s
  let trial := match descCurrent s.cup with | some (d, _) => d.trial && d.active == b | none => false
  let a := CUP_FW
  let s1 := fset (fset (fput (fput (fset s a CUP_FW_BANK b) a CUP_FW_TRIAL trial) a CUP_FW_FALLBACK fallback)
    a CUP_FW_SVN (fwSvn img)) a CUP_FW_COUNT (fwCount s)
  updCup (fun c => { c with loaded := true, bootCopy := some (b, Config.sha384 img) }) (ddrPut s1 0 img)

/-- ROM recovery: out of service, with the ROM answering. -/
def romRecovery (s : State) : State :=
  let s1 := fon (fset (fon s CUP_STATUS CUP_STATUS_ROM_RECOVERY) DEV_RUN DEV_RUN_STATE stOutOfService) RST_ESC RST_ESC_OOS
  { s1 with pwr := { s1.pwr with booted := true }, rcv := s1.rcv.filter (fun r => decide (2 ≤ r.level)) }

/-- Boot a bank, or the other one when its check fails; the ROM stays in recovery when both fail. -/
def romBoot (b : Nat) (fallback : Bool) (s : State) : State :=
  if romCheck b s = 0 then romLoad b fallback s
  else if romCheck (1 - b) s = 0 then logEvent 0x0607 blkCup (1 - b) (romCheck b s) (romLoad (1 - b) true s)
  else romRecovery s

/-- BOOT_ROM: the ROM acts on the current descriptor and loads a bank. -/
def bootRom (s : State) : State :=
  match descCurrent s.cup with
  | none => romRecovery s
  | some (d, _) =>
    let t := d.active
    let p := 1 - t
    if d.trial ∧ !d.confirmed ∧ d.boots = 0 then
      romBoot t false (logEvent 0x0604 blkCup t (fwSvn (bankImage t s)) (descWrite (fun d => { d with boots := 1 }) s))
    else if d.trial ∧ !d.confirmed then
      let c := romCheck p s
      let settle (d : BootDesc) : BootDesc := { d with trial := false, confirmed := true, boots := 0 }
      if c = 0 then
        romLoad p false (logEvent 0x0606 blkCup p (fwSvn (bankImage p s))
          (descWrite (fun d => setInvalid t false { settle d with active := p }) s))
      else if c = 7 ∧ romCheck t s = 0 then
        romLoad t true (logEvent 0x0605 blkCup t (fwSvn (bankImage t s)) (logEvent 0x0607 blkCup t c
          (descWrite (fun d => setInvalid p true (settle d)) s)))
      else romBoot t true (logEvent 0x0607 blkCup t c s)
    else romBoot t false s

/-- Whether the boot of an L0 or L1 is under way, before or after the ROM has loaded an image. -/
def booting (loaded : Bool) (s : State) : Bool :=
  mainRuns s && !s.pwr.booted && s.cup.loaded == loaded && s.rcv.any (fun r => decide (r.level ≤ 1) && r.step == .rebuild)

/-! ## Firmware opcodes (R424, R429) -/

/-- FW_STATUS. -/
def cmdFwStatus (ps : List Nat) (s : State) : CmdOut :=
  withParams 0 ps (fun s => ok ([(rd s CUP_FW).toNat] ++ [0, 1].flatMap (fun b => [fwVersion (bankImage b s), fwSvn (bankImage b s)])
    ++ [s.cup.verified.getD 8]) s) s

/-- FW_DATA. -/
def cmdFwData (ps : List Nat) (s : State) : CmdOut :=
  let off := nth ps 0 0
  let n := ps.length - 1
  if ps.length < 2 ∨ 1000 < n ∨ off % 4 ≠ 0 ∨ 2 ^ 22 < off + 4 * n then fail stParam s
  else ok [] (updCup (fun c => { c with staged := max c.staged (off + 4 * n), verified := none })
    (ddrPutWords s (stageBase + off) (ps.drop 1)))

/-- FW_STAGE. -/
def cmdFwStage (ps : List Nat) (s : State) : CmdOut :=
  withParams 3 ps (fun s =>
    let a := nth ps 0 0 + 2 ^ 32 * nth ps 1 0
    let n := nth ps 2 0
    if 2 ^ 22 < n ∨ a < reservedEnd ∨ ddrEnd < a + n then fail stParam s
    else ok [] (updCup (fun c => { c with staged := n, verified := none }) (ddrPut s stageBase (getBytes s.lpddr a n)))) s

/-- FW_VERIFY. -/
def cmdFwVerify (ps : List Nat) (s : State) : CmdOut :=
  withParams 0 ps (fun s =>
    let r := if s.cup.staged = 0 then 8 else fwCheck (stagedImage s) (fwCount s)
    let s1 := updCup (fun c => { c with verified := some r }) s
    ok [r] (if r = 0 then logEvent 0x0601 blkCup (inactiveBank s) (fwSvn (stagedImage s)) s1
      else logEvent 0x0602 blkCup (inactiveBank s) r s1)) s

/-- FW_COMMIT: the inactive bank is INVALID until its programming ends, which answers the command. -/
def cmdFwCommit (ps : List Nat) (s : State) : CmdOut :=
  withParams 0 ps (fun s =>
    if s.cup.verified ≠ some 0 then fail stNoResource s else later (descWrite (setInvalid (inactiveBank s) true) s)) s

/-- The programming of a bank has ended and reads back right. -/
def commitDone (s : State) : State :=
  if opWaiting 0x0A07 s then
    let b := inactiveBank s
    let s1 := updCup (fun c => { c with banks := setNth c.banks b (some (stagedImage s)), committed := some b })
      (descWrite (setInvalid b false) s)
    finishOp 0x0A07 ⟨stOk, [b]⟩ (logEvent 0x0603 blkCup b (fwSvn (stagedImage s)) s1)
  else s

/-- FW_ACTIVATE. -/
def cmdFwActivate (ps : List Nat) (s : State) : CmdOut :=
  withParams 1 ps (fun s =>
    let now := nth ps 0 0
    if 1 < now then fail stParam s
    else if now = 1 ∧ runState s ≠ stIdle then fail stBusy s
    else match s.cup.committed with
      | none => fail stNoResource s
      | some b =>
        let s1 := descWrite (fun d => { d with active := b, trial := true, confirmed := false, boots := 0 }) s
        ok [] (if now = 1 then cappedRequest (rcvNew 1 srcCupola 64 0 noFlat s1) s1 else s1)) s

/-- FW_CONFIRM: the fuses are burned up to the running SVN, then the descriptor is settled. -/
def cmdFwConfirm (ps : List Nat) (s : State) : CmdOut :=
  withParams 0 ps (fun s =>
    if !fbit s CUP_FW CUP_FW_TRIAL then fail stNoResource s
    else
      let svn := fget s CUP_FW CUP_FW_SVN
      let b := fget s CUP_FW CUP_FW_BANK
      let s1 := updCup (fun c => { c with burned := max c.burned svn }) s
      let old := decide (fwSvn (bankImage (1 - b) s1) < fwCount s1)
      let s2 := descWrite (fun d => (if old then setInvalid (1 - b) true else id)
        { d with trial := false, confirmed := true, boots := 0 }) s1
      let s3 := fset (fset s2 CUP_FW CUP_FW_TRIAL 0) CUP_FW CUP_FW_COUNT (fwCount s2)
      ok [fwCount s3] (logEvent 0x0605 blkCup b svn s3)) s

/-! ## Other management opcodes -/

/-- CUP_SENSORS. -/
def cmdCupSensors (ps : List Nat) (s : State) : CmdOut :=
  withParams 0 ps (fun s => ok ((List.range 24).map (fun i => (rd s (CUP_TEMP i)).toNat)
    ++ (List.range 16).map (fun i => (rd s (CUP_VMON i)).toNat) ++ (List.range 6).map (fun i => (rd s (CUP_POWER i)).toNat)
    ++ [govRate s, (rd s CUP_VCORE).toNat, (rd s CUP_STATUS).toNat]) s) s

/-- SPARE_STATUS. -/
def cmdSpareStatus (ps : List Nat) (s : State) : CmdOut :=
  withParams 0 ps (fun s => ok ((List.range 32).map (fun i => (rd s (CUP_MAP_MXA i)).toNat)
    ++ (List.range 128).map (fun i => (rd s (CUP_MAP_VEC i)).toNat) ++ (List.range 64).map (fun i => (rd s (CUP_MAP_DOME i)).toNat)
    ++ [fget s CUP_SPARE CUP_SPARE_MXA_LEFT, fget s CUP_SPARE CUP_SPARE_VEC_LEFT, fget s CUP_SPARE CUP_SPARE_DOME_LEFT,
      s.bt.queue.length]) s) s

/-- SPARE_TEST. -/
def cmdSpareTest (ps : List Nat) (s : State) : CmdOut :=
  withParams 1 ps (fun s =>
    let u := nth ps 0 0
    let t := if 0x8000 ≤ u then (if u < 0x8040 then some u else none) else unitFlat u
    match t with
    | none => fail stParam s
    | some t => if 16 ≤ s.bt.queue.length then fail stNoResource s else ok [] (flagTarget t 3 s)) s

/-- VCORE_CONFIG. -/
def cmdVcoreConfig (ps : List Nat) (s : State) : CmdOut :=
  withParams 3 ps (fun s =>
    let w (i : Nat) : Word := BitVec.ofNat 32 (nth ps i 0)
    if vcoreBad (w 0) || pcapBad (w 1) || thermBad (w 2) || reservedSet CUP_VCORE (nth ps 0 0) || reservedSet CUP_PCAP (nth ps 1 0)
        || decide (2 ^ 16 ≤ nth ps 2 0) then fail stParam s
    else ok [] (storeRw CUP_THERM (w 2) (storeRw CUP_PCAP (w 1) (vcoreWrite (w 0) s)))) s

/-- CERT_SET. -/
def cmdCertSet (ps : List Nat) (s : State) : CmdOut :=
  withParams 3 ps (fun s =>
    let a := nth ps 0 0 + 2 ^ 32 * nth ps 1 0
    let n := nth ps 2 0
    let chain := getBytes s.lpddr a n
    if 65536 < n ∨ ddrEnd < a + n ∨ !Config.certFits chain then fail stParam s
    else if running s then fail stBusy s
    else ok [] (logEvent 0x0700 blkCup 0 stOk (updCup (fun c => { c with cert := some chain }) s))) s

/-! ## SPDM (R426, R427) -/

def spdmDigests : Nat := 0x81
def spdmCertificate : Nat := 0x82
def spdmChallenge : Nat := 0x83
def spdmVersion : Nat := 0x84
def spdmMeasurements : Nat := 0xE0
def spdmCapabilities : Nat := 0xE1
def spdmAlgorithms : Nat := 0xE3

/-- An SPDM request arrives over MCTP: its response leaves and the request is logged (R409, R426). -/
def spdmAnswer (req need : Nat) (status : Nat) (content : State → List Nat) (s : State) : State :=
  if !s.pwr.pcieUp || !fbit s CMD_MCTP CMD_MCTP_EN then s
  else if Nat.land s.cup.spdm need ≠ need then logEvent 0x0700 blkCup req 4 (emit (.spdm 0x7F [4]) s)
  else logEvent 0x0700 blkCup req status (emit (.spdm req (content s)) s)

/-- The certificate chain of a slot. -/
def certOf (slot : Nat) (s : State) : Option (List Nat) :=
  if slot = 0 then some Config.certChain else if slot = 1 then s.cup.cert else none

/-- The bytes of a word list. -/
def rawBytes (ws : List Nat) : List Nat := bytesOfWords ws

/-- The CRC-32C that ends a loaded image, over every byte before it (R202, R247); 0 when none is loaded. -/
def imageCrc (i : Option (Nat × Nat)) (s : State) : Nat :=
  match i with | some (a, n) => crc32c (getBytes s.lpddr a (n - 4)) | none => 0

/-- A measurement (R427). -/
def measurement (i : Nat) (s : State) : List Nat :=
  let img := bankImage (fget s CUP_FW CUP_FW_BANK) s
  match i with
  | 1 => Config.romDigest
  | 2 => Config.sha384 (img.take 256 ++ fwPayload img)
  | 3 => rawBytes [fget s CUP_FW CUP_FW_SVN, fwCount s]
  | 4 => rawBytes [Config.spireRom, (rd s SPR_CFG_CRC).toNat, (rd s SPR_GOLD_CRC).toNat]
  | 5 => rawBytes [imageCrc (s.img.active.map (fun w => (w.addr, w.len))) s, imageCrc s.img.slvActive s]
  | 6 => rawBytes [(rd s RST_FUSE_MAP).toNat, (rd s RST_FUSE_ESC).toNat, (rd s LNT_STATUS).toNat]
  | 7 => Config.sha384 (s.bt.failed ++ s.bt.rows)
  | _ => []

/-- The indices a GET_MEASUREMENTS asks for: one, or all for 0xFF. -/
def measured (i : Nat) (s : State) : List Nat :=
  if i = 0 then [7]
  else if i = 0xFF then (List.range 7).flatMap (fun k => measurement (k + 1) s) else measurement i s

/-- The agreement an SPDM request leaves. -/
def spdmAgree (bit : Nat) (s : State) : State := updCup (fun c => { c with spdm := Nat.lor c.spdm bit }) s

/-! ## Commands -/

def execMonitorTask (temps : List Int) (volts powers : List Nat) (s : State) : Host.Outcome State Fault Refusal :=
  onFirmware (monitor temps volts powers) s
def execVcoreTask (s : State) : Host.Outcome State Fault Refusal := onFirmware vcoreTask s
def execAvsTargetAck (s : State) : Host.Outcome State Fault Refusal := onFirmware avsAck s
def execButtressStep (pass : Bool) (s : State) : Host.Outcome State Fault Refusal := onFirmware (btStep pass) s
def execDomeBankCopyDone (s : State) : Host.Outcome State Fault Refusal := onFirmware bankCopied s
def execLogTask (s : State) : Host.Outcome State Fault Refusal := onFirmware logTask s
def execTaskBudgetOverrun (t : Fin 7) (s : State) : Host.Outcome State Fault Refusal := onFirmware (budgetOverrun t) s
def execBootRom (s : State) : Host.Outcome State Fault Refusal := .next (if booting false s then bootRom s else s)

def execGetVersion (s : State) : Host.Outcome State Fault Refusal :=
  onFirmware (fun s => spdmAgree 1 (spdmAnswer spdmVersion 0 0 (fun _ => [0x12]) { s with cup := { s.cup with spdm := 0 } })) s
def execGetCapabilities (s : State) : Host.Outcome State Fault Refusal :=
  onFirmware (fun s => spdmAgree (s.cup.spdm % 2 * 2) (spdmAnswer spdmCapabilities 1 0 (fun _ => [0x16]) s)) s
def execNegotiateAlgorithms (asym hash measHash : Nat) (s : State) : Host.Outcome State Fault Refusal :=
  onFirmware (fun s => spdmAgree (if s.cup.spdm % 4 = 3 then 4 else 0) (spdmAnswer spdmAlgorithms 3 0
    (fun _ => [Nat.land asym 0x80, Nat.land hash 2, Nat.land measHash 4]) s)) s
def execGetDigests (s : State) : Host.Outcome State Fault Refusal :=
  onFirmware (spdmAnswer spdmDigests 7 0 (fun s =>
    [1 + 2 * b2n s.cup.cert.isSome] ++ [0, 1].flatMap (fun k => match certOf k s with | some c => Config.sha384 c | none => []))) s
def execGetCertificate (slot offset length : Nat) (s : State) : Host.Outcome State Fault Refusal :=
  onFirmware (fun s => spdmAnswer spdmCertificate 7 (if (certOf slot s).isSome then 0 else 1)
    (fun s => match certOf slot s with | some c => slice offset length c | none => []) s) s
def execChallenge (slot : Nat) (nonce : List Nat) (s : State) : Host.Outcome State Fault Refusal :=
  onFirmware (fun s => spdmAnswer spdmChallenge 7 (if (certOf slot s).isSome then 0 else 1)
    (fun s => match certOf slot s with
      | some c => Config.sha384 c ++ Config.identitySign (nonce ++ Config.sha384 c ++ measured 0xFF s)
      | none => []) s) s
def execGetMeasurements (index : Nat) (sign : Bool) (nonce : List Nat) (s : State) : Host.Outcome State Fault Refusal :=
  onFirmware (spdmAnswer spdmMeasurements 7 0 (fun s =>
    measured index s ++ (if sign then Config.identitySign (nonce ++ measured index s) else []))) s

def execCupSensors (h : CmdHead) (ps : List Word) (s : State) : Host.Outcome State Fault Refusal := onCmd h 0x0A01 cmdCupSensors ps s
def execLogRead (h : CmdHead) (ps : List Word) (s : State) : Host.Outcome State Fault Refusal := onCmd h 0x0A02 cmdLogRead ps s
def execFwStatus (h : CmdHead) (ps : List Word) (s : State) : Host.Outcome State Fault Refusal := onCmd h 0x0A03 cmdFwStatus ps s
def execFwData (h : CmdHead) (ps : List Word) (s : State) : Host.Outcome State Fault Refusal := onCmd h 0x0A04 cmdFwData ps s
def execFwStage (h : CmdHead) (ps : List Word) (s : State) : Host.Outcome State Fault Refusal := onCmd h 0x0A05 cmdFwStage ps s
def execFwVerify (h : CmdHead) (ps : List Word) (s : State) : Host.Outcome State Fault Refusal := onCmd h 0x0A06 cmdFwVerify ps s
def execFwCommit (h : CmdHead) (ps : List Word) (s : State) : Host.Outcome State Fault Refusal := onCmd h 0x0A07 cmdFwCommit ps s
def execFwActivate (h : CmdHead) (ps : List Word) (s : State) : Host.Outcome State Fault Refusal := onCmd h 0x0A08 cmdFwActivate ps s
def execFwConfirm (h : CmdHead) (ps : List Word) (s : State) : Host.Outcome State Fault Refusal := onCmd h 0x0A09 cmdFwConfirm ps s
def execSpareStatus (h : CmdHead) (ps : List Word) (s : State) : Host.Outcome State Fault Refusal := onCmd h 0x0A0A cmdSpareStatus ps s
def execSpareTest (h : CmdHead) (ps : List Word) (s : State) : Host.Outcome State Fault Refusal := onCmd h 0x0A0B cmdSpareTest ps s
def execVcoreConfig (h : CmdHead) (ps : List Word) (s : State) : Host.Outcome State Fault Refusal := onCmd h 0x0A0C cmdVcoreConfig ps s
def execCertSet (h : CmdHead) (ps : List Word) (s : State) : Host.Outcome State Fault Refusal := onCmd h 0x0A0D cmdCertSet ps s

end Sys2Proof.Machine
end

