-- ==== Sys2Proof/Machine/Debug.lean ====
section
/-! DEFINITION. Lantern debug and freeze, the end of a boot, PERST_n and loss of power (R367, R431 to R444, R448,
R454). -/
namespace Sys2Proof.Machine

/-! ## Scopes (R431 to R433) -/

def scLantern : Nat := 0
def scFreeze : Nat := 1
def scState : Nat := 2
def scSram : Nat := 3

/-- The unlocked scopes: all of them in a part whose DBG_LOCK is not blown. -/
def scopesNow (s : State) : Nat := if fbit s LNT_STATUS LNT_STATUS_LOCK_FUSE then fget s LNT_STATUS LNT_STATUS_SCOPE else 15

/-- Whether a scope is unlocked. -/
def unlocked (sc : Nat) (s : State) : Bool := bitOf sc (scopesNow s)

/-- Change the debug block's state. -/
def updDbg (f : DebugState → DebugState) (s : State) : State := { s with dbg := f s.dbg }

/-- The main die reports the unlocked scopes to the Spire (R438). -/
def reportScopes (s : State) : State := sendUp (.scopes (scopesNow s)) s

/-- DBG_CHALLENGE: a new nonce of free words. -/
def drawWords : Nat → State → List Nat × State
  | 0, s => ([], s)
  | n + 1, s =>
    let d := drawFree s
    let r := drawWords n d.2
    (d.1 % 2 ^ 32 :: r.1, r.2)

def cmdDbgChallenge (ps : List Nat) (s : State) : CmdOut :=
  withParams 0 ps (fun s =>
    let d := drawWords 8 s
    ok d.1 (updDbg (fun g => { g with nonce := some d.1 }) d.2)) s

/-- The SCOPE field of a token. -/
def tokenScope (ps : List Nat) : Nat := natField 11 8 (nth ps 1 0)

/-- R433's checks of a token in order: the status. -/
def tokenCheck (ps : List Nat) (s : State) : Nat :=
  let w1 := nth ps 1 0
  let slot := natField 17 16 w1
  let key := bytesOfWords (slice 16 24 ps)
  if ps.length ≠ 64 ∨ nth ps 0 0 ≠ 0x4442544B ∨ w1 % 256 ≠ 1 ∨ natField 15 12 w1 ≠ 0 ∨ w1 / 2 ^ 18 ≠ 0
      ∨ (slice 12 4 ps).any (· != 0) ∨ tokenScope ps = 0 then stParam
  else if nth ps 2 0 ≠ (rd s DEV_SERIAL_LO).toNat ∨ nth ps 3 0 ≠ (rd s DEV_SERIAL_HI).toNat then stAuth
  else if s.dbg.nonce ≠ some (slice 4 8 ps) then stAuth
  else if 1 < slot ∨ Config.sha384 key ≠ Config.debugKeyHash slot ∨ Config.debugRevoked slot then stAuth
  else if !Config.ecdsaGood key (bytesOfWords (slice 40 24 ps)) (bytesOfWords (ps.take 40)) then stAuth
  else stOk

/-- DBG_UNLOCK: the nonce is consumed whatever the outcome. -/
def cmdDbgUnlock (ps : List Nat) (s : State) : CmdOut :=
  let st := tokenCheck ps s
  let sc := tokenScope ps
  let s1 := updDbg (fun g => { g with nonce := none }) s
  if st ≠ stOk then fail st (logEvent 0x0903 blkLnt sc st s1)
  else
    let s2 := fset s1 LNT_STATUS LNT_STATUS_SCOPE (Nat.lor (fget s1 LNT_STATUS LNT_STATUS_SCOPE) sc)
    ok [scopesNow s2] (logEvent 0x0901 blkLnt sc stOk (reportScopes s2))

/-- DBG_LOCK. -/
def cmdDbgLock (ps : List Nat) (s : State) : CmdOut :=
  withParams 0 ps (fun s =>
    let sc := fget s LNT_STATUS LNT_STATUS_SCOPE
    ok [] (logEvent 0x0902 blkLnt sc stOk (reportScopes (fset s LNT_STATUS LNT_STATUS_SCOPE 0)))) s

/-! ## Lantern (R434 to R436) -/

/-- LNT_SELECT. -/
def cmdLntSelect (ps : List Nat) (s : State) : CmdOut :=
  if !unlocked scLantern s then fail stAuth s
  else
    let pins := maskBits 16 (nth ps 0 0)
    if ps.isEmpty ∨ 65535 < nth ps 0 0 ∨ ps.length ≠ pins.length + 1 ∨ (ps.drop 1).any (fun w => decide (32768 ≤ w)) then fail stParam s
    else ok [] ((pins.zip (ps.drop 1)).foldl (fun s e => wr s (LNT_SEL e.1) (BitVec.ofNat 32 e.2)) s)

/-- DBG_STATUS. -/
def cmdDbgStatus (ps : List Nat) (s : State) : CmdOut :=
  withParams 0 ps (fun s =>
    ok ([(rd s LNT_STATUS).toNat, (rd s LNT_FREEZE).toNat] ++ (List.range 16).map (fun p => (rd s (LNT_SEL p)).toNat)) s) s

/-- The place of a signal in its unit's group of 8 or more (R434), if it has one. -/
def sigPlace (sig : Nat) : Option Nat :=
  if 0x200 ≤ sig ∧ sig < 0x400 then some (sig % 16)
  else if 0x400 ≤ sig ∧ sig < 0x500 then some (sig % 64)
  else if 0x600 ≤ sig ∧ sig < 0x700 then some (sig % 128)
  else if 0x700 ≤ sig ∧ sig < 0x920 then some (sig % 16)
  else if 0x920 ≤ sig ∧ sig < 0xD60 then some (sig % 8)
  else if 0xEE0 ≤ sig ∧ sig < 0xF20 then some (sig % 32)
  else if 0xF20 ≤ sig ∧ sig < 0xF60 then some (sig % 16)
  else if 0xFA0 ≤ sig ∧ sig < 0xFC0 then some (sig % 16)
  else none

/-- The kind of a signal: R435 gives that of the first eight of a group, and constants are levels. -/
def sigKind (sig : Nat) : Nat :=
  if 0xFE0 ≤ sig then 0
  else match sigPlace sig with
    | some 0 => 0
    | some 1 => 2
    | some 2 => 3
    | some 3 => 2
    | some 4 => 3
    | some 5 => 0
    | some 6 => 1
    | some 7 => 1
    | _ => Config.signalKind sig % 4

/-- A signal's entry in the catalogue. -/
def catalogEntry (sig : Nat) : List Nat :=
  [sig + sigKind sig * 2 ^ 12 + Config.signalDomain sig % 26 * 2 ^ 16]
    ++ (List.range 6).map (fun i => nth (Config.signalName sig) i 0 % 2 ^ 32) ++ [0]

/-- DBG_CATALOG. -/
def cmdDbgCatalog (ps : List Nat) (s : State) : CmdOut :=
  withParams 2 ps (fun s =>
    let a := nth ps 0 0
    let n := nth ps 1 0
    if n = 0 ∨ 120 < n ∨ 4096 < a + n then fail stParam s
    else ok ((List.range n).flatMap (fun i => catalogEntry (a + i))) s) s

/-- The value of a signal as a pin samples it: constants as R434 gives them, the others free. -/
def sigValue (sig draw : Nat) : Bool :=
  if sig = 0xFFF then true else if 0xFE0 ≤ sig then false else Config.signal sig draw

/-- A sample with STRETCH: 1 where the signal was 1 at any moment of the interval. -/
def sigStretched (sig draw : Nat) : Bool :=
  sigValue sig draw || (decide (sig < 0xFE0) && Config.signalEver sig draw)

/-- What a Lantern pin shows: low without EN, without the scope and in every reset of the main die; its last sample while
frozen. INVERT inverts the stretched sample (DEDUCED, log entry 62). -/
def lntPin (p : Nat) (s : State) : Bool :=
  let a := LNT_SEL p
  if s.pwr.frozen then nth s.dbg.held p false
  else if !mainRuns s || s.rcv.any (fun r => r.step == .reset) || !fbit s a LNT_SEL_EN || !unlocked scLantern s then false
  else
    let sample := if fbit s a LNT_SEL_STRETCH then sigStretched else sigValue
    sample (fget s a LNT_SEL_SIGNAL) s.freeCount != fbit s a LNT_SEL_INVERT

/-! ## Freeze (R437 to R440) -/

/-- The main die freezes: its PCIe link goes down, the packages enter self-refresh and each pin holds its last sample. -/
def freezeMain (s : State) : State :=
  let held := (List.range 16).map (fun p => lntPin p s)
  { selfRefresh true (updDbg (fun g => { g with held := held }) s) with pwr := { s.pwr with frozen := true, pcieUp := false } }

/-- Whether the main die would enter freeze now: an L0 or L1 in progress completes first. -/
def mayFreeze (s : State) : Bool :=
  mainRuns s && s.pwr.freezeIn && unlocked scFreeze s && !s.rcv.any (fun r => decide (r.level ≤ 1))

/-- FREEZE_ENTRY: each die takes the level on its own input. -/
def freezeEntry (s : State) : State :=
  let s1 : State := { s with pwr := { s.pwr with freezeIn := true } }
  let s2 := if mayFreeze s1 then freezeMain s1 else s1
  if spireRuns s2 then sprShow s (spireFreeze s2) else s2

/-- FREEZE_EXIT: the fused reset ends the freeze. -/
def freezeExit (s : State) : State :=
  let s1 : State := { s with pwr := { s.pwr with freezeIn := false } }
  if s1.pwr.frozen then sourceEvent srcFreezeExit false s1
  else if s1.spr.forced then sprShow s1 (updSpr (fun p => { p with forced := false }) s1) else s1

/-! ## TAP (R441, R442) -/

/-- The TAP takes an instruction; it runs from TCK alone. -/
def tapTake (code : Nat) (s : State) : State := if s.pwr.mainUp then updDbg (fun g => { g with tap := code }) s else s

/-- SYSRESET fires the JTAG reset source. -/
def sysReset (s : State) : State :=
  if s.pwr.mainUp then sourceEvent srcJtag false (tapTake 0x20 s) else s

/-- IJTAG needs STATE or SRAM, and otherwise acts as BYPASS. -/
def ijtag (s : State) : State := tapTake (if unlocked scState s || unlocked scSram s then 0x40 else 0xFF) s

/-- A 64-bit word of a byte store; one that holds an error is not known. -/
def rawWord (m : List Host.Cell) (a : Nat) (bad : Bool) (draw : Nat) : Nat :=
  if bad then draw % 2 ^ 64 else ofBytes (getBytes m a 8)

/-- The word of a store at an index, as the reader shifts it. -/
def sramWord (st : SramStore) (w draw : Nat) (s : State) : Nat :=
  match st with
  | .dome p =>
    let a := w / 16 * 8192 + fget s (DOME_BANK_ID p) DOME_BANK_ID_LOGICAL * 128 + w % 16 * 8
    rawWord s.dome a (!fbit s (DOME_BANK_ID p) DOME_BANK_ID_IN_SERVICE || s.fab.rewrites.contains a
      || s.fab.marks.any (fun e => e.1 == domeMark a)) draw
  | .arrayBuf p => rawWord s.fab.bufs (bufKey (48 + fget s (MXA_ID p) MXA_ID_LOGICAL) (w * 8)) (!fbit s (MXA_ID p) MXA_ID_IN_SERVICE) draw
  | .vecStore p => rawWord s.fab.bufs (bufKey (80 + fget s (VEC_ID p) VEC_ID_LOGICAL) (w * 8)) (!fbit s (VEC_ID p) VEC_ID_IN_SERVICE) draw
  | .vheTable => cellsGet (fun _ => 0) s.vhe.table w % 2 ^ 64
  | _ => draw % 2 ^ 64

/-- Whether an instrument is reached: the freeze status with either scope that opens the network, chains with STATE, readers
with SRAM (R441, R442). -/
def instrumentOpen (w : Instrument) (s : State) : Bool :=
  match w with
  | .status => unlocked scState s || unlocked scSram s
  | .chain _ => unlocked scState s
  | .sram _ _ => unlocked scSram s

/-- What an instrument shifts out while frozen. -/
def instrumentBits (w : Instrument) (draw : Nat) (s : State) : List Nat :=
  match w with
  | .status => [1, scopesNow s, (rd s DEV_ID).toNat]
  | .chain f => Config.chainBits f draw
  | .sram st i => let v := sramWord st i draw s; [v, Config.checkBits v % 256]

/-- INSTRUMENT_SHIFT: only through the selected network; zeros outside freeze. -/
def instrumentShift (w : Instrument) (s : State) : State :=
  if !s.pwr.mainUp || s.dbg.tap ≠ 0x40 || !instrumentOpen w s then s
  else
    let d := drawFree s
    let bits := instrumentBits w d.1 s
    emit (.tdo (if s.pwr.frozen then bits else bits.map (fun _ => 0))) d.2

/-! ## The end of a boot (R367) -/

/-- The record of an L0 or L1 that has ended: its length from its request is not observable on T96 (DESIGN CHOICE, log entry 55). -/
def wideOver (r : Recovery) (s : State) : State :=
  let d := drawFree s
  let s1 : State := { d.2 with rcv := d.2.rcv.filter (fun q => decide (2 ≤ q.level)) }
  let s2 := fset (fset s1 RST_STATE RST_STATE_PHASE 0) RST_LAST_DURATION fWord (d.1 % 2 ^ 32)
  let s3 := logEvent (0x0200 + r.level * 16 + r.source) blkRst 0 (r.capture.getD 0) s2
  sendUp (.recoveryDone r.level r.asked) s3

/-- Rows repaired at this reset are reported (R409, R417). -/
def rowsRepaired (s : State) : State :=
  updBt (fun b => { b with fresh := [] }) (s.bt.fresh.foldl (fun s row => logEvent 0x0406 blkCup 0 row s) s)

/-- Escalation after an L0 or L1: too few units, or too many resets in the window (R381, R382). -/
def escalate (s : State) : State :=
  let s1 := tooFew s
  if oosN s1 ≤ deviceCount s1 then outOfService s1 else s1

/-- BOOT_COMPLETE: Cupola serves again; the sequencer has its copy of GOLD_RES, and a low FREEZE_n freezes again
(R26, R440, R470). -/
def bootComplete (s : State) : State :=
  match s.rcv.find? (fun r => decide (r.level ≤ 1)) with
  | none => s
  | some r =>
    let s1 : State := { s with pwr := { s.pwr with booted := true }, goldRes := cfgField 21 31 0 34500 s }
    let s2 := escalate (rowsRepaired (wideOver r s1))
    let s3 := reportScopes s2
    if mayFreeze s3 then freezeMain s3 else s3

/-! ## PERST_n and power (R448, R454) -/

/-- PERST_n low: the PCIe core and link are in reset. -/
def perstLow (s : State) : State :=
  { s with
    pwr := { s.pwr with perst := true, pcieUp := false }
    pci := PciConfig.reset
    regs := cellsClear (fun a => decide (MSIX_ADDR_LO 0 ≤ a ∧ a ≤ MSIX_PBA_HI)) s.regs
    heldLow := s.heldLow.filter (fun e => !decide (MSIX_ADDR_LO 0 ≤ e.1 ∧ e.1 ≤ MSIX_PBA_HI)) }

/-- PERST_n rises. -/
def perstHigh (s : State) : State :=
  { s with pwr := { s.pwr with perst := false, pcieUp := s.pwr.mainUp && !s.pwr.mainHeld && !s.pwr.frozen } }

/-- The main die loses its supply: as after an L0, until a POR; no notice is sent. -/
def mainLoss (s : State) : State :=
  let s1 := mainReset true s
  { s1 with pwr := { s1.pwr with mainUp := false, mainHeld := false }, rcv := [], dbg := ⟨none, 0xFF, List.replicate 16 false⟩ }

/-- The Spire loses its supply: its pins are high impedance and read low. -/
def spireLoss (s : State) : State :=
  { spireReset s with pwr := { s.pwr with spireUp := false }, vpData := none }

def powerLoss (main spire : Bool) (s : State) : State :=
  let s1 := if main && s.pwr.mainUp then mainLoss s else s
  if spire && s1.pwr.spireUp then spireLoss s1 else s1

/-! ## Commands -/

def execBootComplete (s : State) : Host.Outcome State Fault Refusal := .next (if booting true s then bootComplete s else s)
def execDbgChallenge (h : CmdHead) (ps : List Word) (s : State) : Host.Outcome State Fault Refusal := onCmd h 0x0B01 cmdDbgChallenge ps s
def execDbgUnlock (h : CmdHead) (ps : List Word) (s : State) : Host.Outcome State Fault Refusal := onCmd h 0x0B02 cmdDbgUnlock ps s
def execDbgLock (h : CmdHead) (ps : List Word) (s : State) : Host.Outcome State Fault Refusal := onCmd h 0x0B03 cmdDbgLock ps s
def execLntSelect (h : CmdHead) (ps : List Word) (s : State) : Host.Outcome State Fault Refusal := onCmd h 0x0B04 cmdLntSelect ps s
def execDbgStatus (h : CmdHead) (ps : List Word) (s : State) : Host.Outcome State Fault Refusal := onCmd h 0x0B05 cmdDbgStatus ps s
def execDbgCatalog (h : CmdHead) (ps : List Word) (s : State) : Host.Outcome State Fault Refusal := onCmd h 0x0B06 cmdDbgCatalog ps s
def execFreezeEntry (s : State) : Host.Outcome State Fault Refusal := .next (freezeEntry s)
def execFreezeExit (s : State) : Host.Outcome State Fault Refusal := .next (freezeExit s)
def execExtest (s : State) : Host.Outcome State Fault Refusal := .next (tapTake 0x00 s)
def execSamplePreload (s : State) : Host.Outcome State Fault Refusal := .next (tapTake 0x01 s)
def execClamp (s : State) : Host.Outcome State Fault Refusal := .next (tapTake 0x02 s)
def execSysreset (s : State) : Host.Outcome State Fault Refusal := .next (sysReset s)
def execIjtag (s : State) : Host.Outcome State Fault Refusal := .next (ijtag s)
def execBypass (s : State) : Host.Outcome State Fault Refusal := .next (tapTake 0xFF s)
def execInstrumentShift (what : Instrument) (s : State) : Host.Outcome State Fault Refusal := .next (instrumentShift what s)
def execPerst (s : State) : Host.Outcome State Fault Refusal := .next (perstLow s)
def execPerstRelease (s : State) : Host.Outcome State Fault Refusal := .next (perstHigh s)
def execPowerLoss (main spire : Bool) (s : State) : Host.Outcome State Fault Refusal := .next (powerLoss main spire s)

end Sys2Proof.Machine
end

