-- ==== Sys2Proof/Machine/Rings.lean ====
section
/-! DEFINITION. The ring pairs: configuration, doorbells and the command ledger (R279 to R285). -/
namespace Sys2Proof.Machine

/-- BAD_DOORBELL and vector 7. -/
def badDoorbell (n : Nat) (s : State) : State := raiseIrq 7 (fon s (CMD_ST n) CMD_ST_BAD_DOORBELL)

/-- DMA_ERR: a PCIe error stops the pair (R283). -/
def dmaError (n : Nat) (s : State) : State :=
  raiseIrq 7 (fon (ringUpd n (fun r => { r with stopped := true }) s) (CMD_ST n) CMD_ST_DMA_ERR)

/-- CMD_ST with its live ACTIVE bit, and CMD_LEDGER, sampled in one grant (R284). FREE reads 0 while EN is 0: the slots
become FREE where EN is set (R279, R318; log entry 27). -/
def ringStWord (n : Nat) (s : State) : Word := setBits CMD_ST_ACTIVE (rd s (CMD_ST n)) (b2n (ringBusy n s))
def ringLedgerWord (n : Nat) (s : State) : Nat :=
  let r := ringGet n s
  (if fbit s (CMD_CFG n) CMD_CFG_EN then cqSlots n s - ringUsed n s else 0) + b2n (ringBusy n s) * 2 ^ 13 + b2n r.posting.isSome * 2 ^ 14 + r.posted * 2 ^ 15
    + b2n (fbit s (CMD_LEDGER n) CMD_LEDGER_ERR) * 2 ^ 31

/-- Whether the fields of a CMD_CFG word lie in their ranges. -/
def ringCfgOk (v : Word) : Bool :=
  let sq := getBits CMD_CFG_SQ_LOG2 v
  let cq := getBits CMD_CFG_CQ_LOG2 v
  decide (4 ≤ sq ∧ sq ≤ 12 ∧ 4 ≤ cq ∧ cq ≤ 12 ∧ getBits CMD_CFG_SQ_SLOT_LOG2 v ≤ 9 ∧ getBits CMD_CFG_CQ_SLOT_LOG2 v ≤ 9)

/-- Setting EN: indices and EXPECT_SEQ are cleared, every CQ slot is FREE, and the reply phase is 1. -/
def ringEnable (n : Nat) (s : State) : State :=
  let zero (a : Nat → Nat) (s : State) : State := fset s (a n) fWord 0
  ringUpd n (fun _ => RingState.reset)
    (zero CMD_EXPECT_SEQ (zero CMD_CQ_TAIL (zero CMD_CQ_HEAD (zero CMD_SQ_TAIL (zero CMD_SQ_HEAD s)))))

/-- A write of CMD_CFG. -/
def ringCfgWrite (n : Nat) (v : Word) (s : State) : State :=
  let a := CMD_CFG n
  let on := getBits CMD_CFG_EN v == 1
  let reject (s : State) : State := fon s (CMD_ST n) CMD_ST_CFG_REJECT
  if fbit s a CMD_CFG_EN then
    if !on then ringDisable n s else if rwChanges a v s then reject s else s
  else if !ringCfgOk v then reject s
  else if on then ringEnable n (storeRw a v s) else storeRw a v s

/-- SQ_TAIL_WRITE. -/
def sqTail (n : Nat) (v : Word) (s : State) : State :=
  let t := getBits CMD_SQ_TAIL_SQ_TAIL v
  if sqSlots n s ≤ t then badDoorbell n s else fset s (CMD_SQ_TAIL n) CMD_SQ_TAIL_SQ_TAIL t

/-- CQ_HEAD_WRITE: the slots it releases cross before they are FREE. -/
def cqHead (n : Nat) (v : Word) (s : State) : State :=
  let h := getBits CMD_CQ_HEAD_CQ_HEAD v
  let slots := cqSlots n s
  let k := (h + slots - fget s (CMD_CQ_HEAD n) CMD_CQ_HEAD_CQ_HEAD % slots) % slots
  let r := ringGet n s
  if slots ≤ h ∨ r.posted < r.crossing + k then badDoorbell n s
  else ringUpd n (fun r => { r with crossing := r.crossing + k }) (fset s (CMD_CQ_HEAD n) CMD_CQ_HEAD_CQ_HEAD h)

/-- CQ_HEAD_RELEASE_CROSSING: the released slots pass from POSTED to FREE. -/
def cqCrossed (n : Nat) (s : State) : State :=
  ringUpd n (fun r => { r with posted := r.posted - r.crossing, crossing := 0 }) s

/-- REPLY_SENT: the slot leaves POSTING. -/
def replySent (n : Nat) (s : State) : State :=
  if (ringGet n s).posting.isSome then ringUpd n (fun r => { r with posting := none, posted := r.posted + 1 }) s else s

/-- POSTING_TIMEOUT: a slot has stayed POSTING for more than 4 µs; firmware clears EN of the pair (R284, R336). -/
def postingTimeout (n : Nat) (s : State) : State :=
  match (ringGet n s).posting with
  | some since => ringDisable n (ledgerErr (CMD_LEDGER n) CMD_LEDGER_ERR 21 0 (runToUp (since + 4001) s))
  | none => s

def execCqHeadReleaseCrossing (n : Fin 4) (s : State) : Host.Outcome State Fault Refusal := onMain (cqCrossed n) s
def execReplySent (n : Fin 4) (s : State) : Host.Outcome State Fault Refusal :=
  .next (if mainRuns s && s.pwr.pcieUp then replySent n s else s)
def execPostingTimeout (n : Fin 4) (s : State) : Host.Outcome State Fault Refusal := onMain (postingTimeout n) s

end Sys2Proof.Machine
end

