-- ==== Sys2Proof/Machine/Access.lean ====
section
/-! DEFINITION. BAR0 accesses: the access codes, the registers that act on a write or show live state, 64-bit registers,
sampled groups, windows and access errors (R4 to R12, R29 to R37, R468, R469). -/
namespace Sys2Proof.Machine

/-! ## Shared forms of a write (R7, R468) -/

/-- The W1C fields of a written word act. -/
def w1cAct (a : Nat) (v : Word) (s : State) : State :=
  match regAt a with
  | some h =>
    let m := v &&& BitVec.ofNat 32 (accMask .w1c h.row)
    if m = 0 then s else wr s a (rd s a &&& ~~~m)
  | none => s

/-- A write without conditions. -/
def plainWrite (a : Nat) (v : Word) (s : State) : State := storeRw a v (w1cAct a v s)

/-- A write under a condition that discards it, and with values that may be out of range. -/
def guardedWrite (locked bad : Bool) (rej : State → State) (a : Nat) (v : Word) (store : State → State) (s : State) : State :=
  if locked then (if rwChanges a v s then rej (w1cAct a v s) else w1cAct a v s)
  else if bad then rej s
  else store (w1cAct a v s)

/-- The low word of a 64-bit register is held (R10), unless the register is locked. -/
def lowWrite (locked : Bool) (rej : State → State) (a : Nat) (v : Word) (s : State) : State :=
  if locked then (if v = rd s a then s else rej s) else { s with heldLow := assocSet s.heldLow a v }

/-- The high word of a 64-bit register commits both (R10): the whole value is judged, then stored. -/
def highWrite (locked : Bool) (bad : Nat → Bool) (rej : State → State) (low : Nat) (v : Word)
    (store : Nat → State → State) (s : State) : State :=
  let t := takeLow low s
  let x := t.1 + 2 ^ 32 * v.toNat
  if locked then (if x = rd64 s low then s else rej s)
  else if bad x then rej t.2
  else store x t.2

/-- Registers whose writes have conditions of their own are told apart by their row's first address. -/
def rowIs (h : Hit) (a : Nat) : Bool := h.row.base == a

/-! ## CMD (R279, R280, R304, R311, R312, R318) -/

/-- Whether a result-ring placement is refused (R304). -/
def placementBad (base slots mib : Nat) (s : State) : Bool :=
  let n := slots * mib * 2 ^ 20
  let top := (List.range 16).any (fun r => fbit s (DOME_REGION r) DOME_REGION_IECC
    && overlaps base n (r * 2 ^ 30 + 0x3C000000) (2 ^ 26))
  base % 2 ^ 20 != 0 || decide (2 ^ 34 < base + n) || top || decide (base < reservedEnd) || inImage base n s
    || overlaps base n (rd64 s ATN_DESC_BASE_LO) (2 ^ 25) || decide (slots < 8 ∨ 256 < slots ∨ mib < 13 ∨ 64 < mib)

/-- Whether a CMD_MIR_CFG word is out of range. -/
def mirCfgBad (v : Word) : Bool :=
  let n := getBits CMD_MIR_CFG_MIR_SLOTS v
  let m := getBits CMD_MIR_CFG_MIR_SLOT_MIB v
  decide (n < 2 ∨ 256 < n ∨ m < 13 ∨ 64 < m)

/-- An address that must be a multiple of 4,096. -/
def unaligned4k (x : Nat) : Bool := x % 4096 != 0

def ringReject (n : Nat) (s : State) : State := fon s (CMD_ST n) CMD_ST_CFG_REJECT
def resReject (s : State) : State := fon s CMD_RES_CTRL CMD_RES_CTRL_CFG_REJECT

/-- An MSI-X vector control write: a pending vector is sent when it is unmasked. -/
def msixCtrl (n : Nat) (v : Word) (s : State) : State :=
  let s1 := storeRw (MSIX_CTRL n) v s
  if !fbit s1 (MSIX_CTRL n) MSIX_CTRL_MASK && bitOf n (fget s1 MSIX_PBA fWord) then
    emit (.msix n) (fset s1 MSIX_PBA ⟨n, n⟩ 0)
  else s1

def writeCmd (h : Hit) (a : Nat) (v : Word) (s : State) : State :=
  let n := h.n
  let en := fbit s (CMD_CFG n) CMD_CFG_EN
  let busy := runState s != stIdle
  if rowIs h (CMD_SQ_BASE_LO 0) || rowIs h (CMD_CQ_BASE_LO 0) then lowWrite en (ringReject n) a v s
  else if rowIs h (CMD_SQ_BASE_HI 0) || rowIs h (CMD_CQ_BASE_HI 0) then
    highWrite en unaligned4k (ringReject n) (a - 4) v (fun x s => wr64 s (a - 4) x) s
  else if rowIs h (CMD_CFG 0) then ringCfgWrite n v s
  else if rowIs h (CMD_SQ_TAIL 0) then sqTail n v s
  else if rowIs h (CMD_CQ_HEAD 0) then cqHead n v s
  else if rowIs h CMD_RES_BASE_LO || rowIs h CMD_MIR_BASE_LO || rowIs h CMD_MIR_IDX_LO then lowWrite busy resReject a v s
  else if rowIs h CMD_RES_BASE_HI then
    highWrite busy (fun x => placementBad x (fget s CMD_RES_SLOTS CMD_RES_SLOTS_SLOTS) (fget s CMD_RES_SLOTS CMD_RES_SLOTS_SLOT_MIB) s)
      resReject (a - 4) v (fun x s => wr64 s (a - 4) x) s
  else if rowIs h CMD_MIR_BASE_HI || rowIs h CMD_MIR_IDX_HI then
    highWrite busy unaligned4k resReject (a - 4) v (fun x s => wr64 s (a - 4) x) s
  else if rowIs h CMD_RES_SLOTS then
    guardedWrite busy (placementBad (ringBase s) (getBits CMD_RES_SLOTS_SLOTS v) (getBits CMD_RES_SLOTS_SLOT_MIB v) s)
      resReject a v (storeRw a v) s
  else if rowIs h CMD_RES_CTRL then guardedWrite busy false resReject a v (storeRw a v) s
  else if rowIs h CMD_MIR_CFG then guardedWrite busy (mirCfgBad v) resReject a v (storeRw a v) s
  else if rowIs h CMD_MIR_IDX_HEAD then mirHead v s
  else if rowIs h CMD_MCTP then (if 4 < getBits CMD_MCTP_TU v then s else storeRw a v s)
  else if rowIs h (MSIX_CTRL 0) then msixCtrl n v s
  else plainWrite a v s

/-! ## BLF (R44, R46, R52, R72) -/

def writeBlf (h : Hit) (a : Nat) (v : Word) (s : State) : State :=
  let n := h.n
  let internal := ptpMode s == ptpInternal
  let moving := fget s (BLF_TRIG_MODE n) BLF_TRIG_MODE_MODE != 0
  if rowIs h BLF_CTRL then ctrlWrite v s
  else if rowIs h BLF_STEP_LIMIT then slewStatus (storeRw a v s)
  else if rowIs h BLF_LOCK then lockWrite v s
  else if rowIs h BLF_RATE_LO then lowWrite internal blfReject a v s
  else if rowIs h BLF_ADJ_LO then (if internal then blfReject s else { s with heldLow := assocSet s.heldLow a v })
  else if rowIs h BLF_RATE_HI then rateHighWrite v s
  else if rowIs h BLF_ADJ_HI then adjHighWrite v s
  else if rowIs h BLF_XTS_CTRL then xtsCapture s
  else if rowIs h (BLF_CMP_CTRL 0) then cmpCtrlWrite n v s
  else if rowIs h (BLF_CMP_VAL 0) || rowIs h (BLF_CMP_RELOAD 0) || rowIs h (BLF_CMP_STATUS 0) then
    cmpWordWrite n (plainWrite a v) s
  else if rowIs h (BLF_TRIG_MODE 0) then trigModeWord n v s
  else if rowIs h (BLF_TRIG_START 0) || rowIs h (BLF_TRIG_START_FRAC 0) || rowIs h (BLF_TRIG_PERIOD_FRAC 0) then
    guardedWrite moving false blfReject a v (storeRw a v) s
  else if rowIs h (BLF_TRIG_PERIOD 0) then guardedWrite moving (decide (2 ^ 31 ≤ v.toNat)) id a v (storeRw a v)
    (if moving && rwChanges a v s then blfReject s else s)
  else if rowIs h (BLF_TRIG_PHASE 0) then guardedWrite moving (decide (1000000 ≤ getBits BLF_TRIG_PHASE_PHASE v)) id a v
    (storeRw a v) (if moving && rwChanges a v s then blfReject s else s)
  else if rowIs h (BLF_CAP_STATUS 0) then
    w1cAct a v (if getBits BLF_CAP_STATUS_OVF v = 1 then fset s a BLF_CAP_STATUS_LOST 0 else s)
  else if rowIs h BLF_TXQ_STATUS then
    w1cAct a v (if getBits BLF_TXQ_STATUS_OVF v = 1 then fset s a BLF_TXQ_STATUS_LOST 0 else s)
  else if rowIs h (BLF_PORT_CFG 0) then portCfgWrite n v s
  else plainWrite a v s

/-! ## ING (R89 to R93, R100) -/

/-- The RW word that a write would leave. -/
def refreshOk (n : Nat) (v : Word) (s : State) : Bool :=
  let r := getBits ING_PFC_REFRESH_REFRESH v
  decide (1 ≤ r ∧ r ≤ fget s (ING_PFC n) ING_PFC_QUANTA)

def writeIng (h : Hit) (a : Nat) (v : Word) (s : State) : State :=
  let n := (a - ING_CTRL 0) / 0x1000
  let en := fbit s (ING_CTRL n) ING_CTRL_EN
  if rowIs h ING_LEDGER || rowIs h (ING_GRP_MASK 0) then plainWrite a v s
  else if rowIs h (ING_CTRL 0) then ingCtrlWrite n v s
  else if rowIs h (ING_CUT 0) then guardedWrite false (!cutOk (getBits ING_CUT_CUT v)) (ingReject n) a v (storeRw a v) s
  else if rowIs h (ING_WM 0) then
    guardedWrite false (!wmOk v.toNat) (ingReject n) a v (fun s => xoffUpdate n (storeRw a v s)) s
  else if rowIs h (ING_MAXFRAME 0) then
    (if !en && !maxframeOk v.toNat then s else guardedWrite en false (ingReject n) a v (storeRw a v) s)
  else if rowIs h (ING_PKT_TMO 0) then
    (if !en && getBits ING_PKT_TMO_TMO v == 0 then s else guardedWrite en false (ingReject n) a v (storeRw a v) s)
  else if rowIs h (ING_PFC_REFRESH 0) then (if refreshOk n v s then storeRw a v s else s)
  else if 0x100 ≤ a % 0x1000 then
    guardedWrite en (!sourceOk (chKind n) (a % 0x1000) v.toNat) (ingReject n) a v (storeRw a v) s
  else plainWrite a v s

/-! ## SLC and the governor (R23, R126) -/

/-- The sections of a channel's point layout with one word replaced. -/
def slcWord (n off : Nat) (a : Nat) (v : Word) (s : State) : Nat :=
  if SLC_CH_CFG n + off = a then v.toNat else (rd s (SLC_CH_CFG n + off)).toNat

/-- Whether a write leaves a channel's words valid (R126). -/
def slcChanOk (n a : Nat) (v : Word) (s : State) : Bool :=
  let w (off : Nat) : Nat := slcWord n off a v s
  slcCfgOk n (w 0) && framePeriodOk (w 0x10) && strideOk (w 0x14) && slcPointsOk (w 0x14) (w 0x18) (w 0x1C)
    && slcFmtOk (w 0) (w 0x1C)

def writeSlc (h : Hit) (a : Nat) (v : Word) (s : State) : State :=
  let n := h.n
  let en := fbit s (ING_CTRL n) ING_CTRL_EN
  let globReject (s : State) : State := fon s SLC_STATUS SLC_STATUS_CFG_REJECT
  if a < SLC_CLOSE then
    (if rowIs h (SLC_CH_TOFF 0) then storeRw a v s
     else if rowIs h (SLC_CH_STATUS 0) then w1cAct a v s
     else guardedWrite en (!slcChanOk n a v s) (slcReject n) a v
       (if rowIs h (SLC_CH_CFG 0) then slcCfgStore n v else storeRw a v) s)
  else if a = SLC_STATUS then w1cAct a v s
  else if a < SLC_EGO_CFG then
    guardedWrite (running s) (!slcGlobalOk (a - SLC_CLOSE) v.toNat) globReject a v
      (if a = SLC_CLOSE then slcCloseStore v else storeRw a v) s
  else if a < SLC_GOV_CTRL then
    guardedWrite (running s) (!egoOk (a - SLC_EGO_CFG) v.toNat s) globReject a v
      (if a = SLC_EGO_CFG then egoCfgStore v else storeRw a v) s
  else if a = SLC_GOV_DEADLINE then
    (let d := getBits SLC_GOV_DEADLINE_DEADLINE v; if d < 100 ∨ 740 < d then s else storeRw a v s)
  else if a = SLC_GOV_MARGIN then
    (if getBits SLC_GOV_MARGIN_RELAX v ≤ getBits SLC_GOV_MARGIN_MARGIN v then s else storeRw a v s)
  else if a = SLC_GOV_RELAX_CNT then (if getBits SLC_GOV_RELAX_CNT_COUNT v = 0 then s else storeRw a v s)
  else plainWrite a v s

/-! ## VHE (R156) -/

/-- Whether a VHE word is out of range. -/
def vheBad (a : Nat) (v : Word) (s : State) : Bool :=
  if a = VHE_GRID then getBits VHE_GRID_Z_HYST v == 0
  else if a = VHE_EPOCH then
    decide (getBits VHE_EPOCH_EPOCH_MS v < 1 ∨ 64 < getBits VHE_EPOCH_EPOCH_MS v) || getBits VHE_EPOCH_RETAIN v == 0
  else if a = VHE_CAP then decide (getBits VHE_CAP_MAX_POINTS v < 1024 ∨ 65536 < getBits VHE_CAP_MAX_POINTS v)
  else if a = VHE_STASH then
    decide (getBits VHE_STASH_WM v < 1 ∨ 4096 < getBits VHE_STASH_WM v ∨ getBits VHE_STASH_WM v ≤ getBits VHE_STASH_LOW v)
  else if a = VHE_TILE_LIMIT then
    decide (getBits VHE_TILE_LIMIT_LIMIT v < 1 ∨ 1048576 < getBits VHE_TILE_LIMIT_LIMIT v)
  else if a = VHE_TILE_RELAX then
    decide (fget s VHE_TILE_LIMIT VHE_TILE_LIMIT_LIMIT ≤ getBits VHE_TILE_RELAX_RELAX v)
  else if a = VHE_COARSEN then getBits VHE_COARSEN_RAISE_N v == 0 || getBits VHE_COARSEN_CALM_SLICES v == 0
  else if a = VHE_SEED then v == 0
  else false

def writeVhe (a : Nat) (v : Word) (s : State) : State :=
  let frozen := running s && (a == VHE_CTRL || a == VHE_GRID || a == VHE_EPOCH)
  guardedWrite frozen (vheBad a v s) (fun s => fon s VHE_STATUS VHE_STATUS_CFG_REJECT) a v (storeRw a v) s

/-! ## CAM (R158, R175) -/

/-- Whether a pair of sizes lies within 64 to 4,096, the first a multiple of 16. -/
def sizeOk (w x : Nat) : Bool := decide (64 ≤ w ∧ w ≤ 4096 ∧ 64 ≤ x ∧ x ≤ 4096 ∧ w % 16 = 0)

/-- Whether a CAM word is out of range, by its row. -/
def camBad (h : Hit) (v : Word) : Bool :=
  let lo := getBits ⟨15, 0⟩ v
  let hi := getBits ⟨31, 16⟩ v
  if rowIs h (CAM_SIZE 0) then
    let w := getBits CAM_SIZE_WIDTH v
    let x := getBits CAM_SIZE_HEIGHT v
    !sizeOk w x || decide (8912896 < w * x)
  else if rowIs h (CAM_OUT 0) then
    let x := getBits CAM_OUT_OUT_H v
    !sizeOk (getBits CAM_OUT_OUT_W v) x || x % 16 != 0
  else if rowIs h CAM_CAL_CTRL then decide (23 < getBits CAM_CAL_CTRL_REF v)
  else if rowIs h CAM_CAL_STEP then decide (lo < 1 ∨ 20 < lo ∨ hi < 1 ∨ 1000 < hi)
  else if rowIs h CAM_CAL_STEP_T then decide (lo < 1 ∨ 1000 < lo)
  else if rowIs h CAM_CAL_MIN_RES then decide (getBits CAM_CAL_MIN_RES_MIN_RES v < 16 ∨ 4096 < getBits CAM_CAL_MIN_RES_MIN_RES v)
  else if rowIs h CAM_CAL_PIVOT then !fp32Pos v.toNat
  else if rowIs h CAM_CAL_BOUND then decide (lo < 1 ∨ 2000 < lo ∨ hi < 1 ∨ 100 < hi)
  else if rowIs h CAM_CAL_BOUND_T then decide (getBits CAM_CAL_BOUND_T_BOUND_T v < 1 ∨ 1000 < getBits CAM_CAL_BOUND_T_BOUND_T v)
  else if rowIs h CAM_GRID_Z then decide (hi < 1 ∨ 500 < hi)
  else if rowIs h CAM_GRID_ZNF then decide (lo < 10 ∨ 1000 < lo ∨ hi < 1 ∨ 1000 < hi ∨ hi * 100 ≤ lo)
  else false

/-- A stored CAM_CFG: a rising EN starts the mesh build (R158). -/
def camCfgStore (n : Nat) (v : Word) (s : State) : State :=
  let was := fbit s (CAM_CFG n) CAM_CFG_EN
  let s1 := storeRw (CAM_CFG n) v s
  if !was && fbit s1 (CAM_CFG n) CAM_CFG_EN then meshStart n s1 else s1

def writeCam (h : Hit) (a : Nat) (v : Word) (s : State) : State :=
  let n := h.n
  if a < CAM_NOM_QW 0 then
    let fixed := rowIs h (CAM_CFG 0) || rowIs h (CAM_SIZE 0) || rowIs h (CAM_OUT 0) || rowIs h (CAM_RECT 0 0)
      || rowIs h (CAM_LENS 0 0) || rowIs h (CAM_ROW_TIME 0)
    guardedWrite (fixed && fbit s (CAM_CFG n) CAM_CFG_EN) (camBad h v) (fun s => fon s (CAM_STATUS n) CAM_STATUS_CFG_REJECT) a v
      (if rowIs h (CAM_CFG 0) then camCfgStore n v else storeRw a v) s
  else if a < CAM_GRID_CFG then
    guardedWrite (running s) (camBad h v) (fun s => fon s CAM_CAL_CTRL CAM_CAL_CTRL_CFG_REJECT) a v
      (fun s => if a < CAM_CAL_CTRL ∧ !rowIs h (CAM_EXT_CAL 0) ∧ accMask .rw h.row ≠ 0 then calZero n (storeRw a v s)
        else storeRw a v s) s
  else
    guardedWrite (running s && !rowIs h CAM_GRID_DELTA) (camBad h v) (fun s => fon s CAM_GRID_CFG CAM_GRID_CFG_CFG_REJECT) a v
      (storeRw a v) s

/-! ## MXA, VEC and DOME (R189, R200, R209, R304) -/

/-- A register write to a vector core's block: within its budget while RUNNING, unless it is a spare in reserve. Beyond
it the RW fields are discarded, and the write's W1C fields still act (R189, R468). -/
def vecBudget (p : Nat) (f g : State → State) (s : State) : State :=
  if !running s || !fbit s (VEC_ID p) VEC_ID_IN_SERVICE then f s
  else
    let used := fget s (VEC_WRB p) VEC_WRB_USED
    if fget s (VEC_WRB p) VEC_WRB_LIMIT ≤ used then fon (g s) (VEC_WRB p) VEC_WRB_OVER
    else f (fset s (VEC_WRB p) VEC_WRB_USED (used + 1))

def writeVec (h : Hit) (a : Nat) (v : Word) (s : State) : State :=
  if 0x008A0000 ≤ a then plainWrite a v s
  else if rowIs h (VEC_WRB 0) then
    guardedWrite false (getBits VEC_WRB_LIMIT v == 0) (fun s => fon s (VEC_STATUS h.n) VEC_STATUS_CFG_REJECT) a v (storeRw a v) s
  else vecBudget h.n (plainWrite a v) (w1cAct a v) s

/-- The contents of a region are undefined after a change of IECC (DESIGN CHOICE, log entry 3). -/
def regionLost (r : Nat) (s : State) : State :=
  let inside (a : Nat) : Bool := a / 2 ^ 30 == r
  { s with
    lpddr := cellsClear inside s.lpddr
    fab := { s.fab with marks := cellsClear (fun k => decide (2 ^ 40 ≤ k ∧ k < 2 ^ 41) && inside ((k - 2 ^ 40) * 8)) s.fab.marks } }

def writeDome (h : Hit) (a : Nat) (v : Word) (s : State) : State :=
  let rej (s : State) : State := fon s DOME_CFG DOME_CFG_CFG_REJECT
  if rowIs h DOME_CFG then guardedWrite false (decide (getBits DOME_CFG_STARVE v < 4)) rej a v (storeRw a v) s
  else if rowIs h (DOME_REGION 0) then
    let sets := getBits DOME_REGION_IECC v == 1
    guardedWrite (running s) (sets && rwChanges a v s && inRing (h.n * 2 ^ 30 + 0x3C000000) (2 ^ 26) s) rej a v
      (fun s => if rwChanges a v s then regionLost h.n (storeRw a v s) else s) s
  else plainWrite a v s

/-! ## ATN (R210, R243) and the remaining blocks -/

/-- A write of one of the pool's registers: the three values it would leave. -/
def atnPool (base : Nat) (pages kvfmt : Word) (s : State) : State :=
  if running s then
    (if base ≠ rd64 s ATN_POOL_BASE_LO ∨ rwChanges ATN_POOL_PAGES pages s ∨ rwChanges ATN_KVFMT kvfmt s then atnReject s else s)
  else poolWrite base pages kvfmt s

def writeAtn (a : Nat) (v : Word) (s : State) : State :=
  let base := rd64 s ATN_POOL_BASE_LO
  if a = ATN_POOL_BASE_LO ∨ a = ATN_DESC_BASE_LO then lowWrite (running s) atnReject a v s
  else if a = ATN_POOL_BASE_HI then
    let t := takeLow ATN_POOL_BASE_LO s
    atnPool (t.1 + 2 ^ 32 * v.toNat) (rd s ATN_POOL_PAGES) (rd s ATN_KVFMT) (if running s then s else t.2)
  else if a = ATN_POOL_PAGES then atnPool base v (rd s ATN_KVFMT) s
  else if a = ATN_KVFMT then atnPool base (rd s ATN_POOL_PAGES) v s
  else if a = ATN_DESC_BASE_HI then
    highWrite (running s) (fun x => descBaseBad x s) atnReject ATN_DESC_BASE_LO v (fun x s => wr64 s ATN_DESC_BASE_LO x) s
  else if a = ATN_MIGRATE then migrateWrite v s
  else if a = ATN_XCHG then guardedWrite (running s) false atnReject a v (storeRw a v) s
  else if a = ATN_TRACK_CFG then guardedWrite (running s) (trackCfgBad v) atnReject a v (storeRw a v) s
  else if a = ATN_TRACK_RULES then guardedWrite (running s) (trackRulesBad v) atnReject a v (storeRw a v) s
  else if a = ATN_TRACK_RULES2 then guardedWrite (running s) (trackRules2Bad v) atnReject a v (storeRw a v) s
  else plainWrite a v s

/-- SLV (R272): SLV_WORK is kept while RUNNING. -/
def writeSlv (a : Nat) (v : Word) (s : State) : State :=
  if a = SLV_WORK ∧ running s then (if rwChanges a v s then slvReject s else s) else slvWrite a v (w1cAct a v s)

/-- RST (R399): OUT_MASK bit 0 reads 1, and RUN starts an audit. -/
def writeRst (a : Nat) (v : Word) (s : State) : State :=
  if a = RST_CFG then storeRw a (v ||| 1) s
  else if a = RST_AUDIT then (if getBits RST_AUDIT_RUN v = 1 then auditRequest s else s)
  else plainWrite a v s

/-- CUP (R430). -/
def writeCup (a : Nat) (v : Word) (s : State) : State :=
  let rej (s : State) : State := fon s CUP_STATUS CUP_STATUS_CFG_REJECT
  if a = CUP_VCORE then (if vcoreBad v then rej s else vcoreWrite v s)
  else if a = CUP_PCAP then (if pcapBad v then rej s else storeRw a v s)
  else if a = CUP_THERM then (if thermBad v then rej s else storeRw a v s)
  else plainWrite a v s

/-- TOL (R400). TOL_JOB has no CFG_REJECT of its own: both links' bits are set (DEDUCED, log entry 56). -/
def writeTol (h : Hit) (a : Nat) (v : Word) (s : State) : State :=
  let l := h.n
  let rej (s : State) : State := fon s (TOL_STATUS l) TOL_STATUS_CFG_REJECT
  if rowIs h (TOL_CTRL 0) then guardedWrite (running s) false rej a v (tolCtrl l v) s
  else if rowIs h (TOL_RXWIN_BASE 0) then
    guardedWrite (running s) (rxwinBad v.toNat (fget s (TOL_RXWIN_BYTES l) TOL_RXWIN_BYTES_BYTES)) rej a v (storeRw a v) s
  else if rowIs h (TOL_RXWIN_BYTES 0) then
    guardedWrite (running s) (rxwinBad (fget s (TOL_RXWIN_BASE l) fWord) (getBits TOL_RXWIN_BYTES_BYTES v)) rej a v (storeRw a v) s
  else if rowIs h TOL_JOB then
    guardedWrite (running s) false (fun s => fon (fon s (TOL_STATUS 0) TOL_STATUS_CFG_REJECT) (TOL_STATUS 1) TOL_STATUS_CFG_REJECT)
      a v (storeRw a v) s
  else plainWrite a v s

/-- LNT (R444). -/
def writeLnt (a : Nat) (v : Word) (s : State) : State :=
  if LNT_SEL 0 ≤ a then
    guardedWrite (!unlocked scLantern s) false (fun s => fon s LNT_STATUS LNT_STATUS_CFG_REJECT) a v (storeRw a v) s
  else plainWrite a v s

/-- A write to an occupied register of a unit that is not held in reset, by its block (R12). -/
def regWrite (h : Hit) (a : Nat) (v : Word) (s : State) : State :=
  match a / 0x100000 with
  | 1 => writeCmd h a v s
  | 2 => writeBlf h a v s
  | 3 => writeIng h a v s
  | 4 => writeSlc h a v s
  | 5 => writeVhe a v s
  | 6 => writeCam h a v s
  | 8 => writeVec h a v s
  | 9 => writeDome h a v s
  | 10 => writeAtn a v s
  | 11 => writeSlv a v s
  | 13 => writeRst a v s
  | 14 => writeCup a v s
  | 15 => writeTol h a v s
  | 16 => writeLnt a v s
  | _ => plainWrite a v s

/-! ## Units held in reset and windows (R29 to R34, R469) -/

/-- The flat indices of the units that a register belongs to. -/
def addrUnits (a : Nat) (s : State) : List Nat :=
  if 0x00300000 ≤ a ∧ a < 0x00320000 then [(a - 0x00300000) / 0x1000]
  else if 0x00400000 ≤ a ∧ a < 0x00411000 then [flatAligner]
  else if 0x00411000 ≤ a ∧ a < 0x00412000 then [flatEgo]
  else if 0x00500000 ≤ a ∧ a < 0x00600000 then [flatVhe]
  else if 0x00600000 ≤ a ∧ a < 0x00602000 then [flatCamera]
  else if 0x00604000 ≤ a ∧ a < 0x00607000 then [flatProjection]
  else if 0x00700000 ≤ a ∧ a < 0x00788000 then
    let p := (a - 0x00700000) / 0x4000
    if fbit s (MXA_ID p) MXA_ID_IN_SERVICE then [48 + fget s (MXA_ID p) MXA_ID_LOGICAL] else []
  else if 0x00800000 ≤ a ∧ a < 0x00888000 then
    let p := (a - 0x00800000) / 0x1000
    if fbit s (VEC_ID p) VEC_ID_IN_SERVICE then [80 + fget s (VEC_ID p) VEC_ID_LOGICAL] else []
  else if 0x008A0000 ≤ a ∧ a < 0x008A4000 then [208 + (a - 0x008A0000) / 0x100]
  else if 0x00A00000 ≤ a ∧ a < 0x00B00000 then [flatAttention, flatWalker]
  else if 0x00B00000 ≤ a ∧ a < 0x00C00000 then [flatAssembly, flatFactor, flatDivide]
  else []

/-- Whether a register's unit is held in reset. -/
def addrHeld (a : Nat) (s : State) : Bool := (addrUnits a s).any (fun f => unitHeld f s)

/-- The same offset in the blocks that a window reaches at this grant, or none outside the windows. -/
def windowTargets (a : Nat) (s : State) : Option (List Nat) :=
  if 0x003E0000 ≤ a ∧ a < 0x003E8000 then
    some ((maskBits 32 (fget s (ING_GRP_MASK ((a - 0x003E0000) / 0x1000)) fWord)).map (fun n => 0x00300000 + n * 0x1000 + a % 0x1000))
  else if 0x003F0000 ≤ a ∧ a < 0x003F1000 then some ((List.range 32).map (fun n => 0x00300000 + n * 0x1000 + a % 0x1000))
  else if 0x007F0000 ≤ a ∧ a < 0x007F4000 then
    some (((List.range 34).filter (fun p => !fbit s (MXA_ID p) MXA_ID_RETIRED)).map (fun p => 0x00700000 + p * 0x4000 + a % 0x4000))
  else if 0x008FF000 ≤ a ∧ a < 0x00900000 then
    some (((List.range 136).filter (fun p => !fbit s (VEC_ID p) VEC_ID_RETIRED)).map (fun p => 0x00800000 + p * 0x1000 + a % 0x1000))
  else none

/-- Whether a target's register takes a write at all. -/
def targetTakes (a : Nat) (s : State) : Bool := (regAt a).isSome && !addrHeld a s

/-- A write at one target. -/
def targetWrite (v : Word) (s : State) (a : Nat) : State :=
  match regAt a with
  | some h => if addrHeld a s then s else regWrite h a v s
  | none => s

/-! ## Writes -/

/-- Whether an address lies in the SPR region. -/
def inSpr (a : Nat) : Bool := a / 0x100000 == 12

/-- An aligned 32-bit write of an agent. -/
def busWrite (ag : Agent) (a : Nat) (v : Word) (s : State) : State :=
  match windowTargets a s with
  | some ts =>
    let s1 := ts.foldl (targetWrite v) s
    if ts.all (fun t => targetTakes t s) then s1 else accessErr errUnmapped a ag s1
  | none =>
    if inSpr a || !targetTakes a s then accessErr errUnmapped a ag s else targetWrite v s a

/-- The MSI-X table and PBA, where 64-bit accesses complete too (R4). -/
def inMsix (a : Nat) : Bool := decide ((0x0010F000 ≤ a ∧ a < 0x0010F200) ∨ (0x0010F800 ≤ a ∧ a < 0x0010F808))

/-- Whether an access of a size completes (R4). -/
def sizeFits (a size : Nat) : Bool := (size == 4 && a % 4 == 0) || (size == 8 && a % 8 == 0 && inMsix a)

/-- A write of 32 bits, or of 64 bits when a high word is given. -/
def sizedWrite (ag : Agent) (a : Nat) (v : Word) (wide : Option Word) (s : State) : State :=
  match wide with
  | none => if sizeFits a 4 then busWrite ag a v s else accessErr errBadSize a ag s
  | some w => if sizeFits a 8 then busWrite ag (a + 4) w (busWrite ag a v s) else accessErr errBadSize a ag s

/-- W1C bits that the device sets in the same grant read 1 afterwards (R8). -/
def w1cCross (a : Nat) (cross : Word) (s : State) : State :=
  match regAt a with
  | some h => wr s a (rd s a ||| (cross &&& BitVec.ofNat 32 (accMask .w1c h.row)))
  | none => s

/-! ## Reads -/

/-- A register that shows live state, as it reads at its grant. -/
def liveWord (h : Hit) (a : Nat) (s : State) : Word :=
  let n := h.n
  let w (x : Nat) : Word := BitVec.ofNat 32 (x % 2 ^ 32)
  let t := t96Words (time16 s)
  let slew := unsigned 64 (divFree s.slew (2 ^ 32))
  if rowIs h (CMD_ST 0) then ringStWord n s
  else if rowIs h (CMD_LEDGER 0) then w (ringLedgerWord n s)
  else if rowIs h BLF_NOW_FRAC then w (nth t 0 0)
  else if rowIs h BLF_NOW_NS then w (nth t 1 0)
  else if rowIs h BLF_NOW_SEC_LO then w (nth t 2 0)
  else if rowIs h BLF_NOW_SEC_HI then w (nth t 3 0)
  else if rowIs h BLF_NOW_LIN then w (lin s)
  else if rowIs h BLF_SLEW_LO then w slew
  else if rowIs h BLF_SLEW_HI then w (slew / 2 ^ 32)
  else if rowIs h (ING_STATUS 0) then w (ingStatusWord n s)
  else if rowIs h (ING_OCC 0) then w (occupancy (chGet n s))
  else if rowIs h (ING_BANKS 0) then w (ingBanksWord n s)
  else if rowIs h ING_LEDGER then w (ingLedgerWord s)
  else if rowIs h SLC_EGO_STATUS then w (egoStatusLive s % 256)
  else if rowIs h VHE_STATUS then setBits VHE_STATUS_STASH_VALID (rd s a) (stashCount s)
  else if rowIs h VHE_HELD then w (heldCount s)
  else if rowIs h (VHE_TILE_COUNT 0) then w (slotCount n s)
  else if rowIs h (VHE_TILE_CUR 0) then w (slotCur n s)
  else if rowIs h DOME_TAG_LEDGER0 then w ((32768 - s.fab.tags.length) + (allocTags s).length * 2 ^ 16)
  else if rowIs h DOME_TAG_LEDGER1 then setBits DOME_TAG_LEDGER1_RETURNING (rd s a) (returningTags s).length
  else if rowIs h (DOME_MEMGRP_ST 0) then
    w (clampNat 1024 (((allocTags s).filter (fun t => t.req.ddr && ddrGroup t.req.addr == n)).length))
  else if rowIs h (DOME_REGION 0) then setBits DOME_REGION_IMAGE (rd s a) (b2n (inImage (n * 2 ^ 30) (2 ^ 30) s))
  else if rowIs h ATN_RESERVE then w (if poolPages s = 0 then 0 else atnReserve s)
  else if rowIs h SLV_STATUS then w (slvStatusWord s)
  else if rowIs h ATN_LIVE then w s.attn.tracks.length
  else if rowIs h ATN_PAGE_FREE then w (pageCount pgFree s)
  else if rowIs h ATN_PAGE_ALLOC then w (pageCount pgAlloc s)
  else if rowIs h ATN_PAGE_QUAR then w (pageCount pgQuarantined s)
  else if rowIs h ATN_PAGE_MIG then setBits ATN_PAGE_MIG_MIGRATING (rd s a) (pageCount pgMigrating s)
  else if rowIs h RST_ESC then escWord s
  else if rowIs h (RST_UNIT 0) then unitWord n s
  else rd s a

/-- Registers that make up a 64-bit quantity, by their low word's row (R10). -/
def lowRows : List Nat :=
  [DEV_SERIAL_LO, CMD_SQ_BASE_LO 0, CMD_CQ_BASE_LO 0, CMD_RES_BASE_LO, CMD_MIR_BASE_LO, CMD_MIR_IDX_LO, CMD_LAST_SEQ_LO,
    BLF_RATE_LO, BLF_ADJ_LO, BLF_SLEW_LO, ATN_POOL_BASE_LO, ATN_DESC_BASE_LO, SLV_MODEL_ADDR_LO, SPR_FAULT_LO]

/-- Whether an address is the low, or the high, word of a 64-bit register. -/
def isLow (a : Nat) : Bool := match regAt a with | some h => lowRows.contains h.row.base | none => false
def isHigh (a : Nat) : Bool := decide (4 ≤ a) && isLow (a - 4)

/-- The words that a read of this one samples with it (R37 and its pattern). -/
def groupRest (h : Hit) : List Nat :=
  if rowIs h BLF_NOW_FRAC then [BLF_NOW_NS, BLF_NOW_SEC_LO, BLF_NOW_SEC_HI, BLF_NOW_LIN]
  else if rowIs h BLF_XTS_FRAC then [BLF_XTS_NS, BLF_XTS_SEC_LO, BLF_XTS_SEC_HI]
  else if rowIs h DOME_TAG_LEDGER0 then [DOME_TAG_LEDGER1]
  else if rowIs h ATN_PAGE_FREE then [ATN_PAGE_ALLOC, ATN_PAGE_QUAR, ATN_PAGE_MIG]
  else if rowIs h (TOL_VC_TX 0 0) then [TOL_VC_RX h.n h.m, TOL_VC_RET h.n h.m, TOL_VC_CAP h.n h.m]
  else []

/-- The live word at an address. -/
def liveAt (a : Nat) (s : State) : Nat := match regAt a with | some h => (liveWord h a s).toNat | none => 0

/-- RC fields clear, and an increment that crosses the read stays (R7, R9). -/
def rcClear (h : Hit) (a cross : Nat) (s : State) : State :=
  let rcs := h.row.fields.filter (fun f => f.acc = .rc)
  rcs.foldl (fun s f => fset s a ⟨f.hi, f.lo⟩ (clampNat (2 ^ (f.hi + 1 - f.lo) - 1) (natField f.hi f.lo cross))) s

/-- A read of an occupied register of a unit that is not held in reset. -/
def regRead (h : Hit) (a cross : Nat) (s : State) : State × Word :=
  if rowIs h (BLF_CAP_POP0 0) then capPop h.n s
  else if rowIs h BLF_TXQ_POP0 then txqPop s
  else
    match assocGet s.shadow a with
    | some w => (if isHigh a then { s with shadow := assocDel s.shadow a } else s, w)
    | none =>
      let w := liveWord h a s
      let rest := (if isLow a then [a + 4] else []) ++ groupRest h
      (rcClear h a cross (latchWords (rest.map (fun x => (x, liveAt x s))) s), w)

/-- A read at an address that a sampled low word starts again does not use an old shadow. -/
def freshRead (h : Hit) (a cross : Nat) (s : State) : State × Word :=
  if isLow a || !(groupRest h).isEmpty then regRead h a cross { s with shadow := assocDel s.shadow a } else regRead h a cross s

/-- An aligned 32-bit read of an agent: windows, unoccupied addresses and units held in reset return zero. -/
def busRead (ag : Agent) (a cross : Nat) (s : State) : State × Word :=
  match regAt a with
  | some h => if addrHeld a s then (accessErr errUnmapped a ag s, 0) else freshRead h a cross s
  | none => (accessErr errUnmapped a ag s, 0)

/-- A read of 64 bits: the low word, then the high word, in one completion (R4). -/
def wideRead (ag : Agent) (a cross : Nat) (s : State) : State :=
  let lo := busRead ag a cross s
  let hi := busRead ag (a + 4) 0 lo.1
  { hi.1 with readData := some lo.2, readHigh := some hi.2 }

/-- A read ends in a Completer Abort. -/
def readAbort (s : State) : State := { s with readData := none, readHigh := none }

/-- A read of 32 or 64 bits completes, or aborts when its size or alignment is wrong. -/
def sizedRead (ag : Agent) (a : Nat) (wide : Bool) (cross : Nat) (s : State) : State :=
  if wide then (if sizeFits a 8 then wideRead ag a cross s else readAbort (accessErr errBadSize a ag s))
  else if sizeFits a 4 then readDone (busRead ag a cross s) else readAbort (accessErr errBadSize a ag s)

/-- BAD_SIZE_ACCESS: an access that does not fit is discarded or aborted (R4); one that fits after all completes. -/
def badSize (ag : Agent) (a size : Nat) (write : Bool) (value high : Word) (s : State) : State :=
  if sizeFits a size then
    if write then sizedWrite ag a value (if size = 8 then some high else none) s else sizedRead ag a (size == 8) 0 s
  else
    let s1 := accessErr errBadSize a ag s
    if write then s1 else readAbort s1

/-! ## Commands -/

def execRegisterWrite (agent : Agent) (addr : Nat) (value : Word) (wide : Option Word) (cross : Word) (s : State) :
    Host.Outcome State Fault Refusal := onAgent agent (fun s => w1cCross addr cross (sizedWrite agent addr value wide s)) s
def execRcRead (agent : Agent) (addr : Nat) (wide : Bool) (cross : Nat) (s : State) : Host.Outcome State Fault Refusal :=
  onAgent agent (sizedRead agent addr wide cross) s
def execBadSizeAccess (agent : Agent) (addr size : Nat) (write : Bool) (value high : Word) (s : State) :
    Host.Outcome State Fault Refusal := onAgent agent (badSize agent addr size write value high) s
def execUnmappedAccess (agent : Agent) (addr : Nat) (write : Bool) (value : Word) (s : State) : Host.Outcome State Fault Refusal :=
  onAgent agent (if write then sizedWrite agent addr value none else sizedRead agent addr false 0) s
def execLowWordRead (agent : Agent) (addr : Nat) (s : State) : Host.Outcome State Fault Refusal :=
  onAgent agent (sizedRead agent addr false 0) s
def execLowWordWrite (agent : Agent) (addr : Nat) (value : Word) (s : State) : Host.Outcome State Fault Refusal :=
  onAgent agent (sizedWrite agent addr value none) s
def execHighWordWrite (agent : Agent) (addr : Nat) (value : Word) (s : State) : Host.Outcome State Fault Refusal :=
  onAgent agent (sizedWrite agent addr value none) s
def execBroadcastWrite (agent : Agent) (addr : Nat) (value : Word) (s : State) : Host.Outcome State Fault Refusal :=
  onAgent agent (sizedWrite agent addr value none) s
def execGroupWrite (agent : Agent) (addr : Nat) (value : Word) (s : State) : Host.Outcome State Fault Refusal :=
  onAgent agent (sizedWrite agent addr value none) s
def execBarMemoryAccess (bar4 write : Bool) (addr len : Nat) (bytes : List Nat) (how : MemEnd) (s : State) :
    Host.Outcome State Fault Refusal := onAgent .host (barAccess bar4 write addr len bytes how) s
def execFlushRequest (agent : Agent) (ch : Fin 32) (s : State) : Host.Outcome State Fault Refusal :=
  onAgent agent (fun s => busWrite agent (ING_CTRL ch) (setBits ING_CTRL_FLUSH (rd s (ING_CTRL ch)) 1) s) s
def execMigrate (agent : Agent) (value : Word) (s : State) : Host.Outcome State Fault Refusal :=
  onAgent agent (busWrite agent ATN_MIGRATE value) s
def execPoolConfigWrite (agent : Agent) (addr : Nat) (value : Word) (s : State) : Host.Outcome State Fault Refusal :=
  onAgent agent (sizedWrite agent addr value none) s
def execColdReq (agent : Agent) (s : State) : Host.Outcome State Fault Refusal :=
  onAgent agent (fun s => busWrite agent SLV_CTRL (setBits SLV_CTRL_COLD_REQ (rd s SLV_CTRL) 1) s) s
def execRingEnable (agent : Agent) (n : Fin 4) (value : Word) (s : State) : Host.Outcome State Fault Refusal :=
  onAgent agent (busWrite agent (CMD_CFG n) value) s
def execRingDisable (agent : Agent) (n : Fin 4) (s : State) : Host.Outcome State Fault Refusal :=
  onAgent agent (fun s => busWrite agent (CMD_CFG n) (setBits CMD_CFG_EN (rd s (CMD_CFG n)) 0) s) s
def execSqTailWrite (agent : Agent) (n : Fin 4) (value : Word) (s : State) : Host.Outcome State Fault Refusal :=
  onAgent agent (busWrite agent (CMD_SQ_TAIL n) value) s
def execCqHeadWrite (agent : Agent) (n : Fin 4) (value : Word) (s : State) : Host.Outcome State Fault Refusal :=
  onAgent agent (busWrite agent (CMD_CQ_HEAD n) value) s

end Sys2Proof.Machine
end

