-- ==== Sys2Proof/Machine/Host.lean ====
section
/-! DEFINITION. How command packets reach the device and replies leave it: ring fetches and posts, MCTP and Tollis
management packets, the table of assigned opcodes, and the device and configuration opcodes (R281 to R299). -/
namespace Sys2Proof.Machine

/-! ## Device information (R298) -/

/-- Logical Dome banks in service. -/
def banksIn (s : State) : Nat := ((List.range 64).filter (fun l => !fbit s (CUP_MAP_DOME l) CUP_MAP_DOME_NONE)).length

/-- The firmware version of the running bank. -/
def runningVersion (s : State) : Nat := fwVersion (bankImage (fget s CUP_FW CUP_FW_BANK) s)

/-- DEV_INFO. -/
def cmdDevInfo (ps : List Nat) (s : State) : CmdOut :=
  withParams 0 ps (fun s => ok [(rd s DEV_ID).toNat, (rd s DEV_SERIAL_LO).toNat, (rd s DEV_SERIAL_HI).toNat, runningVersion s,
    arraysIn s + vecsIn s * 2 ^ 8 + banksIn s * 2 ^ 16] s) s

/-- DEV_STATE. -/
def cmdDevState (ps : List Nat) (s : State) : CmdOut :=
  withParams 0 ps (fun s => ok ([(rd s DEV_RUN).toNat] ++ lastSeqWords s ++ [s.lastTov % 2 ^ 32, (rd s SLC_GOV_LEVEL).toNat,
    (rd s SLC_GOV_RATE).toNat, fget s SPR_VERDICT SPR_VERDICT_VERDICT]) s) s

/-- DEV_ERRORS: the set bits are returned and cleared. -/
def cmdDevErrors (ps : List Nat) (s : State) : CmdOut :=
  withParams 0 ps (fun s => ok [(rd s DEV_ACCESS_ERR).toNat] (wr s DEV_ACCESS_ERR 0)) s

/-- ECHO. -/
def cmdEcho (ps : List Nat) (s : State) : CmdOut := if 1019 < ps.length then fail stParam s else ok ps s

/-! ## Configuration (R299) -/

/-- Whether an address and a count of REG_READ or REG_WRITE are valid. -/
def regSpan (a c : Nat) : Bool := a % 4 == 0 && decide (1 ≤ c ∧ c ≤ 1000 ∧ a + 4 * c ≤ 0x04000000)

/-- Read words in ascending order as Cupola. -/
def readSpan (a : Nat) : Nat → State → State × List Nat
  | 0, s => (s, [])
  | c + 1, s =>
    let r := busRead .cupola a 0 s
    let t := readSpan (a + 4) c r.1
    (t.1, r.2.toNat :: t.2)

/-- Write words in ascending order as Cupola. -/
def writeSpan : Nat → List Nat → State → State
  | _, [], s => s
  | a, w :: ws, s => writeSpan (a + 4) ws (busWrite .cupola a (BitVec.ofNat 32 w) s)

/-- REG_READ. -/
def cmdRegRead (ps : List Nat) (s : State) : CmdOut :=
  withParams 2 ps (fun s =>
    if regSpan (nth ps 0 0) (nth ps 1 0) then
      let r := readSpan (nth ps 0 0) (nth ps 1 0) s
      ok r.2 r.1
    else fail stParam s) s

/-- REG_WRITE. -/
def cmdRegWrite (ps : List Nat) (s : State) : CmdOut :=
  if 2 ≤ ps.length ∧ ps.length = 2 + nth ps 1 0 ∧ regSpan (nth ps 0 0) (nth ps 1 0) = true then
    ok [] (writeSpan (nth ps 0 0) (ps.drop 2) s)
  else fail stParam s

/-- Whether the parameters of RESULT_CONFIG are invalid: a reserved bit, or a value that R304 or R311 rejects. -/
def resultBad (ps : List Nat) (s : State) : Bool :=
  let p (i : Nat) : Nat := nth ps i 0
  reservedSet CMD_RES_SLOTS (p 2) || reservedSet CMD_MIR_CFG (p 7) || decide (p 8 ≠ 0 ∧ p 8 ≠ 2)
    || placementBad (p 0 + 2 ^ 32 * p 1) (getBits CMD_RES_SLOTS_SLOTS (BitVec.ofNat 32 (p 2)))
        (getBits CMD_RES_SLOTS_SLOT_MIB (BitVec.ofNat 32 (p 2))) s
    || unaligned4k (p 3) || unaligned4k (p 5) || mirCfgBad (BitVec.ofNat 32 (p 7))

/-- RESULT_CONFIG. -/
def cmdResultConfig (ps : List Nat) (s : State) : CmdOut :=
  withParams 9 ps (fun s =>
    let p (i : Nat) : Nat := nth ps i 0
    if resultBad ps s then fail stParam s
    else if runState s ≠ stIdle then fail stBusy s
    else
      let s1 := storeRw CMD_RES_SLOTS (BitVec.ofNat 32 (p 2)) (wr64 s CMD_RES_BASE_LO (p 0 + 2 ^ 32 * p 1))
      let s2 := wr64 (wr64 s1 CMD_MIR_BASE_LO (p 3 + 2 ^ 32 * p 4)) CMD_MIR_IDX_LO (p 5 + 2 ^ 32 * p 6)
      ok [] (fset (storeRw CMD_MIR_CFG (BitVec.ofNat 32 (p 7)) s2) CMD_RES_CTRL CMD_RES_CTRL_MIRROR_EN (p 8 / 2))) s

/-- RESULT_STATUS. -/
def cmdResultStatus (ps : List Nat) (s : State) : CmdOut :=
  withParams 0 ps (fun s =>
    let c := takeCounts [CMD_UNPUBLISHED, CMD_MIRROR_SKIP, CMD_NO_VERDICT] s
    ok ([(rd s CMD_RES_CTRL).toNat, (rd s CMD_MIR_IDX_TAIL).toNat] ++ lastSeqWords s ++ c.1) c.2) s

/-- RCV_AUDIT: RST_AUDIT after the audit, and the four words of each ledger, the four command ledgers last (DEDUCED, log entry 54). -/
def cmdRcvAudit (ps : List Nat) (s : State) : CmdOut :=
  withParams 0 ps (fun s =>
    let s1 := auditRequest s
    ok ([(rd s1 RST_AUDIT).toNat] ++ ledgerWords s1 ++ (List.range 4).map (fun n => ringLedgerWord n s1)) s1) s

/-! ## The assigned opcodes -/

/-- The opcodes of groups 0x01 to 0x03. -/
def opTable1 (op : Nat) : Option (List Nat → State → CmdOut) :=
  match op with
  | 0x0101 => some cmdDevInfo
  | 0x0102 => some cmdDevState
  | 0x0103 => some cmdDevErrors
  | 0x0104 => some cmdEcho
  | 0x0201 => some cmdRegRead
  | 0x0202 => some cmdRegWrite
  | 0x0203 => some cmdResultConfig
  | 0x0204 => some cmdResultStatus
  | 0x0301 => some cmdTimeGet
  | 0x0302 => some cmdTimeSet
  | 0x0303 => some cmdTimeAdjust
  | 0x0304 => some cmdTimeSetRate
  | 0x0305 => some cmdPtpConfig
  | 0x0306 => some cmdPtpPortConfig
  | 0x0307 => some cmdPtpStatus
  | 0x0308 => some cmdTrigConfig
  | 0x0309 => some cmdCapConfig
  | 0x030A => some cmdCmpConfig
  | 0x030B => some cmdTxqRead
  | 0x0310 => some cmdPtpTxFrame
  | 0x0311 => some cmdPtpRxFrame
  | _ => none

/-- The opcodes of group 0x04. -/
def opTable4 (op : Nat) : Option (List Nat → State → CmdOut) :=
  match op with
  | 0x0401 => some cmdIngConfig
  | 0x0402 => some cmdIngSourceConfig
  | 0x0403 => some cmdIngEnable
  | 0x0404 => some cmdIngFlush
  | 0x0405 => some cmdIngStatus
  | 0x0406 => some cmdIngLedger
  | 0x0407 => some cmdIngGroupMask
  | 0x0420 => some cmdSlcChConfig
  | 0x0421 => some cmdSlcChStatus
  | 0x0422 => some cmdSlcLimits
  | 0x0423 => some cmdSlcSetToff
  | 0x0424 => some cmdEgoConfig
  | 0x0425 => some cmdEgoGet
  | 0x0426 => some cmdEgoReset
  | _ => none

/-- The opcodes of groups 0x05 to 0x08. -/
def opTable5 (op : Nat) : Option (List Nat → State → CmdOut) :=
  match op with
  | 0x0501 => some cmdModelLoad
  | 0x0502 => some cmdModelUnload
  | 0x0503 => some cmdWlLoad
  | 0x0504 => some cmdWlActivate
  | 0x0505 => some cmdWlDiscard
  | 0x0506 => some cmdWlInfo
  | 0x0601 => some cmdStart
  | 0x0602 => some cmdStop
  | 0x0603 => some cmdSliceMode
  | 0x0701 => some cmdSlvModelLoad
  | 0x0702 => some cmdSlvModelActivate
  | 0x0703 => some cmdSlvModelDiscard
  | 0x0704 => some cmdSlvConfig
  | 0x0705 => some cmdSlvStatus
  | 0x0706 => some cmdSlvTestSolve
  | 0x0801 => some cmdSafeStatus
  | 0x0802 => some cmdSafeConfig
  | 0x0803 => some cmdGoldLoad
  | 0x0804 => some cmdSafeClear
  | 0x0805 => some cmdSafePinTest
  | 0x0806 => some cmdSafeInject
  | _ => none

/-- The opcodes of groups 0x09 to 0x0B. -/
def opTable9 (op : Nat) : Option (List Nat → State → CmdOut) :=
  match op with
  | 0x0901 => some cmdRcvReset
  | 0x0902 => some cmdRcvStatus
  | 0x0903 => some cmdRcvCapture
  | 0x0904 => some cmdRcvUnrefuse
  | 0x0905 => some cmdRcvAudit
  | 0x0906 => some cmdTolJob
  | 0x0907 => some cmdTolAbort
  | 0x0A01 => some cmdCupSensors
  | 0x0A02 => some cmdLogRead
  | 0x0A03 => some cmdFwStatus
  | 0x0A04 => some cmdFwData
  | 0x0A05 => some cmdFwStage
  | 0x0A06 => some cmdFwVerify
  | 0x0A07 => some cmdFwCommit
  | 0x0A08 => some cmdFwActivate
  | 0x0A09 => some cmdFwConfirm
  | 0x0A0A => some cmdSpareStatus
  | 0x0A0B => some cmdSpareTest
  | 0x0A0C => some cmdVcoreConfig
  | 0x0A0D => some cmdCertSet
  | 0x0B01 => some cmdDbgChallenge
  | 0x0B02 => some cmdDbgUnlock
  | 0x0B03 => some cmdDbgLock
  | 0x0B04 => some cmdLntSelect
  | 0x0B05 => some cmdDbgStatus
  | 0x0B06 => some cmdDbgCatalog
  | _ => none

/-- The meaning of an assigned opcode (R291 check 4). -/
def opTable (op : Nat) : Option (List Nat → State → CmdOut) :=
  if op < 0x0400 then opTable1 op else if op < 0x0500 then opTable4 op else if op < 0x0900 then opTable5 op else opTable9 op

/-! ## Packets (R286, R287, R290, R291) -/

/-- LENGTH of a packet's header. -/
def packetLength (p : List Nat) : Nat := nth p 1 0 % 4096

/-- The header of a packet that a path carried. -/
def packetHead (path : Path) (p : List Nat) : CmdHead :=
  ⟨path, bitOf 16 (nth p 0 0), nth p 1 0 / 2 ^ 16, nth p 2 0 % 2 ^ 16, nth p 2 0 / 2 ^ 16⟩

/-- The words of a packet that its trailer covers; a word the transfer did not bring reads as 0. -/
def packetBody (p : List Nat) : List Nat := (List.range (4 + packetLength p)).map (fun i => nth p i 0)

/-- The parameter words. -/
def packetParams (p : List Nat) : List Nat := (packetBody p).drop 4

/-- Whether a packet's length is wrong for a slot or message of this many bytes (check 1). -/
def lengthBad (limit : Nat) (p : List Nat) : Bool := packetLength p == 0xFFF || decide (limit < 20 + 4 * packetLength p)

/-- Whether the trailer is wrong (check 2). -/
def trailerBad (p : List Nat) : Bool := crc32c (bytesOfWords (packetBody p)) != nth p (4 + packetLength p) 0

/-- Whether a reserved header bit is set (check 6). -/
def headerReserved (p : List Nat) : Bool :=
  nth p 0 0 / 2 ^ 28 % 16 != 0 || nth p 0 0 / 2 ^ 17 % 128 != 0 || nth p 1 0 / 2 ^ 12 % 16 != 0 || nth p 3 0 != 0

/-- The groups of a path (R290). -/
def groupAccepted (path : Path) (op : Nat) : Bool :=
  let g := op / 256
  match path with
  | .ring _ => decide (1 ≤ g ∧ g ≤ 0x0B)
  | .mctp _ => g == 0x01 || g == 0x09 || g == 0x0A || g == 0x0B
  | .tollis _ => g == 0x01 || g == 0x09 || g == 0x0A

/-- The checks of R291 on a packet, in their order; the SEQUENCE is compared with the one expected, where one is. -/
def packetCheck (path : Path) (limit : Nat) (expect : Option Nat) (p : List Nat) (s : State) : Option Nat :=
  let op := nth p 0 0 % 2 ^ 16
  if lengthBad limit p then some stLength
  else if trailerBad p then some stCrc
  else if nth p 0 0 / 2 ^ 24 % 16 ≠ pathClass path ∨ groupAccepted path op = false then some stAuth
  else if (opTable op).isNone then some stOpcode
  else if !pathAccepts path op then some stAuth
  else if fbit s CUP_STATUS CUP_STATUS_ROM_RECOVERY && !romAnswers op then some stOos
  else if runState s == stOutOfService && !oosAnswers op then some stOos
  else if headerReserved p || (match expect with | some e => nth p 2 0 % 2 ^ 16 != e | none => false) then some stParam
  else if contextRefused (nth p 2 0 / 2 ^ 16) s then some stFenced
  else none

/-- Execute a packet: its checks, then its opcode's meaning. -/
def runWords (path : Path) (limit : Nat) (expect : Option Nat) (p : List Nat) (s : State) : State :=
  let op := nth p 0 0 % 2 ^ 16
  runPacket (packetHead path p) (nth p 0 0) op (packetCheck path limit expect p s) ((opTable op).getD (fun _ s => fail stOpcode s))
    (packetParams p) s

/-! ## Fetches (R281, R283, R286) -/

/-- Bytes of an SQ slot and of a CQ slot. -/
def sqSlotBytes (n : Nat) (s : State) : Nat := 64 * 2 ^ fget s (CMD_CFG n) CMD_CFG_SQ_SLOT_LOG2
def cqSlotBytes (n : Nat) (s : State) : Nat := 64 * 2 ^ fget s (CMD_CFG n) CMD_CFG_CQ_SLOT_LOG2

/-- Whether a pair may fetch. -/
def mayFetch (n : Nat) (s : State) : Bool :=
  let r := ringGet n s
  s.pwr.pcieUp && fbit s (CMD_CFG n) CMD_CFG_EN && !r.stopped && !r.disabling
    && fget s (CMD_SQ_HEAD n) fWord != fget s (CMD_SQ_TAIL n) CMD_SQ_TAIL_SQ_TAIL
    && !ringBusy n s && decide (ringUsed n s < cqSlots n s)

/-- COMMAND_FETCH: EXPECT_SEQ advances for every packet fetched, and the packet is executed. -/
def commandFetch (n : Fin 4) (p : List Nat) (err : Bool) (s : State) : State :=
  if !mayFetch n s then s
  else if err then dmaError n s
  else
    let e := fget s (CMD_EXPECT_SEQ n) fWord
    let s1 := fset (fset s (CMD_EXPECT_SEQ n) fWord ((e + 1) % 2 ^ 16)) (CMD_SQ_HEAD n) fWord
      ((fget s (CMD_SQ_HEAD n) fWord + 1) % sqSlots n s)
    let s2 := bump s1 (CMD_CMDS n)
    let seqWrong := packetCheck (.ring n) (sqSlotBytes n s) (some e) p s == some stParam && nth p 2 0 % 2 ^ 16 != e
    runWords (.ring n) (sqSlotBytes n s) (some e) p (if seqWrong then fon s2 (CMD_ST n) CMD_ST_SEQ_ERR else s2)

/-! ## Replies (R282, R288, R292, R293) -/

/-- The status and parameters that leave, at most m words of them. -/
def replyFit (m : Nat) (r : Reply) : Reply :=
  let ws := if r.status = stLength ∨ r.status = stCrc then [] else r.words
  ⟨if r.status = stOk ∧ m < ws.length then stTruncated else r.status, ws.take m⟩

/-- The words of a reply up to its trailer, with word 3. -/
def replyWords (c : Running) (phase : Nat) (r : Reply) : List Nat :=
  let body := [c.word0 % 2 ^ 32, r.words.length + c.head.tag % 2 ^ 16 * 2 ^ 16, c.head.seq % 2 ^ 16 + c.head.context % 2 ^ 16 * 2 ^ 16,
    r.status + phase * 2 ^ 16] ++ r.words
  body ++ [crc32c (bytesOfWords body)]

/-- The command of a path leaves execution. -/
def cmdGone (p : Path) (s : State) : State := { s with cmds := s.cmds.filter (fun c => !samePath c.head.path p) }

/-- REJECTS counts statuses other than OK and TRUNCATED. -/
def countReject (n st : Nat) (s : State) : State := if st = stOk ∨ st = stTruncated then s else bump s (CMD_REJECTS n)

/-- A pair that was told to stop does so once its command is over. -/
def ringOver (n : Nat) (s : State) : State := if (ringGet n s).disabling then ringOff n s else s

/-- A ring's reply: the slot's words in address order and word 3 last. -/
def ringPost (n : Fin 4) (c : Running) (r0 : Reply) (s : State) : State :=
  let r := replyFit (cqSlotBytes n s / 4 - 5) r0
  let g := ringGet n s
  let ws := replyWords c g.phase r
  let tail := fget s (CMD_CQ_TAIL n) fWord
  let a := rd64 s (CMD_CQ_BASE_LO n) + tail * cqSlotBytes n s
  let s1 := hostPut (hostPut (hostPut s a (ws.take 3)) (a + 16) (ws.drop 4)) (a + 12) (slice 3 1 ws)
  let next := (tail + 1) % cqSlots n s
  let s2 := fset s1 (CMD_CQ_TAIL n) fWord next
  let s3 := ringUpd n (fun g => { g with posting := some (upNs s), phase := if next = 0 then 1 - g.phase else g.phase }) s2
  let s4 := countReject n r.status (cmdGone (.ring n) s3)
  ringOver n (if c.head.irq || fbit s (CMD_CFG n) CMD_CFG_IRQ_ALL then raiseIrq n s4 else s4)

/-- Payload bytes of the MCTP packets sent (R293). -/
def mctpUnit (s : State) : Nat := 64 * 2 ^ fget s CMD_MCTP CMD_MCTP_TU

/-- The message that carries a command packet: type 0x7E, the vendor ID, a zero byte, and the packet (R293). -/
def mctpBytes (ws : List Nat) : List Nat := [0x7E, 0x1F, 0x3C, 0] ++ bytesOfWords ws

/-- The i-th of the n packets of a message; the sequence number counts modulo 4 (DSP0236, PRESUMED, log entry 57). -/
def mctpPacket (e : Fin 256) (unit n : Nat) (bs : List Nat) (i : Nat) : OutEvent :=
  .mctpPacket e (i == 0) (i + 1 == n) (i % 4) (slice (unit * i) unit bs)

/-- A packet leaves over its path: to an endpoint in MCTP packets of the size CMD_MCTP.TU selects (R293), over a Tollis
link in flits of 64 bytes (R389, R391). -/
def mgmtEmit (p : Path) (ws : List Nat) (s : State) : State :=
  match p with
  | .mctp e =>
    let n := ((mctpBytes ws).length + mctpUnit s - 1) / mctpUnit s
    forUpTo n (fun i t => emit (mctpPacket e (mctpUnit s) n (mctpBytes ws) i) t) s
  | .tollis l => tolSend l vcMgmt ((4 * ws.length + 63) / 64) (emit (.mgmtReply p ws) s)
  | .ring _ => s

/-- Start the oldest waiting packet of an MCTP or Tollis queue that has nothing in execution. -/
def mgmtStart (p : Path) (s : State) : State :=
  if (runningOn p s).isSome then s
  else match takeOne (fun e : Path × List Nat × Nat => samePath e.1 p) s.mgmt.queue with
    | some (e, rest) => runWords e.1 4096 none e.2.1 { s with mgmt := { s.mgmt with queue := rest } }
    | none => s

/-- A reply is kept for its endpoint's duplicates. -/
def keepReply (p : Path) (tag seq : Nat) (ws : List Nat) (s : State) : State :=
  { s with mgmt := { s.mgmt with replies := s.mgmt.replies.map (fun r =>
      if r.path = p ∧ r.tag = tag ∧ r.seq = seq then { r with words := ws } else r) } }

/-- A management reply leaves, and the queue's next command begins. -/
def mgmtPost (p : Path) (c : Running) (r0 : Reply) (s : State) : State :=
  let ws := replyWords c 0 (replyFit 1019 r0)
  mgmtStart p (mgmtEmit c.head.path ws (keepReply c.head.path (c.head.tag % 2 ^ 16) (c.head.seq % 2 ^ 16) ws (cmdGone p s)))

/-- A reply write that meets a PCIe error: the pair stops, and the reply is lost. -/
def postError (n : Fin 4) (s : State) : State := ringOver n (dmaError n (cmdGone (.ring n) s))

/-- REPLY_POST: the reply of a path's command leaves when it is there. A bank that has been programmed answers its
FW_COMMIT first. -/
def replyPost (p : Path) (err : Bool) (s0 : State) : State :=
  let s := match runningOn p s0 with
    | some c => if c.opcode = 0x0A07 ∧ c.reply = none then commitDone s0 else s0
    | none => s0
  match runningOn p s with
  | some c =>
    match c.reply, c.head.path with
    | some r, .ring n =>
      if (ringGet n s).posting.isSome || !s.pwr.pcieUp then s0
      else if err then postError n s else ringPost n c r s
    | some r, .mctp _ => if s.pwr.pcieUp then mgmtPost p c r s else s0
    | some r, .tollis l => if linkIsUp l s then mgmtPost p c r s else s0
    | none, _ => s0
  | none => s0

/-! ## Limits (R292) -/

/-- The execution limit of an opcode in nanoseconds. -/
def opLimit (op : Nat) : Nat :=
  if op = 0x0602 then 10000000 else if op = 0x0905 ∨ op = 0x0404 then 100000 else if op = 0x0A07 then 60000000000 else 500000000

/-- The reply of a command whose limit has passed: ING_FLUSH names the flushes that completed (R101). -/
def timeoutReply (c : Running) (s : State) : Reply :=
  ⟨stTimeout, if c.opcode = 0x0404 then
    [((maskBits 32 (nth c.params 0 0)).map (fun n => if fbit s (ING_CTRL n) ING_CTRL_FLUSH then 0 else 2 ^ n)).sum] else []⟩

/-- COMMAND_TIMEOUT: a command that has not completed at its limit answers TIMEOUT. -/
def commandTimeout (p : Path) (s : State) : State :=
  match runningOn p s with
  | some c =>
    if c.reply.isNone then
      let s1 := runToUp (c.started + opLimit c.opcode) s
      { s1 with cmds := s1.cmds.map (fun d =>
          if samePath d.head.path p && d.reply.isNone then { d with reply := some (timeoutReply d s1) } else d) }
    else s
  | none => s

/-! ## Management packets (R293, R294) -/

/-- The kept reply of the previous command of an endpoint, when this packet repeats that command within 1 s. -/
def duplicateOf (p : Path) (ws : List Nat) (s : State) : Option MgmtReply :=
  s.mgmt.replies.find? (fun r => r.path == p && r.tag == nth ws 1 0 / 2 ^ 16 && r.seq == nth ws 2 0 % 2 ^ 16
    && decide (upNs s ≤ r.at_ + 1000000000))

/-- This packet is now its endpoint's previous command. -/
def remember (p : Path) (ws : List Nat) (s : State) : State :=
  { s with mgmt := { s.mgmt with replies := s.mgmt.replies.filter (fun r => r.path != p)
      ++ [⟨p, nth ws 1 0 / 2 ^ 16, nth ws 2 0 % 2 ^ 16, upNs s, []⟩] } }

/-- Commands that wait in a path's queue. -/
def mgmtWaiting (p : Path) (s : State) : Nat := (s.mgmt.queue.filter (fun e => samePath e.1 p)).length

/-- The packet of a command that a full queue turns away: BUSY, at once. -/
def busyWords (p : Path) (ws : List Nat) (s : State) : List Nat :=
  replyWords ⟨packetHead p ws, nth ws 0 0, nth ws 0 0 % 2 ^ 16, [], upNs s, none⟩ 0 ⟨stBusy, []⟩

/-- A management packet arrives. -/
def mgmtArrive (p : Path) (ws : List Nat) (s : State) : State :=
  match duplicateOf p ws s with
  | some r => if r.words = [] then s else mgmtEmit p r.words s
  | none =>
    if 8 ≤ mgmtWaiting p s then mgmtEmit p (busyWords p ws s) s
    else
      let s1 := remember p ws s
      mgmtStart p { s1 with mgmt := { s1.mgmt with queue := s1.mgmt.queue ++ [(p, ws, upNs s)] } }

/-- MCTP_MESSAGE. -/
def mctpMessage (eid : Fin 256) (ws : List Nat) (s : State) : State :=
  if s.pwr.pcieUp && fbit s CMD_MCTP CMD_MCTP_EN then mgmtArrive (.mctp eid) ws s else s

/-- TOLLIS_MGMT_PACKET: its flits are taken from the link's MGMT buffer. -/
def tollisPacket (l : Fin 2) (ws : List Nat) (s : State) : State :=
  if linkIsUp l s then mgmtArrive (.tollis l) ws (tolConsume l vcMgmt ((4 * ws.length + 63) / 64) s) else s

/-- An MCTP control message is answered, with EN clear too (R293, R318; formats of DSP0236, PRESUMED, log entry 57). -/
def mctpAnswer (src : Fin 256) (code completion : Nat) (data : List Nat) (s : State) : State :=
  if s.pwr.pcieUp then emit (.mctpControl src code completion data) s else s

/-- SET_ENDPOINT_ID: 0 and 0xFF are no endpoint IDs. -/
def setEndpoint (src eid : Fin 256) (s : State) : State :=
  if !s.pwr.pcieUp then s
  else if eid.val = 0 ∨ eid.val = 255 then mctpAnswer src 1 2 [] s
  else mctpAnswer src 1 0 [0, eid, 0] (fset s CMD_MCTP CMD_MCTP_EID eid)

/-! ## Commands -/

def execCommandFetch (n : Fin 4) (packet : List Word) (err : Bool) (s : State) : Host.Outcome State Fault Refusal :=
  onCupola (commandFetch n (packet.map BitVec.toNat) err) s
def execReplyPost (p : Path) (err : Bool) (s : State) : Host.Outcome State Fault Refusal := onCupola (replyPost p err) s
def execCommandTimeout (p : Path) (s : State) : Host.Outcome State Fault Refusal := onCupola (commandTimeout p) s
def execMctpMessage (eid : Fin 256) (packet : List Word) (s : State) : Host.Outcome State Fault Refusal :=
  onCupola (mctpMessage eid (packet.map BitVec.toNat)) s
def execSetEndpointId (src eid : Fin 256) (s : State) : Host.Outcome State Fault Refusal := onCupola (setEndpoint src eid) s
def execGetEndpointId (src : Fin 256) (s : State) : Host.Outcome State Fault Refusal :=
  onCupola (fun s => mctpAnswer src 2 0 [fget s CMD_MCTP CMD_MCTP_EID, 0, 0] s) s
def execGetMctpVersionSupport (src : Fin 256) (s : State) : Host.Outcome State Fault Refusal :=
  onCupola (mctpAnswer src 4 0 [1, 0xF1, 0xF3, 0xFF, 0]) s
def execGetMessageTypeSupport (src : Fin 256) (s : State) : Host.Outcome State Fault Refusal :=
  onCupola (mctpAnswer src 5 0 [2, 0x05, 0x7E]) s
def execGetVendorDefinedMsgSupport (src : Fin 256) (s : State) : Host.Outcome State Fault Refusal :=
  onCupola (mctpAnswer src 6 0 [0xFF, 0, 0x1F, 0x3C, 0, 0]) s
def execTollisMgmtPacket (l : Fin 2) (packet : List Word) (s : State) : Host.Outcome State Fault Refusal :=
  onCupola (tollisPacket l (packet.map BitVec.toNat)) s
def execDevInfo (h : CmdHead) (ps : List Word) (s : State) : Host.Outcome State Fault Refusal := onCmd h 0x0101 cmdDevInfo ps s
def execDevState (h : CmdHead) (ps : List Word) (s : State) : Host.Outcome State Fault Refusal := onCmd h 0x0102 cmdDevState ps s
def execDevErrors (h : CmdHead) (ps : List Word) (s : State) : Host.Outcome State Fault Refusal := onCmd h 0x0103 cmdDevErrors ps s
def execEcho (h : CmdHead) (ps : List Word) (s : State) : Host.Outcome State Fault Refusal := onCmd h 0x0104 cmdEcho ps s
def execRegRead (h : CmdHead) (ps : List Word) (s : State) : Host.Outcome State Fault Refusal := onCmd h 0x0201 cmdRegRead ps s
def execRegWrite (h : CmdHead) (ps : List Word) (s : State) : Host.Outcome State Fault Refusal := onCmd h 0x0202 cmdRegWrite ps s
def execResultConfig (h : CmdHead) (ps : List Word) (s : State) : Host.Outcome State Fault Refusal := onCmd h 0x0203 cmdResultConfig ps s
def execResultStatus (h : CmdHead) (ps : List Word) (s : State) : Host.Outcome State Fault Refusal := onCmd h 0x0204 cmdResultStatus ps s
def execRcvAudit (h : CmdHead) (ps : List Word) (s : State) : Host.Outcome State Fault Refusal := onCmd h 0x0905 cmdRcvAudit ps s

end Sys2Proof.Machine
end

