-- ==== Sys2Proof/Machine/Dispatch.lean ====
section
/-! DEFINITION. The dispatch: one arm per command, each one direct call of its meaning. -/
namespace Sys2Proof.Machine

def exec (i : Instr) (s : State) : Host.Outcome State Fault Refusal :=
  match i with
  | .registerWrite agent addr value wide cross => Sys2Proof.Machine.execRegisterWrite agent addr value wide cross s
  | .rcRead agent addr wide cross => Sys2Proof.Machine.execRcRead agent addr wide cross s
  | .badSizeAccess agent addr size write value high => Sys2Proof.Machine.execBadSizeAccess agent addr size write value high s
  | .unmappedAccess agent addr write value => Sys2Proof.Machine.execUnmappedAccess agent addr write value s
  | .lowWordRead agent addr => Sys2Proof.Machine.execLowWordRead agent addr s
  | .lowWordWrite agent addr value => Sys2Proof.Machine.execLowWordWrite agent addr value s
  | .highWordWrite agent addr value => Sys2Proof.Machine.execHighWordWrite agent addr value s
  | .broadcastWrite agent addr value => Sys2Proof.Machine.execBroadcastWrite agent addr value s
  | .groupWrite agent addr value => Sys2Proof.Machine.execGroupWrite agent addr value s
  | .barMemoryAccess bar4 write addr len bytes how => Sys2Proof.Machine.execBarMemoryAccess bar4 write addr len bytes how s
  | .rateUpdate counts => Sys2Proof.Machine.execRateUpdate counts s
  | .phaseAdjust agent high => Sys2Proof.Machine.execPhaseAdjust agent high s
  | .blfRateWrite agent high => Sys2Proof.Machine.execBlfRateWrite agent high s
  | .xtsCapture agent value => Sys2Proof.Machine.execXtsCapture agent value s
  | .sliceBoundary => Sys2Proof.Machine.execSliceBoundary s
  | .sliceClose => Sys2Proof.Machine.execSliceClose s
  | .cmpFire n => Sys2Proof.Machine.execCmpFire n s
  | .cmpArm agent n ctrl => Sys2Proof.Machine.execCmpArm agent n ctrl s
  | .trigModeWrite agent n word => Sys2Proof.Machine.execTrigModeWrite agent n word s
  | .trigEdge n => Sys2Proof.Machine.execTrigEdge n s
  | .trigPulseEnd n => Sys2Proof.Machine.execTrigPulseEnd n s
  | .capEdge n falling delay width => Sys2Proof.Machine.execCapEdge n falling delay width s
  | .capPop agent n => Sys2Proof.Machine.execCapPop agent n s
  | .txStamp port sent => Sys2Proof.Machine.execTxStamp port sent s
  | .txqPop agent => Sys2Proof.Machine.execTxqPop agent s
  | .ptpFrameRx port pad bytes msg frame got => Sys2Proof.Machine.execPtpFrameRx port pad bytes msg frame got s
  | .announceReceiptTimeout port => Sys2Proof.Machine.execAnnounceReceiptTimeout port s
  | .syncReceiptTimeout => Sys2Proof.Machine.execSyncReceiptTimeout s
  | .hostHoldoverTimeout => Sys2Proof.Machine.execHostHoldoverTimeout s
  | .ppsEdgeMissing => Sys2Proof.Machine.execPpsEdgeMissing s
  | .pauseFrameRx port classes time got => Sys2Proof.Machine.execPauseFrameRx port classes time got s
  | .timeGet h ps => Sys2Proof.Machine.execTimeGet h ps s
  | .timeSet h ps => Sys2Proof.Machine.execTimeSet h ps s
  | .timeAdjust h ps => Sys2Proof.Machine.execTimeAdjust h ps s
  | .timeSetRate h ps => Sys2Proof.Machine.execTimeSetRate h ps s
  | .ptpConfig h ps => Sys2Proof.Machine.execPtpConfig h ps s
  | .ptpPortConfig h ps => Sys2Proof.Machine.execPtpPortConfig h ps s
  | .ptpStatus h ps => Sys2Proof.Machine.execPtpStatus h ps s
  | .trigConfig h ps => Sys2Proof.Machine.execTrigConfig h ps s
  | .capConfig h ps => Sys2Proof.Machine.execCapConfig h ps s
  | .cmpConfig h ps => Sys2Proof.Machine.execCmpConfig h ps s
  | .txqRead h ps => Sys2Proof.Machine.execTxqRead h ps s
  | .ptpTxFrame h ps => Sys2Proof.Machine.execPtpTxFrame h ps s
  | .ptpRxFrame h ps => Sys2Proof.Machine.execPtpRxFrame h ps s
  | .packetStart ch stamp start got early => Sys2Proof.Machine.execPacketStart ch stamp start got early s
  | .packetEnd ch bytes err => Sys2Proof.Machine.execPacketEnd ch bytes err s
  | .packetTimeout ch got => Sys2Proof.Machine.execPacketTimeout ch got s
  | .linkLoss ch got => Sys2Proof.Machine.execLinkLoss ch got s
  | .consumerPacketDone ch more => Sys2Proof.Machine.execConsumerPacketDone ch more s
  | .pfcRefresh ch => Sys2Proof.Machine.execPfcRefresh ch s
  | .bankInFlightTimeout ch => Sys2Proof.Machine.execBankInFlightTimeout ch s
  | .flushRequest agent ch => Sys2Proof.Machine.execFlushRequest agent ch s
  | .flushTakeEffect ch => Sys2Proof.Machine.execFlushTakeEffect ch s
  | .receiverStop ch => Sys2Proof.Machine.execReceiverStop ch s
  | .encoderEdge ch input forward illegal index delay width => Sys2Proof.Machine.execEncoderEdge ch input forward illegal index delay width s
  | .encoderReport ch => Sys2Proof.Machine.execEncoderReport ch s
  | .spiSampleRead ch => Sys2Proof.Machine.execSpiSampleRead ch s
  | .ingConfig h ps => Sys2Proof.Machine.execIngConfig h ps s
  | .ingSourceConfig h ps => Sys2Proof.Machine.execIngSourceConfig h ps s
  | .ingEnable h ps => Sys2Proof.Machine.execIngEnable h ps s
  | .ingFlush h ps => Sys2Proof.Machine.execIngFlush h ps s
  | .ingStatus h ps => Sys2Proof.Machine.execIngStatus h ps s
  | .ingLedger h ps => Sys2Proof.Machine.execIngLedger h ps s
  | .ingGroupMask h ps => Sys2Proof.Machine.execIngGroupMask h ps s
  | .syncWindowEnd => Sys2Proof.Machine.execSyncWindowEnd s
  | .silentTimeout ch => Sys2Proof.Machine.execSilentTimeout ch s
  | .knotDue => Sys2Proof.Machine.execKnotDue s
  | .knotWaitExpiry => Sys2Proof.Machine.execKnotWaitExpiry s
  | .initEnd => Sys2Proof.Machine.execInitEnd s
  | .wheelAbsentTimeout => Sys2Proof.Machine.execWheelAbsentTimeout s
  | .imuAbsentTimeout => Sys2Proof.Machine.execImuAbsentTimeout s
  | .imuOnlyMaxExpiry => Sys2Proof.Machine.execImuOnlyMaxExpiry s
  | .extrapMaxExpiry => Sys2Proof.Machine.execExtrapMaxExpiry s
  | .imuPrimaryReturn => Sys2Proof.Machine.execImuPrimaryReturn s
  | .zuptDetect => Sys2Proof.Machine.execZuptDetect s
  | .slcChConfig h ps => Sys2Proof.Machine.execSlcChConfig h ps s
  | .slcChStatus h ps => Sys2Proof.Machine.execSlcChStatus h ps s
  | .slcLimits h ps => Sys2Proof.Machine.execSlcLimits h ps s
  | .slcSetToff h ps => Sys2Proof.Machine.execSlcSetToff h ps s
  | .egoConfig h ps => Sys2Proof.Machine.execEgoConfig h ps s
  | .egoGet h ps => Sys2Proof.Machine.execEgoGet h ps s
  | .egoReset h ps => Sys2Proof.Machine.execEgoReset h ps s
  | .alignEnd => Sys2Proof.Machine.execAlignEnd s
  | .voxelStart => Sys2Proof.Machine.execVoxelStart s
  | .pointInsert lane => Sys2Proof.Machine.execPointInsert lane s
  | .voxelEnd => Sys2Proof.Machine.execVoxelEnd s
  | .vheClearDone => Sys2Proof.Machine.execVheClearDone s
  | .frameLineTimeout ch => Sys2Proof.Machine.execFrameLineTimeout ch s
  | .meshBuildDone ch built => Sys2Proof.Machine.execMeshBuildDone ch built s
  | .cameraStart => Sys2Proof.Machine.execCameraStart s
  | .frameReport ch => Sys2Proof.Machine.execFrameReport ch s
  | .cameraEnd => Sys2Proof.Machine.execCameraEnd s
  | .fuseStart => Sys2Proof.Machine.execFuseStart s
  | .fuseEnd values => Sys2Proof.Machine.execFuseEnd values s
  | .calSolve => Sys2Proof.Machine.execCalSolve s
  | .calReply => Sys2Proof.Machine.execCalReply s
  | .calNoreply => Sys2Proof.Machine.execCalNoreply s
  | .itemStart stage item unit job => Sys2Proof.Machine.execItemStart stage item unit job s
  | .itemComplete unit corr uncorr results reads => Sys2Proof.Machine.execItemComplete unit corr uncorr results reads s
  | .itemBudgetExpiry unit => Sys2Proof.Machine.execItemBudgetExpiry unit s
  | .tagGrant req => Sys2Proof.Machine.execTagGrant req s
  | .memoryAccessComplete tag how => Sys2Proof.Machine.execMemoryAccessComplete tag how s
  | .eccRewrite bank => Sys2Proof.Machine.execEccRewrite bank s
  | .tagReturningTimeout => Sys2Proof.Machine.execTagReturningTimeout s
  | .modelLoad h ps => Sys2Proof.Machine.execModelLoad h ps s
  | .modelUnload h ps => Sys2Proof.Machine.execModelUnload h ps s
  | .wlLoad h ps => Sys2Proof.Machine.execWlLoad h ps s
  | .wlActivate h ps => Sys2Proof.Machine.execWlActivate h ps s
  | .wlDiscard h ps => Sys2Proof.Machine.execWlDiscard h ps s
  | .wlInfo h ps => Sys2Proof.Machine.execWlInfo h ps s
  | .trackStart => Sys2Proof.Machine.execTrackStart s
  | .attend => Sys2Proof.Machine.execAttend s
  | .kvAppend => Sys2Proof.Machine.execKvAppend s
  | .kvOpen => Sys2Proof.Machine.execKvOpen s
  | .kvReset => Sys2Proof.Machine.execKvReset s
  | .kvClose => Sys2Proof.Machine.execKvClose s
  | .trackCommit => Sys2Proof.Machine.execTrackCommit s
  | .trackEnd => Sys2Proof.Machine.execTrackEnd s
  | .migrate agent value => Sys2Proof.Machine.execMigrate agent value s
  | .migrationCopyDone => Sys2Proof.Machine.execMigrationCopyDone s
  | .migrationSourceRelease => Sys2Proof.Machine.execMigrationSourceRelease s
  | .migrationTimeout => Sys2Proof.Machine.execMigrationTimeout s
  | .poolConfigWrite agent addr value => Sys2Proof.Machine.execPoolConfigWrite agent addr value s
  | .pageLedgerRebuild => Sys2Proof.Machine.execPageLedgerRebuild s
  | .solveStart => Sys2Proof.Machine.execSolveStart s
  | .solveDeadline place => Sys2Proof.Machine.execSolveDeadline place s
  | .solveReturn => Sys2Proof.Machine.execSolveReturn s
  | .coldReq agent => Sys2Proof.Machine.execColdReq agent s
  | .slvModelLoad h ps => Sys2Proof.Machine.execSlvModelLoad h ps s
  | .slvModelActivate h ps => Sys2Proof.Machine.execSlvModelActivate h ps s
  | .slvModelDiscard h ps => Sys2Proof.Machine.execSlvModelDiscard h ps s
  | .slvConfig h ps => Sys2Proof.Machine.execSlvConfig h ps s
  | .slvStatus h ps => Sys2Proof.Machine.execSlvStatus h ps s
  | .slvTestSolve h ps => Sys2Proof.Machine.execSlvTestSolve h ps s
  | .publication => Sys2Proof.Machine.execPublication s
  | .verdictArrival => Sys2Proof.Machine.execVerdictArrival s
  | .verdictTimeout => Sys2Proof.Machine.execVerdictTimeout s
  | .mirrorCopyStart => Sys2Proof.Machine.execMirrorCopyStart s
  | .mirrorCopyDone err => Sys2Proof.Machine.execMirrorCopyDone err s
  | .mirIdxHeadWrite agent value => Sys2Proof.Machine.execMirIdxHeadWrite agent value s
  | .ringEnable agent n value => Sys2Proof.Machine.execRingEnable agent n value s
  | .ringDisable agent n => Sys2Proof.Machine.execRingDisable agent n s
  | .sqTailWrite agent n value => Sys2Proof.Machine.execSqTailWrite agent n value s
  | .cqHeadWrite agent n value => Sys2Proof.Machine.execCqHeadWrite agent n value s
  | .commandFetch n packet err => Sys2Proof.Machine.execCommandFetch n packet err s
  | .replyPost p err => Sys2Proof.Machine.execReplyPost p err s
  | .replySent n => Sys2Proof.Machine.execReplySent n s
  | .postingTimeout n => Sys2Proof.Machine.execPostingTimeout n s
  | .commandTimeout p => Sys2Proof.Machine.execCommandTimeout p s
  | .mctpMessage eid packet => Sys2Proof.Machine.execMctpMessage eid packet s
  | .setEndpointId src eid => Sys2Proof.Machine.execSetEndpointId src eid s
  | .getEndpointId src => Sys2Proof.Machine.execGetEndpointId src s
  | .getMctpVersionSupport src => Sys2Proof.Machine.execGetMctpVersionSupport src s
  | .getMessageTypeSupport src => Sys2Proof.Machine.execGetMessageTypeSupport src s
  | .getVendorDefinedMsgSupport src => Sys2Proof.Machine.execGetVendorDefinedMsgSupport src s
  | .tollisMgmtPacket l packet => Sys2Proof.Machine.execTollisMgmtPacket l packet s
  | .devInfo h ps => Sys2Proof.Machine.execDevInfo h ps s
  | .devState h ps => Sys2Proof.Machine.execDevState h ps s
  | .devErrors h ps => Sys2Proof.Machine.execDevErrors h ps s
  | .echo h ps => Sys2Proof.Machine.execEcho h ps s
  | .regRead h ps => Sys2Proof.Machine.execRegRead h ps s
  | .regWrite h ps => Sys2Proof.Machine.execRegWrite h ps s
  | .resultConfig h ps => Sys2Proof.Machine.execResultConfig h ps s
  | .resultStatus h ps => Sys2Proof.Machine.execResultStatus h ps s
  | .start h ps => Sys2Proof.Machine.execStart h ps s
  | .stop h ps => Sys2Proof.Machine.execStop h ps s
  | .sliceMode h ps => Sys2Proof.Machine.execSliceMode h ps s
  | .vpRead dt addr => Sys2Proof.Machine.execVpRead dt addr s
  | .vpHeartbeat => Sys2Proof.Machine.execVpHeartbeat s
  | .sliceTick dt intact => Sys2Proof.Machine.execSliceTick dt intact s
  | .tickMissing => Sys2Proof.Machine.execTickMissing s
  | .headerCopyRx dt intact goldIntact => Sys2Proof.Machine.execHeaderCopyRx dt intact goldIntact s
  | .judge dt => Sys2Proof.Machine.execJudge dt s
  | .tapTask dt => Sys2Proof.Machine.execTapTask dt s
  | .calJudge dt intact => Sys2Proof.Machine.execCalJudge dt intact s
  | .spireStatusTask dt => Sys2Proof.Machine.execSpireStatusTask dt s
  | .selftestQuantum dt pass readback => Sys2Proof.Machine.execSelftestQuantum dt pass readback s
  | .spireImuSample dt bytes => Sys2Proof.Machine.execSpireImuSample dt bytes s
  | .spireWheelFrame dt ident data => Sys2Proof.Machine.execSpireWheelFrame dt ident data s
  | .tapImuTimeout => Sys2Proof.Machine.execTapImuTimeout s
  | .tapWheelDisagree => Sys2Proof.Machine.execTapWheelDisagree s
  | .tapPointRx dt intact => Sys2Proof.Machine.execTapPointRx dt intact s
  | .stageKick dt intact => Sys2Proof.Machine.execStageKick dt intact s
  | .wwdCloseExpiry => Sys2Proof.Machine.execWwdCloseExpiry s
  | .wwdResetTimeout => Sys2Proof.Machine.execWwdResetTimeout s
  | .faultReport dt intact => Sys2Proof.Machine.execFaultReport dt intact s
  | .validHoldExpiry => Sys2Proof.Machine.execValidHoldExpiry s
  | .abandonNotice dt intact => Sys2Proof.Machine.execAbandonNotice dt intact s
  | .resetNotice dt intact => Sys2Proof.Machine.execResetNotice dt intact s
  | .recoveryCompleteReport dt intact => Sys2Proof.Machine.execRecoveryCompleteReport dt intact s
  | .scopeReport dt intact => Sys2Proof.Machine.execScopeReport dt intact s
  | .spireReset => Sys2Proof.Machine.execSpireReset s
  | .safeStatus h ps => Sys2Proof.Machine.execSafeStatus h ps s
  | .safeConfig h ps => Sys2Proof.Machine.execSafeConfig h ps s
  | .goldLoad h ps => Sys2Proof.Machine.execGoldLoad h ps s
  | .safeClear h ps => Sys2Proof.Machine.execSafeClear h ps s
  | .safePinTest h ps => Sys2Proof.Machine.execSafePinTest h ps s
  | .safeInject h ps => Sys2Proof.Machine.execSafeInject h ps s
  | .por => Sys2Proof.Machine.execPor s
  | .rstIn => Sys2Proof.Machine.execRstIn s
  | .spireResetRequest => Sys2Proof.Machine.execSpireResetRequest s
  | .drainEnd => Sys2Proof.Machine.execDrainEnd s
  | .drainTimeout => Sys2Proof.Machine.execDrainTimeout s
  | .captureDone => Sys2Proof.Machine.execCaptureDone s
  | .resetRelease badSpares => Sys2Proof.Machine.execResetRelease badSpares s
  | .rebuildDone pass => Sys2Proof.Machine.execRebuildDone pass s
  | .replaySuspectDone guilty => Sys2Proof.Machine.execReplaySuspectDone guilty s
  | .replayLimitExpiry => Sys2Proof.Machine.execReplayLimitExpiry s
  | .bootComplete => Sys2Proof.Machine.execBootComplete s
  | .bootRom => Sys2Proof.Machine.execBootRom s
  | .auditRequest agent => Sys2Proof.Machine.execAuditRequest agent s
  | .rcvReset h ps => Sys2Proof.Machine.execRcvReset h ps s
  | .rcvStatus h ps => Sys2Proof.Machine.execRcvStatus h ps s
  | .rcvCapture h ps => Sys2Proof.Machine.execRcvCapture h ps s
  | .rcvUnrefuse h ps => Sys2Proof.Machine.execRcvUnrefuse h ps s
  | .rcvAudit h ps => Sys2Proof.Machine.execRcvAudit h ps s
  | .tolJob h ps => Sys2Proof.Machine.execTolJob h ps s
  | .tolAbort h ps => Sys2Proof.Machine.execTolAbort h ps s
  | .flitRx l vc good codewords lane symbols => Sys2Proof.Machine.execFlitRx l vc good codewords lane symbols s
  | .linkLockLoss l lane => Sys2Proof.Machine.execLinkLockLoss l lane s
  | .linkRetrainDone l adverts => Sys2Proof.Machine.execLinkRetrainDone l adverts s
  | .creditReturn l vc toPeer => Sys2Proof.Machine.execCreditReturn l vc toPeer s
  | .creditReturningTimeout l vc => Sys2Proof.Machine.execCreditReturningTimeout l vc s
  | .rxwinWrite l vc offset bytes => Sys2Proof.Machine.execRxwinWrite l vc offset bytes s
  | .abortTokenRx l job origin hops seq => Sys2Proof.Machine.execAbortTokenRx l job origin hops seq s
  | .monitorTask temps volts powers => Sys2Proof.Machine.execMonitorTask temps volts powers s
  | .vcoreTask => Sys2Proof.Machine.execVcoreTask s
  | .avsTargetAck => Sys2Proof.Machine.execAvsTargetAck s
  | .buttressStep pass => Sys2Proof.Machine.execButtressStep pass s
  | .domeBankCopyDone => Sys2Proof.Machine.execDomeBankCopyDone s
  | .logTask => Sys2Proof.Machine.execLogTask s
  | .taskBudgetOverrun t => Sys2Proof.Machine.execTaskBudgetOverrun t s
  | .getVersion => Sys2Proof.Machine.execGetVersion s
  | .getCapabilities => Sys2Proof.Machine.execGetCapabilities s
  | .negotiateAlgorithms asym hash measHash => Sys2Proof.Machine.execNegotiateAlgorithms asym hash measHash s
  | .getDigests => Sys2Proof.Machine.execGetDigests s
  | .getCertificate slot offset length => Sys2Proof.Machine.execGetCertificate slot offset length s
  | .challenge slot nonce => Sys2Proof.Machine.execChallenge slot nonce s
  | .getMeasurements index sign nonce => Sys2Proof.Machine.execGetMeasurements index sign nonce s
  | .cupSensors h ps => Sys2Proof.Machine.execCupSensors h ps s
  | .logRead h ps => Sys2Proof.Machine.execLogRead h ps s
  | .fwStatus h ps => Sys2Proof.Machine.execFwStatus h ps s
  | .fwData h ps => Sys2Proof.Machine.execFwData h ps s
  | .fwStage h ps => Sys2Proof.Machine.execFwStage h ps s
  | .fwVerify h ps => Sys2Proof.Machine.execFwVerify h ps s
  | .fwCommit h ps => Sys2Proof.Machine.execFwCommit h ps s
  | .fwActivate h ps => Sys2Proof.Machine.execFwActivate h ps s
  | .fwConfirm h ps => Sys2Proof.Machine.execFwConfirm h ps s
  | .spareStatus h ps => Sys2Proof.Machine.execSpareStatus h ps s
  | .spareTest h ps => Sys2Proof.Machine.execSpareTest h ps s
  | .vcoreConfig h ps => Sys2Proof.Machine.execVcoreConfig h ps s
  | .certSet h ps => Sys2Proof.Machine.execCertSet h ps s
  | .dbgChallenge h ps => Sys2Proof.Machine.execDbgChallenge h ps s
  | .dbgUnlock h ps => Sys2Proof.Machine.execDbgUnlock h ps s
  | .dbgLock h ps => Sys2Proof.Machine.execDbgLock h ps s
  | .lntSelect h ps => Sys2Proof.Machine.execLntSelect h ps s
  | .dbgStatus h ps => Sys2Proof.Machine.execDbgStatus h ps s
  | .dbgCatalog h ps => Sys2Proof.Machine.execDbgCatalog h ps s
  | .freezeEntry => Sys2Proof.Machine.execFreezeEntry s
  | .freezeExit => Sys2Proof.Machine.execFreezeExit s
  | .extest => Sys2Proof.Machine.execExtest s
  | .samplePreload => Sys2Proof.Machine.execSamplePreload s
  | .clamp => Sys2Proof.Machine.execClamp s
  | .sysreset => Sys2Proof.Machine.execSysreset s
  | .ijtag => Sys2Proof.Machine.execIjtag s
  | .bypass => Sys2Proof.Machine.execBypass s
  | .instrumentShift what => Sys2Proof.Machine.execInstrumentShift what s
  | .perst => Sys2Proof.Machine.execPerst s
  | .powerLoss main spire => Sys2Proof.Machine.execPowerLoss main spire s
  | .frameStart ch vc number stamp => Sys2Proof.Machine.execFrameStart ch vc number stamp s
  | .linkUp ch => Sys2Proof.Machine.execLinkUp ch s
  | .pauseExpiry port classes => Sys2Proof.Machine.execPauseExpiry port classes s
  | .slewAbsorbed => Sys2Proof.Machine.execSlewAbsorbed s
  | .ptpMessageIntervalExpiry port kind => Sys2Proof.Machine.execPtpMessageIntervalExpiry port kind s
  | .bankPassageComplete ch => Sys2Proof.Machine.execBankPassageComplete ch s
  | .tagReleaseCrossing => Sys2Proof.Machine.execTagReleaseCrossing s
  | .cqHeadReleaseCrossing n => Sys2Proof.Machine.execCqHeadReleaseCrossing n s
  | .spireHardwareFault dt bit => Sys2Proof.Machine.execSpireHardwareFault dt bit s
  | .rstInRelease => Sys2Proof.Machine.execRstInRelease s
  | .perstRelease => Sys2Proof.Machine.execPerstRelease s

end Sys2Proof.Machine
end

