-- ==== Sys2Proof/Safety.lean ====
section
/-! DEFINITION. What counts as a safe run of the block, in the terms that claims use. -/
namespace Sys2Proof

open Sys2Proof.Machine

/-! ## Completion -/

/-- A command answers a next state, of which P holds. -/
def Gives (c : Instr) (s : State) (P : State → Prop) : Prop := ∃ t, exec c s = .next t ∧ P t

/-! ## Invariants -/

/-- The canonical form of the registers and of the addressed memories. -/
structure StoresCanonical (s : State) : Prop where
  regs : cellsWf resetWord s.regs = true
  dome : cellsWf emptyByte s.dome = true
  lpddr : cellsWf emptyByte s.lpddr = true
  hostMem : cellsWf emptyWord s.hostMem = true

/-- The module has the units the manual gives it: 16 trigger generators, 32 capture pins, 32 ingress channels with their
aligner entries, 16 camera lanes, 8 taps, 4 ring pairs and 2 Tollis links. -/
structure UnitsPresent (s : State) : Prop where
  trig : s.trig.length = 16
  cap : s.cap.length = 32
  ing : s.ing.length = 32
  aln : s.aln.length = 32
  lanes : s.lanes.length = 16
  taps : s.tapLfsr.length = 8
  rings : s.rings.length = 4
  links : s.links.length = 2

/-- The invariant of every step. -/
structure Inv (s : State) : Prop where
  stores : StoresCanonical s
  units : UnitsPresent s

/-- The registers are in canonical form. -/
abbrev RegsCanonical (s : State) : Prop := cellsWf resetWord s.regs = true

/-! ## Frames -/

/-- Every register outside a list of addresses keeps its word. -/
def RegsKept (L : List Nat) (s t : State) : Prop := ∀ a, a ∉ L → rd t a = rd s a

/-- Every byte of the Dome and of LPDDR5X and every word of host memory reads as before. -/
def MemoryKept (s t : State) : Prop :=
  (∀ a, domeByte t a = domeByte s a) ∧ (∀ a, ddrByte t a = ddrByte s a) ∧ t.hostMem = s.hostMem

/-! ## Command packets -/

/-- An opcode's step may execute: Cupola runs, the path is idle and a ring has a slot for the reply, and the checks that
precede the opcode's own pass (R281, R291). -/
def Ready (h : CmdHead) (op : Nat) (s : State) : Prop :=
  cupolaRuns s = true ∧ pathFree h.path s = true ∧ headCheck h op s = none

/-- The command in execution with its reply, as it waits to be posted. -/
def executed (h : CmdHead) (op : Nat) (ps : List Word) (s : State) (r : Option Reply) : Running :=
  ⟨h, headWord0 h op, op, ps.map BitVec.toNat, upNs s, r⟩

/-- After a command that answers at once: its status and words stand as its path's reply. -/
def Answered (h : CmdHead) (op : Nat) (ps : List Word) (st : Nat) (ws : List Nat) (s t : State) : Prop :=
  t.cmds = s.cmds ++ [executed h op ps s (some ⟨st, ws⟩)]

/-- A command that only reads: it answers OK with these words, and nothing else changes. -/
def OnlyReads (c : Instr) (h : CmdHead) (op : Nat) (ps : List Word) (ws : List Nat) (s : State) : Prop :=
  exec c s = .next { s with cmds := s.cmds ++ [executed h op ps s (some ⟨stOk, ws⟩)] }

/-- Parameter i of a command. -/
def param (ps : List Word) (i : Nat) : Nat := nth (ps.map BitVec.toNat) i 0

/-! ## The Spire -/

/-- The Spire when an event reaches it after d cycles: its timer has moved on and the deadlines before that have acted
(R27). -/
def sprAt (d : Nat) (s : State) : State :=
  sprExpire (fun t => decide (t < (sprAdvance d s).spr.now)) (sprAdvance d s)

/-- What no event of the Spire touches: the Dome, host memory and the configuration. -/
def SpireOnly (s t : State) : Prop := t.dome = s.dome ∧ t.hostMem = s.hostMem ∧ t.spr.config = s.spr.config ∧ t.pwr = s.pwr

/-- Of the memories, at most the event log's ring in LPDDR5X has changed (R409). -/
def LogOnly (s t : State) : Prop :=
  t.dome = s.dome ∧ t.hostMem = s.hostMem ∧ ∀ a, (a < 0x03F00000 ∨ 0x04000000 ≤ a) → ddrByte t a = ddrByte s a

/-! ## Groups of registers -/

/-- The registers whose images SLV_CONFIG carries, in its order (R274). -/
def slvImages : List Nat :=
  [SLV_CTRL, SLV_DEADLINE, SLV_LIMITS, SLV_PIVOT_TAU, SLV_REG_DELTA, SLV_STEP_TOL, SLV_MULT_TOL, SLV_REFINE_TOL, SLV_WORK]

/-- The counters that SLV_STATUS returns and clears (R272, R274). -/
def slvCounters : List Nat :=
  [SLV_SOLVES, SLV_OPTIMAL, SLV_TRUNCATED, SLV_ITER_LIMITS, SLV_ACTIVE_LIMITS, SLV_BAD_INPUTS, SLV_REGULARISED,
    SLV_SATURATED, SLV_ABORTED_UPDATES, SLV_COLD_STARTS]

/-! ## Which die a command happens on -/

/-- The commands that happen on the main die: not on the Spire, at a pin, on the TAP or to a supply. -/
def onMainDie (c : Instr) : Bool :=
  match c with
  | .vpRead .. | .vpHeartbeat | .sliceTick .. | .tickMissing | .headerCopyRx .. | .judge .. | .tapTask .. |
  .calJudge .. | .spireStatusTask .. | .selftestQuantum .. | .spireImuSample .. | .spireWheelFrame .. |
  .tapImuTimeout | .tapWheelDisagree | .tapPointRx .. | .stageKick .. | .wwdCloseExpiry | .wwdResetTimeout |
  .faultReport .. | .validHoldExpiry | .abandonNotice .. | .resetNotice .. | .recoveryCompleteReport .. |
  .scopeReport .. | .spireReset | .por | .rstIn | .bootComplete | .bootRom | .freezeEntry | .freezeExit | .extest |
  .samplePreload | .clamp | .sysreset | .ijtag | .bypass | .instrumentShift .. | .perst | .powerLoss .. |
  .spireHardwareFault .. | .rstInRelease | .perstRelease => false
  | .registerWrite .. | .rcRead .. | .badSizeAccess .. | .unmappedAccess .. | .lowWordRead .. | .lowWordWrite .. |
  .highWordWrite .. | .broadcastWrite .. | .groupWrite .. | .barMemoryAccess .. | .rateUpdate .. | .phaseAdjust .. |
  .blfRateWrite .. | .xtsCapture .. | .sliceBoundary | .sliceClose | .cmpFire .. | .cmpArm .. | .trigModeWrite .. |
  .trigEdge .. | .trigPulseEnd .. | .capEdge .. | .capPop .. | .txStamp .. | .txqPop .. | .ptpFrameRx .. |
  .announceReceiptTimeout .. | .syncReceiptTimeout | .hostHoldoverTimeout | .ppsEdgeMissing | .pauseFrameRx .. |
  .timeGet .. | .timeSet .. | .timeAdjust .. | .timeSetRate .. | .ptpConfig .. | .ptpPortConfig .. | .ptpStatus .. |
  .trigConfig .. | .capConfig .. | .cmpConfig .. | .txqRead .. | .ptpTxFrame .. | .ptpRxFrame .. | .packetStart .. |
  .packetEnd .. | .packetTimeout .. | .linkLoss .. | .consumerPacketDone .. | .pfcRefresh .. |
  .bankInFlightTimeout .. | .flushRequest .. | .flushTakeEffect .. | .receiverStop .. | .encoderEdge .. |
  .encoderReport .. | .spiSampleRead .. | .ingConfig .. | .ingSourceConfig .. | .ingEnable .. | .ingFlush .. |
  .ingStatus .. | .ingLedger .. | .ingGroupMask .. | .syncWindowEnd | .silentTimeout .. | .knotDue | .knotWaitExpiry
  | .initEnd | .wheelAbsentTimeout | .imuAbsentTimeout | .imuOnlyMaxExpiry | .extrapMaxExpiry | .imuPrimaryReturn |
  .zuptDetect | .slcChConfig .. | .slcChStatus .. | .slcLimits .. | .slcSetToff .. | .egoConfig .. | .egoGet .. |
  .egoReset .. | .alignEnd | .voxelStart | .pointInsert .. | .voxelEnd | .vheClearDone | .frameLineTimeout .. |
  .meshBuildDone .. | .cameraStart | .frameReport .. | .cameraEnd | .fuseStart | .fuseEnd .. | .calSolve | .calReply
  | .calNoreply | .itemStart .. | .itemComplete .. | .itemBudgetExpiry .. | .tagGrant .. | .memoryAccessComplete ..
  | .eccRewrite .. | .tagReturningTimeout | .modelLoad .. | .modelUnload .. | .wlLoad .. | .wlActivate .. |
  .wlDiscard .. | .wlInfo .. | .trackStart | .attend | .kvAppend | .kvOpen | .kvReset | .kvClose | .trackCommit |
  .trackEnd | .migrate .. | .migrationCopyDone | .migrationSourceRelease | .migrationTimeout | .poolConfigWrite .. |
  .pageLedgerRebuild | .solveStart | .solveDeadline .. | .solveReturn | .coldReq .. | .slvModelLoad .. |
  .slvModelActivate .. | .slvModelDiscard .. | .slvConfig .. | .slvStatus .. | .slvTestSolve .. | .publication |
  .verdictArrival | .verdictTimeout | .mirrorCopyStart | .mirrorCopyDone .. | .mirIdxHeadWrite .. | .ringEnable .. |
  .ringDisable .. | .sqTailWrite .. | .cqHeadWrite .. | .commandFetch .. | .replyPost .. | .replySent .. |
  .postingTimeout .. | .commandTimeout .. | .mctpMessage .. | .setEndpointId .. | .getEndpointId .. |
  .getMctpVersionSupport .. | .getMessageTypeSupport .. | .getVendorDefinedMsgSupport .. | .tollisMgmtPacket .. |
  .devInfo .. | .devState .. | .devErrors .. | .echo .. | .regRead .. | .regWrite .. | .resultConfig .. |
  .resultStatus .. | .start .. | .stop .. | .sliceMode .. | .safeStatus .. | .safeConfig .. | .goldLoad .. |
  .safeClear .. | .safePinTest .. | .safeInject .. | .spireResetRequest | .drainEnd | .drainTimeout | .captureDone |
  .resetRelease .. | .rebuildDone .. | .replaySuspectDone .. | .replayLimitExpiry | .auditRequest .. | .rcvReset ..
  | .rcvStatus .. | .rcvCapture .. | .rcvUnrefuse .. | .rcvAudit .. | .tolJob .. | .tolAbort .. | .flitRx .. |
  .linkLockLoss .. | .linkRetrainDone .. | .creditReturn .. | .creditReturningTimeout .. | .rxwinWrite .. |
  .abortTokenRx .. | .monitorTask .. | .vcoreTask | .avsTargetAck | .buttressStep .. | .domeBankCopyDone | .logTask
  | .taskBudgetOverrun .. | .getVersion | .getCapabilities | .negotiateAlgorithms .. | .getDigests |
  .getCertificate .. | .challenge .. | .getMeasurements .. | .cupSensors .. | .logRead .. | .fwStatus .. |
  .fwData .. | .fwStage .. | .fwVerify .. | .fwCommit .. | .fwActivate .. | .fwConfirm .. | .spareStatus .. |
  .spareTest .. | .vcoreConfig .. | .certSet .. | .dbgChallenge .. | .dbgUnlock .. | .dbgLock .. | .lntSelect .. |
  .dbgStatus .. | .dbgCatalog .. | .frameStart .. | .linkUp .. | .pauseExpiry .. | .slewAbsorbed |
  .ptpMessageIntervalExpiry .. | .bankPassageComplete .. | .tagReleaseCrossing | .cqHeadReleaseCrossing .. => true

end Sys2Proof
end

