-- ==== Sys2Proof/Certificates/Slice0/Obligations.lean ====
section
/-! DEFINITION. The statements for the provers. -/
open Sys2Proof Sys2Proof.Machine

/-- A step executes the command at the front of the queue with the rest of the queue. (95_what_each_step_holds.md) -/
def Obligations.StepRunsTheFrontCommand : Prop :=
  ∀ (c : Instr) (r : List Instr) (s : State), s.pending = c :: r → step s = exec c { s with pending := r }

/-- With no command waiting one Belfry cycle passes, and none while the main die is stopped. (R39, R437) -/
def Obligations.AnEmptyQueueLetsOneBelfryCyclePass : Prop :=
  ∀ s : State, s.pending = [] →
    (mainRuns s = true → step s = .next (elapse 1 s)) ∧ (mainRuns s = false → step s = .next s)

/-- Every command answers a next state in every state: no fault and no refusal. (95_what_each_step_holds.md) -/
def Obligations.EveryCommandAnswersANextState : Prop :=
  ∀ (c : Instr) (s : State), ∃ t, exec c s = .next t

/-- Reset leaves the values the register tables give. (R296, R304, R318, R72, R100, 12_reset_and_recovery.md) -/
def Obligations.ResetLeavesTheStatedValues : Prop :=
  runState State.reset = 0 ∧ rd64 State.reset CMD_RES_BASE_LO = 0x100000000
    ∧ fget State.reset CMD_RES_SLOTS CMD_RES_SLOTS_SLOTS = 32 ∧ fget State.reset CMD_RES_SLOTS CMD_RES_SLOTS_SLOT_MIB = 16
    ∧ fget State.reset CMD_RES_CTRL CMD_RES_CTRL_VALID = 1
    ∧ rd State.reset CMD_LAST_SEQ_LO = 0xFFFFFFFF ∧ rd State.reset CMD_LAST_SEQ_HI = 0xFFFFFFFF
    ∧ rd State.reset DEV_ID = 0x00A08740 ∧ rd64 State.reset BLF_RATE_LO = 0
    ∧ fget State.reset BLF_CTRL BLF_CTRL_SLEW_PPM = 100 ∧ State.reset.time = 0 ∧ State.reset.slices = []
    ∧ State.reset.rcv = [] ∧ State.reset.cmds = [] ∧ (∀ n : Fin 32, fbit State.reset (MSIX_CTRL n) MSIX_CTRL_MASK = true)
    ∧ State.reset.pending = []

/-- After reset every store is canonical and every unit of the module is there. (00_scope.md, 03_sensor_ingress.md,
10_commands_and_results.md) -/
def Obligations.TheInvariantHoldsAfterReset : Prop :=
  Inv State.reset

/-- Every step keeps the stores canonical and the units of the module. (R4, R49, R56, R75, R281, R389, 00_scope.md) -/
def Obligations.EveryStepKeepsTheInvariant : Prop :=
  ∀ s t : State, Inv s → step s = .next t → Inv t

/-- No command changes the queue of waiting commands or uses a free value twice. (95_what_each_step_holds.md,
00_scope.md) -/
def Obligations.EveryCommandKeepsTheQueueAndDrawsFreshValues : Prop :=
  ∀ (c : Instr) (s t : State), exec c s = .next t → t.pending = s.pending ∧ s.freeCount ≤ t.freeCount

/-- While the main die is frozen no command of the main die changes anything. (R437, R442, 14_lantern_and_freeze.md)
-/
def Obligations.NothingHappensOnAFrozenMainDie : Prop :=
  ∀ (c : Instr) (s : State), s.pwr.frozen = true → onMainDie c = true → exec c s = .next s

/-- A phase adjustment steps T96 while not RUNNING and joins the pending slew while RUNNING. (R42) -/
def Obligations.PhaseAdjustmentStepsOrSlews : Prop :=
  ∀ (ag : Agent) (lo hi : Word) (s : State), agentUp ag s = true → RegsCanonical s → ptpMode s ≠ ptpInternal →
    assocGet s.heldLow BLF_ADJ_LO = some lo →
    (running s = false → Gives (.phaseAdjust ag hi) s (fun t =>
      (t.time : Int) = ((s.time : Int) + signed 64 (lo.toNat + 2 ^ 32 * hi.toNat) * 2 ^ 32) % timeModulus ∧ t.slew = s.slew
      ∧ t = { s with regs := t.regs, time := t.time, stepped := t.stepped, trig := t.trig, cap := t.cap, cmpLate := t.cmpLate
                     holdSeen := t.holdSeen, heldLow := t.heldLow, ptp := t.ptp }))
    ∧ (running s = true → Gives (.phaseAdjust ag hi) s (fun t =>
      t.time = s.time ∧ t.slew = s.slew + signed 64 (lo.toNat + 2 ^ 32 * hi.toNat) * 2 ^ 32
      ∧ t = { s with regs := t.regs, slew := t.slew, holdSeen := t.holdSeen, heldLow := t.heldLow, ptp := t.ptp }))

/-- BLF_RATE is stored clamped to 500 ppm with RATE_CLAMP, and PTP_MODE INTERNAL discards the write. (R40, R44, R468)
-/
def Obligations.RateWritesAreClampedAndRefusedInInternalMode : Prop :=
  ∀ (ag : Agent) (lo hi : Word) (s : State), agentUp ag s = true → RegsCanonical s →
    (assocGet s.heldLow BLF_RATE_LO = some lo → ptpMode s ≠ ptpInternal →
      Gives (.blfRateWrite ag hi) s (fun t =>
        signed 64 (rd64 t BLF_RATE_LO) = clampInt (-140737488355) 140737488355 (signed 64 (lo.toNat + 2 ^ 32 * hi.toNat))
        ∧ ((signed 64 (lo.toNat + 2 ^ 32 * hi.toNat)).natAbs > 140737488355 → fbit t BLF_STATUS BLF_STATUS_RATE_CLAMP = true)
        ∧ RegsKept [BLF_RATE_LO, BLF_RATE_LO + 4, BLF_STATUS] s t
        ∧ t = { s with regs := t.regs, heldLow := t.heldLow, holdSeen := t.holdSeen, ptp := t.ptp }))
    ∧ (assocGet s.heldLow BLF_RATE_LO = some lo → ptpMode s = ptpInternal →
      Gives (.blfRateWrite ag hi) s (fun t =>
        (lo.toNat + 2 ^ 32 * hi.toNat ≠ rd64 s BLF_RATE_LO → fbit t BLF_STATUS BLF_STATUS_CFG_REJECT = true)
        ∧ (lo.toNat + 2 ^ 32 * hi.toNat = rd64 s BLF_RATE_LO → t.regs = s.regs)
        ∧ RegsKept [BLF_STATUS] s t ∧ t = { s with regs := t.regs, heldLow := t.heldLow }))
    ∧ (assocGet s.heldLow BLF_ADJ_LO = some lo → ptpMode s = ptpInternal →
      Gives (.phaseAdjust ag hi) s (fun t => fbit t BLF_STATUS BLF_STATUS_CFG_REJECT = true ∧ RegsKept [BLF_STATUS] s t
        ∧ t = { s with regs := t.regs, heldLow := t.heldLow }))

/-- A compare that fires sets FIRED and disarms or reloads; a write of ARM stores CTRL, and CMP0 to CMP7 reject it.
(R47, R46) -/
def Obligations.ComparesFireReloadAndArm : Prop :=
  ∀ (n : Fin 16) (ag : Agent) (w : Word) (s : State), RegsCanonical s →
    (mainRuns s = true → fbit s (BLF_CMP_CTRL n) BLF_CMP_CTRL_ARM = true → Gives (.cmpFire n) s (fun t =>
      fbit t (BLF_CMP_STATUS n) BLF_CMP_STATUS_FIRED = true
      ∧ (fget s (BLF_CMP_RELOAD n) fWord = 0 → fbit t (BLF_CMP_CTRL n) BLF_CMP_CTRL_ARM = false
          ∧ fget t (BLF_CMP_VAL n) fWord = fget s (BLF_CMP_VAL n) fWord)
      ∧ (fget s (BLF_CMP_RELOAD n) fWord ≠ 0 → fbit t (BLF_CMP_CTRL n) BLF_CMP_CTRL_ARM = true
          ∧ fget t (BLF_CMP_VAL n) fWord = (fget s (BLF_CMP_VAL n) fWord + fget s (BLF_CMP_RELOAD n) fWord) % 2 ^ 32)
      ∧ (8 ≤ n.val → fbit s (BLF_CMP_CTRL n) BLF_CMP_CTRL_IRQ_EN = true → fbit s (MSIX_CTRL n) MSIX_CTRL_MASK = false →
          t.out = .msix n :: s.out)
      ∧ t = { s with regs := t.regs, time := t.time, slew := t.slew, holdSeen := t.holdSeen, cmpLate := t.cmpLate, out := t.out }))
    ∧ (agentUp ag s = true → 8 ≤ n.val → Gives (.cmpArm ag n w) s (fun t =>
      (rd t (BLF_CMP_CTRL n)).toNat = w.toNat % 4
      ∧ (cmpReached n s = false → cmpLateAt n s = none → RegsKept [BLF_CMP_CTRL n] s t
          ∧ t = { s with regs := t.regs, cmpLate := t.cmpLate })
      ∧ t = { s with regs := t.regs, time := t.time, slew := t.slew, holdSeen := t.holdSeen, cmpLate := t.cmpLate, out := t.out }))
    ∧ (agentUp ag s = true → n.val < 8 → Gives (.cmpArm ag n w) s (fun t =>
      fbit t BLF_STATUS BLF_STATUS_CFG_REJECT = true ∧ RegsKept [BLF_STATUS] s t ∧ t = { s with regs := t.regs }))

/-- A running trigger generator refuses a change of mode and of DIV; an enabling write that breaks a limit is refused.
(R52, R53) -/
def Obligations.TriggerGeneratorsKeepTheirScheduleWhileOn : Prop :=
  ∀ (ag : Agent) (n : Fin 16) (w : Word) (s : State), agentUp ag s = true → RegsCanonical s →
    (fget s (BLF_TRIG_MODE n) BLF_TRIG_MODE_MODE ≠ 0 → getBits BLF_TRIG_MODE_MODE w ≠ 0 →
      getBits BLF_TRIG_MODE_MODE w ≠ fget s (BLF_TRIG_MODE n) BLF_TRIG_MODE_MODE →
      Gives (.trigModeWrite ag n w) s (fun t => fbit t BLF_STATUS BLF_STATUS_CFG_REJECT = true ∧ RegsKept [BLF_STATUS] s t
        ∧ t = { s with regs := t.regs }))
    ∧ (fget s (BLF_TRIG_MODE n) BLF_TRIG_MODE_MODE ≠ 0 → getBits BLF_TRIG_MODE_MODE w = 0 →
      Gives (.trigModeWrite ag n w) s (fun t => fget t (BLF_TRIG_MODE n) BLF_TRIG_MODE_MODE = 0
        ∧ fget t (BLF_TRIG_MODE n) BLF_TRIG_MODE_POL = getBits BLF_TRIG_MODE_POL w
        ∧ fget t (BLF_TRIG_MODE n) BLF_TRIG_MODE_DIV = fget s (BLF_TRIG_MODE n) BLF_TRIG_MODE_DIV
        ∧ RegsKept [BLF_TRIG_MODE n, BLF_STATUS] s t ∧ t = { s with regs := t.regs, trig := t.trig }))
    ∧ (fget s (BLF_TRIG_MODE n) BLF_TRIG_MODE_MODE = 0 → getBits BLF_TRIG_MODE_MODE w ≠ 0 →
      fget s (BLF_TRIG_WIDTH n) BLF_TRIG_WIDTH_WIDTH < 8 →
      Gives (.trigModeWrite ag n w) s (fun t => fbit t BLF_STATUS BLF_STATUS_CFG_REJECT = true ∧ RegsKept [BLF_STATUS] s t
        ∧ t = { s with regs := t.regs }))

/-- An edge and a pulse end of a trigger, a capture, a pop, a T96 capture and an absorbed slew have their effect.
(R39, R49, R50, R56, R72) -/
def Obligations.TriggerEdgesPulsesCapturesAndSlewRun : Prop :=
  ∀ (n : Fin 16) (p : Fin 32) (ag : Agent) (w : Word) (s : State), RegsCanonical s → s.trig.length = 16 → s.cap.length = 32 →
    (∀ e : Int, mainRuns s = true → (trigGet n s).next = some e → Gives (.trigEdge n) s (fun t =>
      t.out = .trigEdge n (to625 e.toNat) (fbit s (BLF_TRIG_MODE n) BLF_TRIG_MODE_POL) :: s.out ∧ (trigGet n t).active = true
      ∧ (fget s (BLF_TRIG_MODE n) BLF_TRIG_MODE_MODE = 1 → (trigGet n t).next = some (e + trigPeriod n s))
      ∧ (fget s (BLF_TRIG_MODE n) BLF_TRIG_MODE_MODE = 3 → (trigGet n t).next = none
          ∧ fget t (BLF_TRIG_MODE n) BLF_TRIG_MODE_MODE = 0) ∧ MemoryKept s t))
    ∧ (mainRuns s = true → (trigGet n s).active = true → Gives (.trigPulseEnd n) s (fun t =>
      t.out = .trigEnd n :: s.out ∧ (trigGet n t).active = false ∧ MemoryKept s t))
    ∧ (∀ (falling : Bool) (d width : Nat), mainRuns s = true →
      capJudge p falling (time16 s + d) width s = .stamped (time16 s + d) →
      fbit s (BLF_CAP_CFG p) BLF_CAP_CFG_BIND_EN = false → (capGet p s).fifo.length < 16 → ppsOn s = false →
      Gives (.capEdge p falling d width) s (fun t => (capGet p t).fifo = (capGet p s).fifo ++ [⟨time16 s + d, falling⟩]
        ∧ MemoryKept s t))
    ∧ (∀ e r, agentUp ag s = true → (capGet p s).fifo = e :: r → Gives (.capPop ag p) s (fun t =>
      (capGet p t).fifo = r ∧ t.readData = some (BitVec.ofNat 32 (nth (t96Words e.t) 0 0 + b2n e.falling * 2 ^ 16 + 2 ^ 31))
      ∧ MemoryKept s t))
    ∧ (agentUp ag s = true → Gives (.xtsCapture ag w) s (fun t =>
      [rd t BLF_XTS_FRAC, rd t BLF_XTS_NS, rd t BLF_XTS_SEC_LO, rd t BLF_XTS_SEC_HI] = (t96Words (time16 s)).map (BitVec.ofNat 32)
      ∧ t = { s with regs := t.regs }))
    ∧ (mainRuns s = true → s.slew ≠ 0 → slewStep s ≠ 0 → s.slew.natAbs ≤ fget s BLF_STEP_LIMIT fWord * unitsPerNs →
      Gives .slewAbsorbed s (fun t => t.slew = 0
        ∧ t = { s with regs := t.regs, time := t.time, slew := t.slew, holdSeen := t.holdSeen }))

/-- HOST-mode PTP frames and transmit stamps join their queues in order, and a pop takes the oldest. (R64, R65, R74,
R60, R37) -/
def Obligations.PtpFramesAndStampsWaitInTheirQueues : Prop :=
  ∀ (p : Fin 8) (ag : Agent) (s : State), RegsCanonical s →
    (∀ (pad bytes : Nat) (m : PtpMsg) (fr : List Word) (got : List Nat), mainRuns s = true → portEn p s = true →
      ptpMode s = ptpHost → (chGet (16 + p) s).packets = [] →
      Gives (.ptpFrameRx p.castSucc.castSucc pad bytes m fr got) s (fun t =>
        t.ptp.rxQueue = (if s.ptp.rxQueue.length < 64 then s.ptp.rxQueue ++ [⟨p, (rxStamp p pad s).toNat, bytes, fr⟩]
          else s.ptp.rxQueue)
        ∧ RegsKept [BLF_PORT_RX_EVENTS p] s t ∧ t = { s with regs := t.regs, ptp := t.ptp, ing := t.ing }))
    ∧ (∀ (f : TxFrame) (rest : List TxFrame), mainRuns s = true →
      takeOne (fun f => f.port == p.val) s.ptp.txFrames = some (f, rest) → f.stampReq = true → f.port = p.val →
      pausedPrio p (framePrio f) s = false →
      s.ptp.txFrames.find? (fun f => f.port == p.val) = some f →
      Gives (.txStamp p true) s (fun t =>
        t.ptp.txFrames = rest ∧ t.out = .hostPtpTx p f.id :: s.out
        ∧ (s.ptp.txStamps.length < 32 → t.ptp.txStamps = s.ptp.txStamps ++ [⟨f.id, p, false, txStampTime p s⟩])
        ∧ (32 ≤ s.ptp.txStamps.length → t.ptp.txStamps = s.ptp.txStamps ∧ fbit t BLF_TXQ_STATUS BLF_TXQ_STATUS_OVF = true)
        ∧ t = { s with regs := t.regs, ptp := t.ptp, out := t.out }))
    ∧ (∀ (k : TxStamp) (r : List TxStamp), agentUp ag s = true → s.ptp.txStamps = k :: r → Gives (.txqPop ag) s (fun t =>
        t.ptp.txStamps = r ∧ t.readData = some (BitVec.ofNat 32 (stampWord k))
        ∧ assocGet t.shadow BLF_TXQ_NS = some (BitVec.ofNat 32 (nth (t96Words k.t) 1 0))
        ∧ t = { s with regs := t.regs, ptp := t.ptp, shadow := t.shadow, readData := t.readData, readHigh := t.readHigh }))

/-- A lost master, a silent host and missing PPS edges begin holdover. (R66, R67, R69, R70) -/
def Obligations.HoldoverBeginsWhenTheMasterIsLost : Prop :=
  ∀ (p : Fin 10) (s : State), RegsCanonical s → mainRuns s = true →
    (ptpMode s = ptpInternal → portEn p s = true → Gives (.announceReceiptTimeout p) s (fun t =>
      (portRec p t).best = none ∧ rd64 t BLF_RATE_LO = rd64 s BLF_RATE_LO
      ∧ (portState p s = portSlave → (slavePort s).isSome = true → freeMaster s = false →
          fbit s BLF_STATUS BLF_STATUS_HOLDOVER = false →
          fbit t BLF_STATUS BLF_STATUS_HOLDOVER = true ∧ fbit t BLF_STATUS BLF_STATUS_LOCKED = false)
      ∧ t = { s with regs := t.regs, ptp := t.ptp, holdSeen := t.holdSeen, lpddr := t.lpddr }))
    ∧ (ptpMode s = ptpInternal → (slavePort s).isSome = true → freeMaster s = false → fbit s BLF_STATUS BLF_STATUS_HOLDOVER = false →
      Gives .syncReceiptTimeout s (fun t => fbit t BLF_STATUS BLF_STATUS_HOLDOVER = true
        ∧ fbit t BLF_STATUS BLF_STATUS_LOCKED = false ∧ rd64 t BLF_RATE_LO = rd64 s BLF_RATE_LO
        ∧ t = { s with regs := t.regs, ptp := t.ptp, holdSeen := t.holdSeen, lpddr := t.lpddr }))
    ∧ (ptpMode s = ptpHost → Gives .hostHoldoverTimeout s (fun t => fbit t BLF_STATUS BLF_STATUS_HOLDOVER = !freeMaster s
        ∧ RegsKept [BLF_STATUS] s t
        ∧ t = { s with regs := t.regs, ptp := t.ptp, holdSeen := t.holdSeen, time := t.time, slew := t.slew }))
    ∧ (ppsOn s = true → Gives .ppsEdgeMissing s (fun t => fbit t BLF_STATUS BLF_STATUS_HOLDOVER = true
        ∧ fbit t BLF_STATUS BLF_STATUS_PPS_LOST = true ∧ fbit t BLF_STATUS BLF_STATUS_LOCKED = false ∧ RegsKept [BLF_STATUS] s t
        ∧ t = { s with regs := t.regs, ptp := t.ptp, holdSeen := t.holdSeen }))

/-- A master sends Sync at its interval, and a paused priority waits until its pause ends. (R63, R96) -/
def Obligations.MessageIntervalsAndPausesActPerPriority : Prop :=
  ∀ (p : Fin 8) (s : State), RegsCanonical s → s.ing.length = 32 → mainRuns s = true →
    (ptpMode s = ptpInternal → portEn p s = true → fget s (BLF_PORT_STATE p) BLF_PORT_STATE_STATE = portMaster →
      fbit s (BLF_PORT_CFG p) BLF_PORT_CFG_SYNC_2STEP = false →
      (pausedPrio p 0 s = false → Gives (.ptpMessageIntervalExpiry p.castSucc.castSucc .sync) s (fun t =>
        t.out = .ptpTx p .sync (txStampTime p s) (wholeNs (txStampTime p s)) (fracNs (txStampTime p s)) (portCarrier p s) :: s.out
        ∧ RegsKept [BLF_PORT_TX_EVENTS p] s t ∧ t = { s with regs := t.regs, out := t.out, ptp := t.ptp }))
      ∧ (pausedPrio p 0 s = true → Gives (.ptpMessageIntervalExpiry p.castSucc.castSucc .sync) s (fun t =>
        (chGet (16 + p) t).heldPtp = (chGet (16 + p) s).heldPtp ++ [⟨.sync, 0, 0⟩] ∧ t = { s with ing := t.ing })))
    ∧ (∀ (cs : List (Fin 8)) (q time : Nat) (got : List Nat), (chGet (16 + p) s).packets = [] →
        (time = 0 → (chGet (16 + p) s).heldPtp = []) → Gives (.pauseFrameRx p cs time got) s (fun t =>
        (pausedPrio p q t = true ↔ if q ∈ cs.map Fin.val then time ≠ 0 else pausedPrio p q s = true) ∧ t = { s with ing := t.ing }))
    ∧ (∀ q : Nat, (chGet (16 + p) s).heldPtp = [] → Gives (.pauseExpiry p [0]) s (fun t =>
        (pausedPrio p q t = true ↔ q ≠ 0 ∧ pausedPrio p q s = true) ∧ t = { s with ing := t.ing }))
    ∧ (fbit s (BLF_PORT_CFG p) BLF_PORT_CFG_SYNC_2STEP = false → (chGet (16 + p) s).heldPtp = [⟨.sync, 0, 0⟩] →
      Gives (.pauseExpiry p [0]) s (fun t => (chGet (16 + p) t).heldPtp = [] ∧ pausedPrio p 0 t = false
        ∧ t.out = .ptpTx p .sync (txStampTime p s) (wholeNs (txStampTime p s)) (fracNs (txStampTime p s)) (portCarrier p s) :: s.out
        ∧ t = { s with regs := t.regs, out := t.out, ptp := t.ptp, ing := t.ing }))

/-- TIME_GET, PTP_STATUS, PTP_RX_FRAME and TXQ_READ answer OK with the time base's words. (R73, R74, R64) -/
def Obligations.TimeOpcodesReportTheTimeBase : Prop :=
  ∀ (h : CmdHead) (s : State),
    (Ready h 0x0301 s → OnlyReads (.timeGet h []) h 0x0301 []
      (t96Words (time16 s) ++ [(rd s BLF_STATUS).toNat] ++ [rd64 s BLF_RATE_LO % 2 ^ 32, rd64 s BLF_RATE_LO / 2 ^ 32 % 2 ^ 32]
        ++ [match slavePort s with | some p => fget s (BLF_PORT_OFFSET p) fWord | none => 0]
        ++ [s.ptp.grandmaster % 2 ^ 32, s.ptp.grandmaster / 2 ^ 32 % 2 ^ 32]) s)
    ∧ (∀ p : Word, Ready h 0x0307 s → p.toNat ≤ 9 →
      OnlyReads (.ptpStatus h [p]) h 0x0307 [p]
        ([fget s (BLF_PORT_STATE p.toNat) BLF_PORT_STATE_STATE, fget s (BLF_PORT_PATH_DELAY p.toNat) fWord,
          fget s (BLF_PORT_OFFSET p.toNat) fWord, fget s (BLF_PORT_RX_EVENTS p.toNat) fWord,
          fget s (BLF_PORT_TX_EVENTS p.toNat) fWord, (portRec p.toNat s).parent % 2 ^ 32,
          (portRec p.toNat s).parent / 2 ^ 32 % 2 ^ 32, (portRec p.toNat s).parent / 2 ^ 64 % 2 ^ 32]) s)
    ∧ (∀ (f : RxFrame) (r : List RxFrame), Ready h 0x0311 s → ptpMode s = ptpHost → s.ptp.rxQueue = f :: r →
      Gives (.ptpRxFrame h []) s (fun t =>
        Answered h 0x0311 [] stOk ([f.port] ++ t96Words f.t ++ [f.bytes] ++ f.words.map BitVec.toNat) s t
        ∧ t.ptp.rxQueue = r ∧ t = { s with ptp := t.ptp, cmds := t.cmds }))
    ∧ (∀ (k : TxStamp) (r : List TxStamp), Ready h 0x030B s → s.ptp.txStamps = k :: r →
      Gives (.txqRead h [1]) s (fun t => Answered h 0x030B [1] stOk ([1, stampWord k] ++ t96Words k.t) s t
        ∧ t.ptp.txStamps = r ∧ RegsKept [BLF_TXQ_STATUS] s t ∧ t = { s with regs := t.regs, ptp := t.ptp, cmds := t.cmds }))

/-- TIME_SET steps T96 only while not RUNNING; TIME_ADJUST and TIME_SET_RATE are BUSY in INTERNAL mode. (R42, R44) -/
def Obligations.TimeSetAndAdjustFollowTheRunState : Prop :=
  ∀ (h : CmdHead) (a b c d : Word) (s : State), RegsCanonical s →
    (Ready h 0x0302 s → a.toNat < 2 ^ 16 → b.toNat < 10 ^ 9 → d.toNat < 2 ^ 16 → running s = false →
      Gives (.timeSet h [a, b, c, d]) s (fun t => Answered h 0x0302 [a, b, c, d] stOk [] s t
        ∧ t96Words (time16 t) = [a.toNat, b.toNat, c.toNat, d.toNat]
        ∧ t = { s with regs := t.regs, time := t.time, stepped := t.stepped, trig := t.trig, cap := t.cap, cmpLate := t.cmpLate
                       cmds := t.cmds }))
    ∧ (Ready h 0x0302 s → a.toNat < 2 ^ 16 → b.toNat < 10 ^ 9 → d.toNat < 2 ^ 16 → running s = true →
      Gives (.timeSet h [a, b, c, d]) s (fun t => Answered h 0x0302 [a, b, c, d] stBusy [] s t ∧ t = { s with cmds := t.cmds }))
    ∧ (Ready h 0x0302 s → 10 ^ 9 ≤ b.toNat →
      Gives (.timeSet h [a, b, c, d]) s (fun t => Answered h 0x0302 [a, b, c, d] stParam [] s t ∧ t = { s with cmds := t.cmds }))
    ∧ (Ready h 0x0303 s → ptpMode s ≠ ptpInternal → Gives (.timeAdjust h [a, b]) s (fun t =>
        Answered h 0x0303 [a, b] stOk [] s t
        ∧ (running s = false → (t.time : Int) = ((s.time : Int) + signed 64 (a.toNat + 2 ^ 32 * b.toNat) * 2 ^ 32) % timeModulus
            ∧ t.slew = s.slew)
        ∧ (running s = true → t.time = s.time ∧ t.slew = s.slew + signed 64 (a.toNat + 2 ^ 32 * b.toNat) * 2 ^ 32)
        ∧ MemoryKept s t))
    ∧ (Ready h 0x0303 s → ptpMode s = ptpInternal → Gives (.timeAdjust h [a, b]) s (fun t =>
        Answered h 0x0303 [a, b] stBusy [] s t ∧ t = { s with cmds := t.cmds }))
    ∧ (Ready h 0x0304 s → ptpMode s ≠ ptpInternal → Gives (.timeSetRate h [a, b]) s (fun t =>
        signed 64 (rd64 t BLF_RATE_LO) = clampInt (-140737488355) 140737488355 (signed 64 (a.toNat + 2 ^ 32 * b.toNat))
        ∧ Answered h 0x0304 [a, b] stOk [rd64 t BLF_RATE_LO % 2 ^ 32, rd64 t BLF_RATE_LO / 2 ^ 32 % 2 ^ 32] s t
        ∧ t = { s with regs := t.regs, cmds := t.cmds }))
    ∧ (Ready h 0x0304 s → ptpMode s = ptpInternal → Gives (.timeSetRate h [a, b]) s (fun t =>
        Answered h 0x0304 [a, b] stBusy [] s t ∧ t = { s with cmds := t.cmds }))

/-- The compare, capture, port, clock, trigger and frame opcodes store what their parameters say. (R73, R471, R53) -/
def Obligations.TimeConfigurationOpcodesStoreTheirImages : Prop :=
  ∀ (h : CmdHead) (n a b c d e f g : Word) (s : State), RegsCanonical s →
    (Ready h 0x030A s → 8 ≤ n.toNat → n.toNat ≤ 15 → c.toNat < 4 → Gives (.cmpConfig h [n, a, b, c]) s (fun t =>
        Answered h 0x030A [n, a, b, c] stOk [] s t ∧ rd t (BLF_CMP_VAL n.toNat) = a ∧ rd t (BLF_CMP_RELOAD n.toNat) = b
        ∧ rd t (BLF_CMP_CTRL n.toNat) = c
        ∧ (cmpReached n.toNat s = false → cmpLateAt n.toNat s = none →
            RegsKept [BLF_CMP_VAL n.toNat, BLF_CMP_RELOAD n.toNat, BLF_CMP_CTRL n.toNat] s t
            ∧ t = { s with regs := t.regs, cmpLate := t.cmpLate, cmds := t.cmds })
        ∧ t = { s with regs := t.regs, time := t.time, slew := t.slew, holdSeen := t.holdSeen, cmpLate := t.cmpLate, out := t.out
                       cmds := t.cmds }))
    ∧ (Ready h 0x030A s → n.toNat < 8 ∨ 15 < n.toNat → Gives (.cmpConfig h [n, a, b, c]) s (fun t =>
        Answered h 0x030A [n, a, b, c] stParam [] s t ∧ t = { s with cmds := t.cmds }))
    ∧ (Ready h 0x0309 s → n.toNat ≤ 31 → a.toNat < 2 ^ 11 → Gives (.capConfig h [n, a]) s (fun t =>
        Answered h 0x0309 [n, a] stOk [] s t ∧ rd t (BLF_CAP_CFG n.toNat) = a
        ∧ RegsKept [BLF_CAP_CFG n.toNat] s t ∧ t = { s with regs := t.regs, cmds := t.cmds }))
    ∧ (Ready h 0x0306 s → n.toNat ≤ 9 → a.toNat < 2 ^ 7 → getBits BLF_PORT_CFG_TRANSPORT a ≠ 3 →
        Gives (.ptpPortConfig h [n, a, b, c, d]) s (fun t => Answered h 0x0306 [n, a, b, c, d] stOk [] s t
        ∧ rd t (BLF_PORT_CFG n.toNat) = a ∧ rd t (BLF_PORT_INGRESS_LAT n.toNat) = b ∧ rd t (BLF_PORT_EGRESS_LAT n.toNat) = c
        ∧ rd t (BLF_PORT_ASYM n.toNat) = d ∧ t = { s with regs := t.regs, cmds := t.cmds }))
    ∧ (Ready h 0x0305 s → a.toNat < 2 ^ 26 → getBits BLF_CTRL_PTP_MODE a ≠ 3 → getBits BLF_CTRL_ROLE a ≠ 3 →
        1 ≤ getBits BLF_CTRL_SLEW_PPM a → getBits BLF_CTRL_SLEW_PPM a ≤ 100 → c.toNat < 2 ^ 24 → getBits BLF_LOCK_COUNT c ≠ 0 →
        intervalsOk d.toNat = true → ctrlFrozen a s = false → Gives (.ptpConfig h [a, b, c, d, e]) s (fun t =>
        Answered h 0x0305 [a, b, c, d, e] stOk [] s t ∧ rd t BLF_CTRL = a ∧ rd t BLF_STEP_LIMIT = b
        ∧ fget t BLF_LOCK BLF_LOCK_THRESH = getBits BLF_LOCK_THRESH c ∧ fget t BLF_LOCK BLF_LOCK_COUNT = getBits BLF_LOCK_COUNT c
        ∧ t.ptp.logIntervals = d ∧ t.ptp.clockAttrs = e
        ∧ t = { s with regs := t.regs, ptp := t.ptp, holdSeen := t.holdSeen, cmds := t.cmds }))
    ∧ (Ready h 0x0308 s → n.toNat ≤ 15 → fget s (BLF_TRIG_MODE n.toNat) BLF_TRIG_MODE_MODE = 0 → getBits BLF_TRIG_MODE_MODE a = 0 →
        trigImageBad n.toNat [a.toNat, b.toNat, c.toNat, d.toNat, e.toNat, f.toNat, g.toNat] = false →
        Gives (.trigConfig h [n, a, b, c, d, e, f, g]) s (fun t => Answered h 0x0308 [n, a, b, c, d, e, f, g] stOk [] s t
        ∧ fget t (BLF_TRIG_MODE n.toNat) BLF_TRIG_MODE_MODE = 0
        ∧ fget t (BLF_TRIG_MODE n.toNat) BLF_TRIG_MODE_DIV = getBits BLF_TRIG_MODE_DIV a
        ∧ rd t (BLF_TRIG_START n.toNat) = b ∧ rd t (BLF_TRIG_PERIOD n.toNat) = d
        ∧ t = { s with regs := t.regs, trig := t.trig, cmds := t.cmds }))
    ∧ (∀ fr : List Word, Ready h 0x0310 s → n.toNat ≤ 7 → a.toNat ≤ 1 → b.toNat < 2 ^ 16 → fr.length = 15 →
        (s.ptp.txFrames.filter (fun f => f.port == n.toNat)).length < 8 →
        Gives (.ptpTxFrame h ([n, a, b, 60] ++ fr)) s (fun t => Answered h 0x0310 ([n, a, b, 60] ++ fr) stOk [] s t
        ∧ t.ptp.txFrames = s.ptp.txFrames ++ [⟨n.toNat, b.toNat, a.toNat == 1, fr⟩]
        ∧ t = { s with ptp := t.ptp, cmds := t.cmds }))

/-- A packet is placed in the filling bank or dropped whole, and its end records its payload and status. (R78, R82,
R83, R85) -/
def Obligations.IngressPacketsArePlacedAndDroppedWhole : Prop :=
  ∀ (n : Fin 32) (s : State), RegsCanonical s → s.ing.length = 32 → mainRuns s = true →
    (∀ (stamp id len af : Nat) (ide fdf xlf : Bool), 24 ≤ n.val → n.val < 28 → fbit s (ING_CTRL n) ING_CTRL_EN = true →
      unitHeld n s = false → inProgress (chGet n s) = false → (chGet n s).passage = none →
      fbit s (ING_CTRL n) ING_CTRL_FLUSH = false → canAccepts n id fdf xlf s = true → bankGet (chGet n s).fill (chGet n s) = .filling →
      consumerTakes n s = false → (∀ q ∈ (chGet n s).packets, q.taken = q.used) →
      (startOffset (chGet n s) + knownNeed len ≤ bankBytes → Gives (.packetStart n stamp (.can id ide fdf xlf len af) [] []) s (fun t =>
        ∃ p, (chGet n t).packets = (chGet n s).packets ++ [p] ∧ p.ended = false ∧ p.stamp = stamp ∧ p.bank = (chGet n s).fill
          ∧ p.offset = startOffset (chGet n s) ∧ MemoryKept s t))
      ∧ (place (knownNeed len) (chGet n s) = .full → Gives (.packetStart n stamp (.can id ide fdf xlf len af) [] []) s (fun t =>
        (chGet n t).packets = (chGet n s).packets ∧ fbit t (ING_STATUS n) ING_STATUS_OVR = true
          ∧ RegsKept [ING_STATUS n, ING_OVR_PKTS n] s t ∧ t = { s with regs := t.regs, ing := t.ing })))
    ∧ (∀ (p : Packet) (bytes : List Nat), (chGet n s).packets.getLast? = some p → p.ended = false → consumerTakes n s = false →
      (∀ q ∈ (chGet n s).packets, q.taken = q.used) → fbit s (ING_CTRL n) ING_CTRL_FLUSH = false → 24 ≤ n.val →
      (Gives (.packetEnd n bytes false) s (fun t => ∃ q, (chGet n t).packets.getLast? = some q ∧ q.ended = true ∧ q.aborted = false
        ∧ q.payload = (p.payload ++ bytes).take (bankBytes - p.offset - 32) ∧ fget t (ING_RX_PKTS n) fWord
            = clampNat (2 ^ 32 - 1) (fget s (ING_RX_PKTS n) fWord + 1) ∧ MemoryKept s t))
      ∧ (Gives (.packetTimeout n bytes) s (fun t => ∃ q, (chGet n t).packets.getLast? = some q ∧ q.ended = true ∧ q.aborted = true
        ∧ MemoryKept s t)))

/-- A finished packet leaves, a flush empties a channel at a boundary, and the bank ledger's timeout sets ERR. (R80,
R89, R90, R98, R99) -/
def Obligations.ConsumersFlushesAndBanksGiveSpaceBack : Prop :=
  ∀ (n : Fin 32) (s : State), RegsCanonical s → s.ing.length = 32 → mainRuns s = true →
    (∀ (p : Packet) (r : List Packet), (chGet n s).packets = p :: r → p.taken = true → p.ended = true → p.used = true →
      inProgress (chGet n s) = false → (r = [] ∨ (consumerTakes n s = false ∧ ∀ q ∈ r, q.taken = q.used)) →
      Gives (.consumerPacketDone n []) s (fun t => (chGet n t).packets = r ∧ MemoryKept s t))
    ∧ (fbit s (ING_CTRL n) ING_CTRL_FLUSH = true → (chGet n s).flushed = false → inProgress (chGet n s) = false →
      (chGet n s).passage = none → consumerOn (chGet n s) = none →
      Gives (.flushTakeEffect n) s (fun t => (chGet n t).packets = [] ∧ fbit t (ING_CTRL n) ING_CTRL_FLUSH = false
        ∧ MemoryKept s t))
    ∧ (fbit s (ING_CTRL n) ING_CTRL_EN = false → inProgress (chGet n s) = false →
      bankGet (chGet n s).fill (chGet n s) = .filling → bankHolds (chGet n s).fill (chGet n s) = false →
      Gives (.receiverStop n) s (fun t => bankGet (chGet n s).fill (chGet n t) = .free ∧ t = { s with ing := t.ing }))
    ∧ (∀ (b : Nat) (st : BankSt), (chGet n s).passage = some (b, st) → b < 2 → Gives (.bankPassageComplete n) s (fun t =>
        bankGet b (chGet n t) = st ∧ (chGet n t).passage = none ∧ t = { s with ing := t.ing }))
    ∧ ((chGet n s).passage.isSome = true → Gives (.bankInFlightTimeout n) s (fun t =>
        fbit t ING_LEDGER ING_LEDGER_ERR = true ∧ t.bridgeUp = s.bridgeUp ++ [.fault 18 n]
        ∧ t = { s with regs := t.regs, out := t.out, bridgeUp := t.bridgeUp }))

/-- Links, encoder edges, reports, IMU reads, frame starts and pause refreshes act on their channels. (R55, R77, R85,
R95, R100) -/
def Obligations.LinksEncodersAndReadsFeedTheirChannels : Prop :=
  ∀ (n : Fin 32) (c : Fin 2) (k : Fin 8) (v : Fin 16) (s : State), RegsCanonical s → s.ing.length = 32 → mainRuns s = true →
    (Gives (.linkUp n) s (fun t => fbit t (ING_STATUS n) ING_STATUS_LINK = true ∧ RegsKept [ING_STATUS n] s t
        ∧ t = { s with regs := t.regs }))
    ∧ (n.val < 28 → inProgress (chGet n s) = false → slavePort s = none → consumerTakes n s = false →
      (∀ q ∈ (chGet n s).packets, q.taken = q.used) → Gives (.linkLoss n []) s (fun t => fbit t (ING_STATUS n) ING_STATUS_LINK = false ∧ RegsKept [ING_STATUS n] s t
        ∧ t = { s with regs := t.regs, ing := t.ing }))
    ∧ (∀ (forward : Bool) (d width : Nat) (e : EncInput), bitOf k (fget s (ING_ENC_CFG c) ING_ENC_CFG_EN) = true → unitHeld (30 + c) s = false →
      capFilter (fget s (ING_ENC_CFG c) ING_ENC_CFG_FILTER) ≤ width →
      (chGet (30 + c) s).inputs[k.val]? = some e → (chGet (30 + c) s).inputs.length = 8 →
      Gives (.encoderEdge c k forward false false d width) s (fun t => ∃ f, (chGet (30 + c) t).inputs[k.val]? = some f
        ∧ f.count = e.count + (if forward then 1 else -1)
        ∧ fget t (ING_ENC_COUNT c k) fWord = unsigned 32 f.count ∧ MemoryKept s t))
    ∧ (fbit s (ING_CTRL (28 + c)) ING_CTRL_EN = true → unitHeld (28 + c) s = false →
      fbit s (ING_SPI_CFG c) ING_SPI_CFG_PERIODIC = true → (chGet (28 + c) s).packets = [] → consumerTakes (28 + c) s = false →
      Gives (.spiSampleRead c) s (fun t => (chGet (28 + c) t).spiCount = (chGet (28 + c) s).spiCount + 1
        ∧ t.out = .spiCommand c (spiCommand c s) :: s.out ∧ MemoryKept s t))
    ∧ (fbit s (ING_CTRL (30 + c)) ING_CTRL_EN = true → unitHeld (30 + c) s = false → inProgress (chGet (30 + c) s) = false →
      consumerTakes (30 + c) s = false → (∀ q ∈ (chGet (30 + c) s).packets, q.taken = q.used) →
      Gives (.encoderReport c) s (fun t => (∀ e ∈ (chGet (30 + c) t).inputs, e.changed = false ∧ e.illegal = false)
        ∧ MemoryKept s t))
    ∧ (pfcOn n s = true → fbit s (ING_STATUS n) ING_STATUS_XOFF = true → Gives (.pfcRefresh n) s (fun t =>
        t = { s with out := .pfc (n - 16) (fget s (ING_PFC n) ING_PFC_PFC_PRIO) (fget s (ING_PFC n) ING_PFC_QUANTA) :: s.out }))
    ∧ (∀ (vc : Fin 4) (number stamp : Nat), fbit s (ING_CTRL v) ING_CTRL_EN = true → unitHeld v s = false →
      (chGet v s).frameNo.length = 4 → (chGet v s).frameStamp.length = 4 → Gives (.frameStart v vc number stamp) s (fun t =>
      (chGet v t).frameNo[vc.val]? = some (number % 65536) ∧ (chGet v t).frameStamp[vc.val]? = some stamp ∧ MemoryKept s t))

/-- The ingress opcodes configure, enable, flush and report channels, and are FENCED with the INGRESS partition.
(R101, R369) -/
def Obligations.IngressOpcodesConfigureAndReportChannels : Prop :=
  ∀ (h : CmdHead) (n a b : Word) (s : State), RegsCanonical s → s.heldUnits = [] → s.ing.length = 32 →
    (partFenced partIngress s = false →
      (Ready h 0x0407 s → n.toNat ≤ 7 → Gives (.ingGroupMask h [n, a]) s (fun t => Answered h 0x0407 [n, a] stOk [] s t
        ∧ rd t (ING_GRP_MASK n.toNat) = a ∧ RegsKept [ING_GRP_MASK n.toNat] s t ∧ t = { s with regs := t.regs, cmds := t.cmds }))
      ∧ (Ready h 0x0406 s → OnlyReads (.ingLedger h []) h 0x0406 [] [ingLedgerWord s] s)
      ∧ (Ready h 0x0405 s → n.toNat ≤ 31 → Gives (.ingStatus h [n]) s (fun t =>
        Answered h 0x0405 [n] stOk ([ingStatusWord n.toNat s, occupancy (chGet n.toNat s), ingBanksWord n.toNat s]
          ++ (ingCounters n.toNat).map (fun x => (rd s x).toNat)) s t
        ∧ (∀ x ∈ ingCounters n.toNat, rd t x = 0) ∧ RegsKept (ingCounters n.toNat) s t
        ∧ t = { s with regs := t.regs, cmds := t.cmds }))
      ∧ (Ready h 0x0403 s → Nat.land a.toNat b.toNat = 0 → Gives (.ingEnable h [a, b]) s (fun t =>
        Answered h 0x0403 [a, b] stOk [enMask t] s t
        ∧ (∀ i < 32, fbit t (ING_CTRL i) ING_CTRL_EN = ((bitOf i a.toNat && !fbit s (RST_UNIT i) RST_UNIT_RETIRED)
            || (!bitOf i a.toNat && !bitOf i b.toNat && fbit s (ING_CTRL i) ING_CTRL_EN)))
        ∧ t = { s with regs := t.regs, ing := t.ing, cmds := t.cmds }))
      ∧ (∀ i : Fin 32, Ready h 0x0404 s → a = BitVec.ofNat 32 (2 ^ i.val) → Gives (.ingFlush h [a]) s (fun t =>
        t.cmds = s.cmds ++ [executed h 0x0404 [a] s none] ∧ fbit t (ING_CTRL i) ING_CTRL_FLUSH = true
        ∧ RegsKept [ING_CTRL i] s t ∧ t = { s with regs := t.regs, cmds := t.cmds }))
      ∧ (∀ c w m q f g : Word, Ready h 0x0401 s → n.toNat ≤ 31 → a.toNat < 16 → cutOk c.toNat = true → wmOk w.toNat = true →
        reservedSet (ING_WM n.toNat) w.toNat = false → maxframeOk m.toNat = true →
        reservedSet (ING_MAXFRAME n.toNat) m.toNat = false → q.toNat ≠ 0 → q.toNat < 2 ^ 16 →
        reservedSet (ING_PFC n.toNat) f.toNat = false → g.toNat ≠ 0 → g.toNat ≤ getBits ING_PFC_QUANTA f →
        fbit s (ING_CTRL n.toNat) ING_CTRL_EN = false → Gives (.ingConfig h [n, a, c, w, m, q, f, g]) s (fun t =>
        Answered h 0x0401 [n, a, c, w, m, q, f, g] stOk [] s t ∧ fget t (ING_CUT n.toNat) ING_CUT_CUT = getBits ING_CUT_CUT c
        ∧ MemoryKept s t))
      ∧ (Ready h 0x0402 s → n.toNat ≤ 31 → fbit s (ING_CTRL n.toNat) ING_CTRL_EN = false →
        sourceLive n.toNat 0 = false → sourceRefused n.toNat 0 a.toNat = false → Gives (.ingSourceConfig h [n, 1, a]) s (fun t =>
        Answered h 0x0402 [n, 1, a] stOk [] s t ∧ rwChanges (sourceAddr n.toNat 0) a t = false
        ∧ RegsKept [sourceAddr n.toNat 0] s t ∧ t = { s with regs := t.regs, cmds := t.cmds })))
    ∧ (partFenced partIngress s = true → Ready h 0x0406 s →
      Gives (.ingLedger h []) s (fun t => Answered h 0x0406 [] stFenced [] s t ∧ t = { s with cmds := t.cmds }))

/-- The ego-motion mode follows INIT, the wheels, the IMU and the two limits, and ZUPT stops the vehicle. (R117, R118)
-/
def Obligations.EgoMotionModesFollowTheirSources : Prop :=
  ∀ s : State, mainRuns s = true → unitHeld flatEgo s = false →
    (s.ego.mode = egoInit → s.ego.forceCount ≠ 0 → Gives .initEnd s (fun t => t.ego.mode = egoFull ∧ t.ego.pose.p = vzero
      ∧ t.ego.nextKnot % 125000 = 0 ∧ lin s ≤ t.ego.nextKnot ∧ t.ego.nextKnot < lin s + 125000 ∧ t = { s with ego := t.ego }))
    ∧ ((s.ego.mode = egoFull ∨ s.ego.mode = egoWheelOnly) → Gives .wheelAbsentTimeout s (fun t =>
      t.ego.mode = (if s.ego.mode = egoFull then egoImuOnly else egoLost) ∧ t.ego.pose = s.ego.pose ∧ t = { s with ego := t.ego }))
    ∧ ((s.ego.mode = egoFull ∨ s.ego.mode = egoImuOnly) → fbit s SLC_EGO_CFG SLC_EGO_CFG_IMU_BACKUP = true → s.ego.onBackup = false →
      Gives .imuAbsentTimeout s (fun t => t.ego.mode = s.ego.mode ∧ t.ego.onBackup = true ∧ imuInUse t ≠ imuInUse s
        ∧ t = noteEgo { s with ego := t.ego }))
    ∧ ((s.ego.mode = egoFull ∨ s.ego.mode = egoImuOnly) → fbit s SLC_EGO_CFG SLC_EGO_CFG_IMU_BACKUP = false →
      Gives .imuAbsentTimeout s (fun t => t.ego.mode
        = (if s.ego.mode = egoFull ∧ fget s SLC_EGO_TRACK SLC_EGO_TRACK_TRACK ≠ 0 then egoWheelOnly else egoLost)
        ∧ t = { s with ego := t.ego }))
    ∧ (s.ego.mode = egoImuOnly → Gives .imuOnlyMaxExpiry s (fun t => t.ego.mode = egoLost ∧ t = { s with ego := t.ego }))
    ∧ (s.ego.mode = egoLost → Gives .extrapMaxExpiry s (fun t => t.ego.pose.v = vzero ∧ t.ego.pose.w = vzero
      ∧ t.ego.pose.p = s.ego.pose.p ∧ t.ego.pose.q = s.ego.pose.q ∧ t.ego.mode = egoLost ∧ t = { s with ego := t.ego }))
    ∧ (s.ego.onBackup = true → Gives .imuPrimaryReturn s (fun t => imuInUse t = fget s SLC_EGO_CFG SLC_EGO_CFG_IMU_PRI
      ∧ t = { s with ego := t.ego }))
    ∧ (s.ego.mode = egoFull → fbit s SLC_EGO_CFG SLC_EGO_CFG_ZUPT_EN = true → Gives .zuptDetect s (fun t =>
      t.ego.pose.v = vzero ∧ t.ego.pose.q = s.ego.pose.q ∧ t.ego.biasValid = true
      ∧ (s.ego.gyroCount = 0 → t.ego.gyroBias = s.ego.gyroBias)
      ∧ (s.ego.gyroCount ≠ 0 → t.ego.gyroBias = vscale (1 / (s.ego.gyroCount : Rat)) s.ego.gyroSum)
      ∧ t = noteEgo { s with ego := t.ego }))

/-- Knots are finalised in order, a window end judges each sensor clock, and a silent channel is SILENT. (R112, R113,
R114, R118, R120) -/
def Obligations.KnotsSensorClocksAndSilenceRunOnTime : Prop :=
  ∀ s : State, RegsCanonical s → mainRuns s = true →
    (unitHeld flatEgo s = false → knotsOn s = true → sourcesPast s.ego.nextKnot s = true → s.ego.mode ≠ egoLost →
      Gives .knotDue s (fun t => (∃ k r, t.ego.knots = k :: r ∧ k.t = s.ego.nextKnot) ∧ t.ego.nextKnot = s.ego.nextKnot + 125000
        ∧ t.ego.knots.length ≤ 8192 ∧ t = { s with ego := t.ego }))
    ∧ (unitHeld flatEgo s = false → knotsOn s = true →
      Gives .knotWaitExpiry s (fun t => (∃ k r, t.ego.knots = k :: r ∧ k.t = s.ego.nextKnot)
        ∧ t.ego.nextKnot = s.ego.nextKnot + 125000 ∧ t.ego.knots.length ≤ 8192
        ∧ t = { s with regs := t.regs, time := t.time, slew := t.slew, holdSeen := t.holdSeen, ego := t.ego }))
    ∧ (s.aln.length = 32 → fget s SLC_SYNC SLC_SYNC_WIN ≠ 0 → Gives .syncWindowEnd s (fun t =>
      (∀ n < 32, chanEn n s = true → sensorTimed n s = true → (alnGet n t).windowMin = none
        ∧ ((signed 32 (fget t (SLC_CH_OFFSET_EST n) fWord)).natAbs > syncTheta n s → (alnGet n t).unsync = true
            ∧ fbit t (SLC_CH_STATUS n) SLC_CH_STATUS_UNSYNC_SEEN = true))
      ∧ MemoryKept s t))
    ∧ (∀ n : Fin 32, s.aln.length = 32 → chanEn n s = true → consuming s = true → (alnGet n s).silent = false →
      (alnGet n s).unsync = false → Gives (.silentTimeout n) s (fun t => (alnGet n t).silent = true
        ∧ fget t (SLC_CH_STATUS n) SLC_CH_STATUS_STATE = 2
        ∧ t = { s with regs := t.regs, time := t.time, slew := t.slew, holdSeen := t.holdSeen, aln := t.aln }))

/-- The alignment opcodes store valid words, report and clear a channel's counts, answer poses, and are FENCED with
FUSION. (R121, R122, R126, R127, R369) -/
def Obligations.AlignmentOpcodesConfigureOutsideARun : Prop :=
  ∀ (h : CmdHead) (n a b c d e f g : Word) (ps : List Word) (s : State), RegsCanonical s →
    (partFenced partFusion s = false →
      (Ready h 0x0423 s → n.toNat ≤ 31 → Gives (.slcSetToff h [n, a]) s (fun t => Answered h 0x0423 [n, a] stOk [] s t
        ∧ rd t (SLC_CH_TOFF n.toNat) = a ∧ RegsKept [SLC_CH_TOFF n.toNat] s t ∧ t = { s with regs := t.regs, cmds := t.cmds }))
      ∧ (Ready h 0x0421 s → n.toNat ≤ 31 → Gives (.slcChStatus h [n]) s (fun t =>
        Answered h 0x0421 [n] stOk ([(rd s (SLC_CH_STATUS n.toNat)).toNat, (rd s (SLC_CH_OFFSET_EST n.toNat)).toNat,
          (rd s (SLC_CH_TOFF n.toNat)).toNat, (rd s (SLC_CH_TOFF_CAL n.toNat)).toNat]
          ++ (chanCounts n.toNat).map (fun x => (rd s x).toNat) ++ [(rd s (SLC_CH_LAST_LIN n.toNat)).toNat]) s t
        ∧ (∀ x ∈ chanCounts n.toNat, rd t x = 0) ∧ RegsKept (chanCounts n.toNat) s t
        ∧ t = { s with regs := t.regs, cmds := t.cmds }))
      ∧ (Ready h 0x0420 s → n.toNat ≤ 31 →
        (∀ p ∈ [(SLC_CH_CFG n.toNat, a), (SLC_CH_NOMLAT n.toNat, b), (SLC_CH_FRAME_PERIOD n.toNat, c), (SLC_CH_POINT n.toNat, d),
          (SLC_CH_OFFS n.toNat, e), (SLC_CH_FMT n.toNat, f), (SLC_CH_HDR_T_OFF n.toNat, g)], reservedSet p.1 p.2.toNat = false) →
        slcCfgOk n.toNat a.toNat = true → framePeriodOk c.toNat = true → strideOk d.toNat = true →
        slcPointsOk d.toNat e.toNat f.toNat = true → slcFmtOk a.toNat f.toNat = true → fbit s (ING_CTRL n.toNat) ING_CTRL_EN = false →
        Gives (.slcChConfig h [n, a, b, c, d, e, f, g]) s (fun t => Answered h 0x0420 [n, a, b, c, d, e, f, g] stOk [] s t
          ∧ (∀ p ∈ [(SLC_CH_CFG n.toNat, a), (SLC_CH_NOMLAT n.toNat, b), (SLC_CH_FRAME_PERIOD n.toNat, c), (SLC_CH_POINT n.toNat, d),
            (SLC_CH_OFFS n.toNat, e), (SLC_CH_FMT n.toNat, f), (SLC_CH_HDR_T_OFF n.toNat, g)], rwChanges p.1 p.2 t = false)
          ∧ t = { s with regs := t.regs, aln := t.aln, cmds := t.cmds }))
      ∧ (Ready h 0x0422 s → slcGlobalOk 0 a.toNat = true → slcGlobalOk 4 b.toNat = true → slcGlobalOk 8 c.toNat = true →
        (∀ p ∈ [(SLC_CLOSE, a), (SLC_LATE_LIMIT, b), (SLC_SYNC, c), (SLC_VOBJ, d)], reservedSet p.1 p.2.toNat = false) →
        (running s = false → Gives (.slcLimits h [a, b, c, d]) s (fun t => Answered h 0x0422 [a, b, c, d] stOk [] s t
          ∧ (∀ p ∈ [(SLC_CLOSE, a), (SLC_LATE_LIMIT, b), (SLC_SYNC, c), (SLC_VOBJ, d)], rwChanges p.1 p.2 t = false)
          ∧ t = { s with regs := t.regs, cmds := t.cmds }))
        ∧ (running s = true → Gives (.slcLimits h [a, b, c, d]) s (fun t => Answered h 0x0422 [a, b, c, d] stBusy [] s t
          ∧ t = { s with cmds := t.cmds })))
      ∧ (Ready h 0x0424 s → ps.length = 32 → (∀ i < 32, reservedSet (nth egoAddrs i 0) (param ps i) = false) →
        egoOk 0x04 (param ps 1) s = true → egoOk 0x08 (param ps 2) s = true → egoOk 0x0C (param ps 3) s = true →
        egoImuOk (ps.map BitVec.toNat) s = true → running s = false → Gives (.egoConfig h ps) s (fun t =>
          Answered h 0x0424 ps stOk [] s t ∧ (∀ i < 32, rwChanges (nth egoAddrs i 0) (nth ps i 0) t = false)
          ∧ t = { s with regs := t.regs, ego := t.ego, cmds := t.cmds }))
      ∧ (∀ (k : Knot) (r : List Knot), Ready h 0x0425 s → s.ego.mode ≠ egoOff → s.ego.knots = k :: r →
        ((k :: r).getLast?.getD k).t ≤ k.t → a.toNat + 2 ^ 32 * b.toNat = 2 ^ 64 - 1 →
        OnlyReads (.egoGet h [a, b]) h 0x0425 [a, b] (egoRecord k.t ⟨k.pose, false, false⟩ (egoStatusBits s)) s)
      ∧ (Ready h 0x0426 s → running s = false → fbit s SLC_EGO_CFG SLC_EGO_CFG_EN = true → Gives (.egoReset h []) s (fun t =>
        Answered h 0x0426 [] stOk [] s t ∧ t.ego = { EgoState.reset with mode := egoInit } ∧ t = { s with ego := t.ego, cmds := t.cmds }))
      ∧ (Ready h 0x0426 s → running s = true → Gives (.egoReset h []) s (fun t =>
        Answered h 0x0426 [] stBusy [] s t ∧ t = { s with cmds := t.cmds })))
    ∧ (partFenced partFusion s = true → Ready h 0x0423 s → Gives (.slcSetToff h [n, a]) s (fun t =>
        Answered h 0x0423 [n, a] stFenced [] s t ∧ t = { s with cmds := t.cmds }))

/-- A boundary opens the next slice and ticks the Spire, a close ends the oldest slice, and RATE is the slowest
canary's. (R17, R45, R105, R106, R301, R338) -/
def Obligations.SlicesOpenCloseAndTheHandshakeRateIsMeasured : Prop :=
  ∀ s : State, RegsCanonical s → mainRuns s = true →
    (fbit s (BLF_CMP_CTRL 0) BLF_CMP_CTRL_ARM = true → cmpReached 0 s = true → cmpLateAt 0 s = none → runState s = stRunning → s.slices = [] →
      fbit s DEV_RUN DEV_RUN_HALF_PENDING = false → Gives .sliceBoundary s (fun t =>
        t.slices.map (fun r => (r.seq, r.start, r.tov, r.closed)) = [(s.nextSeq, lin s, lin s + sliceLen s, false)]
        ∧ t.nextSeq = s.nextSeq + 1 ∧ t.bridgeUp = s.bridgeUp ++ [.tick (lin s % 2 ^ 32) (some s.nextSeq)]
        ∧ fbit t (BLF_CMP_STATUS 0) BLF_CMP_STATUS_FIRED = true ∧ MemoryKept s t))
    ∧ (∀ (r : SliceRec) (rest : List SliceRec), fbit s (BLF_CMP_CTRL 2) BLF_CMP_CTRL_ARM = true → cmpReached 2 s = true →
      cmpLateAt 2 s = none → s.slices = r :: rest → r.closed = false → r.tov ≤ lin s → Gives .sliceClose s (fun t =>
        (∃ q, t.slices = q :: rest ∧ q.seq = r.seq ∧ q.closed = true) ∧ t.bridgeUp = s.bridgeUp ++ [.kick sgIngest r.seq]
        ∧ fbit t (BLF_CMP_STATUS 2) BLF_CMP_STATUS_FIRED = true
        ∧ t = { s with regs := t.regs, slices := t.slices, bridgeUp := t.bridgeUp, cmpLate := t.cmpLate }))
    ∧ (∀ counts : List Nat, counts.length = 64 → Gives (.rateUpdate counts) s (fun t =>
        (∃ low ∈ counts, (∀ c ∈ counts, low ≤ c) ∧ fget t SLC_GOV_RATE SLC_GOV_RATE_RATE = min 65535 (low / 10))
        ∧ (∀ i < 64, fget t (CUP_CANARY i) CUP_CANARY_RATE = min 65535 (nth counts i 0 / 10))))

/-- VOXEL, CAMERA and FUSE begin on the oldest slice that is ready, and a lane of the VHE takes the next point. (R15,
R16, R19, R147, R161, R168) -/
def Obligations.StagesBeginOnTheOldestReadySlice : Prop :=
  ∀ s : State, mainRuns s = true →
    (∀ r : SliceRec, stageDue sgVoxel (hasEnded sgAlign) s = some r → mayGoOn s = true → unitsUp [flatVhe] s = true →
      fbit s VHE_STATUS VHE_STATUS_CLEARING = false → Gives .voxelStart s (fun t =>
        t.slices.map SliceRec.seq = s.slices.map SliceRec.seq ∧ (∀ q ∈ t.slices, q.seq = r.seq → hasBegun sgVoxel q = true)
        ∧ MemoryKept s t))
    ∧ (∀ r : SliceRec, stageDue sgCamera (hasBegun sgAlign) s = some r → mayGoOn s = true →
      unitsUp [flatCamera, flatProjection] s = true → Gives .cameraStart s (fun t =>
        t.slices.map SliceRec.seq = s.slices.map SliceRec.seq ∧ (∀ q ∈ t.slices, q.seq = r.seq → hasBegun sgCamera q = true)
        ∧ t = { s with slices := t.slices, lanes := t.lanes }))
    ∧ (∀ r : SliceRec, stageDue sgFuse (fun r => hasEnded sgVoxel r && hasEnded sgCamera r) s = some r → mayGoOn s = true →
      unitsUp [flatProjection] s = true → Gives .fuseStart s (fun t =>
        t.slices.map SliceRec.seq = s.slices.map SliceRec.seq
        ∧ (∀ q ∈ t.slices, q.seq = r.seq → hasBegun sgFuse q = true ∧ 16 ≤ q.secF.length) ∧ MemoryKept s t))
    ∧ (∀ (lane : Fin 8) (r : SliceRec) (p : VhePoint) (ps : List VhePoint), s.slices.find? (stageOn sgVoxel) = some r →
      unitsUp [flatVhe] s = true → s.vhe.todo = p :: ps → Gives (.pointInsert lane) s (fun t => t.vhe.todo = ps
        ∧ t = { s with regs := t.regs, vhe := t.vhe }))

/-- ALIGN, VOXEL, CAMERA and FUSE end with the Spire's kick, and write only their section of the record. (R15, R122,
R124, R145, R160, R167, R305, R338) -/
def Obligations.StagesEndWithAKickAndTheirSection : Prop :=
  ∀ (r : SliceRec) (s : State), StoresCanonical s → mainRuns s = true → s.stopAbandon = false →
    (stageEnding sgAlign s = some r → s.slices = [r] → r.closed = true → unitsUp [flatAligner, flatEgo, flatDeskew] s = true →
      Gives .alignEnd s (fun t => (∃ q, t.slices = [q] ∧ q.seq = r.seq ∧ hasEnded sgAlign q = true ∧ q.ego.length = 20)
        ∧ t.bridgeUp = s.bridgeUp ++ [.kick sgAlign r.seq]
        ∧ (∀ a, (a < slotAddr r.seq s + offEgo ∨ slotAddr r.seq s + offEgo + 80 ≤ a) → ddrByte t a = ddrByte s a)
        ∧ t = { s with regs := t.regs, slices := t.slices, bridgeUp := t.bridgeUp, lpddr := t.lpddr }))
    ∧ (stageEnding sgVoxel s = some r → s.vhe.todo = [] → unitsUp [flatVhe] s = true → Gives .voxelEnd s (fun t =>
        (∃ q ∈ t.slices, q.seq = r.seq ∧ hasEnded sgVoxel q = true
          ∧ (∀ a, (a < slotAddr r.seq s + offLevelP ∨ slotAddr r.seq s + offLevelP + 4 * q.secP.length ≤ a)
            → ddrByte t a = ddrByte s a))
        ∧ t.bridgeUp = s.bridgeUp ++ [.kick sgVoxel r.seq] ∧ t.dome = s.dome ∧ t.hostMem = s.hostMem))
    ∧ (stageEnding sgCamera s = some r → hasEnded sgAlign r = true → unitsUp [flatCamera, flatProjection] s = true →
      Gives .cameraEnd s (fun t => (∃ q ∈ t.slices, q.seq = r.seq ∧ hasEnded sgCamera q = true)
        ∧ (∀ l ∈ t.lanes, ∀ b ∈ l.bufs, b.st ≠ .lifting r.seq) ∧ t.bridgeUp = s.bridgeUp ++ [.kick sgCamera r.seq]
        ∧ MemoryKept s t))
    ∧ (∀ values : List Nat, stageEnding sgFuse s = some r → r.golden = false → unitsUp [flatProjection] s = true →
      Gives (.fuseEnd values) s (fun t => (∃ q ∈ t.slices, q.seq = r.seq ∧ hasEnded sgFuse q = true)
        ∧ fget t CAM_TILES_SENT fWord = min (2 ^ 32 - 1) (fget s CAM_TILES_SENT fWord + nth r.secF 1 0)
        ∧ (∀ a, (a < slotAddr r.seq s + offLevelF ∨ slotAddr r.seq s + offLevelF + 4 * r.secF.length ≤ a)
            → ddrByte t a = ddrByte s a)
        ∧ t.bridgeUp = s.bridgeUp ++ [.kick sgFuse r.seq] ∧ t.dome = s.dome ∧ t.hostMem = s.hostMem))

/-- PUBLISH writes the header with MAGIC, and a verdict or its limit completes the record. (R304, R306, R308, R309) -/
def Obligations.RecordsArePublishedAndCompleted : Prop :=
  ∀ (r : SliceRec) (s : State), StoresCanonical s → mainRuns s = true →
    (stageEnding sgPublish s = some r → s.stopAbandon = false → unitsUp [flatPublisher] s = true → r.chans.length = 32 →
      Gives .publication s (fun t => (∃ q ∈ t.slices, q.seq = r.seq ∧ hasEnded sgPublish q = true ∧ q.hdr.length = 64)
        ∧ ddrWord t (slotAddr r.seq s) = 0x46525231 ∧ .kick sgPublish r.seq ∈ t.bridgeUp
        ∧ (∀ a, (a < slotAddr r.seq s ∨ slotAddr r.seq s + 256 ≤ a ∨ slotAddr r.seq s + 48 ≤ a ∧ a < slotAddr r.seq s + 52
              ∨ slotAddr r.seq s + 124 ≤ a ∧ a < slotAddr r.seq s + 128) → ddrByte t a = ddrByte s a)
        ∧ t.dome = s.dome ∧ t.hostMem = s.hostMem))
    ∧ (∀ (seq word : Nat) (m : DownMsg) (rest : List DownMsg),
      takeDown (fun m => match m with | .verdict .. => true | _ => false) s = (some m, { s with bridgeDown := rest }) →
      (∃ x, m = .verdict seq word x) → s.slices.find? (fun q => q.seq == seq && awaits q) = some r → lin s ≤ r.tov + 1000000 →
      Gives .verdictArrival s (fun t => ddrWord t (slotAddr r.seq s + 48) = word % 2 ^ 32
        ∧ rd64 t CMD_LAST_SEQ_LO = r.seq % 2 ^ 64 ∧ (∀ q ∈ t.slices, q.seq ≠ r.seq) ∧ t.lastTov = r.tov
        ∧ (∀ a, (a < slotAddr r.seq s + 48 ∨ slotAddr r.seq s + 52 ≤ a) → (a < slotAddr r.seq s + 124 ∨ slotAddr r.seq s + 128 ≤ a)
            → ddrByte t a = ddrByte s a) ∧ t.dome = s.dome ∧ t.hostMem = s.hostMem))
    ∧ (s.slices.find? awaits = some r → Gives .verdictTimeout s (fun t => ddrWord t (slotAddr r.seq s + 48) = 4
        ∧ fget t CMD_NO_VERDICT fWord = min (2 ^ 32 - 1) (fget s CMD_NO_VERDICT fWord + 1)
        ∧ rd64 t CMD_LAST_SEQ_LO = r.seq % 2 ^ 64 ∧ (∀ q ∈ t.slices, q.seq ≠ r.seq)
        ∧ (∀ a, (a < slotAddr r.seq s + 48 ∨ slotAddr r.seq s + 52 ≤ a) → (a < slotAddr r.seq s + 124 ∨ slotAddr r.seq s + 128 ≤ a)
            → ddrByte t a = ddrByte s a) ∧ t.dome = s.dome ∧ t.hostMem = s.hostMem))

/-- A mirror copy starts on the oldest waiting record, ends with its index entry or an error, and the host releases
entries. (R280, R311, R312) -/
def Obligations.TheMirrorCopiesRecordsInOrder : Prop :=
  ∀ (q : Nat) (s : State), StoresCanonical s →
    (∀ rest : List Nat, mainRuns s = true → s.mirror.queue = q :: rest → s.mirror.copying = none →
      s.mirror.unreleased < fget s CMD_MIR_CFG CMD_MIR_CFG_MIR_SLOTS → s.pwr.pcieUp = true → Gives .mirrorCopyStart s (fun t =>
        t.mirror.copying = some q ∧ t.mirror.queue = rest ∧ t = { s with mirror := t.mirror }))
    ∧ (mainRuns s = true → s.mirror.copying = some q → fget s CMD_MIR_CFG CMD_MIR_CFG_MIR_SLOTS ≠ 0 →
      Gives (.mirrorCopyDone false) s (fun t => t.mirror.copying = none ∧ t.mirror.unreleased = s.mirror.unreleased + 1
        ∧ fget t CMD_MIR_IDX_TAIL CMD_MIR_IDX_TAIL_TAIL
            = (fget s CMD_MIR_IDX_TAIL CMD_MIR_IDX_TAIL_TAIL + 1) % fget s CMD_MIR_CFG CMD_MIR_CFG_MIR_SLOTS
        ∧ (∀ i : Fin 2, cellsGet emptyWord t.hostMem (rd64 s CMD_MIR_IDX_LO + 16 * fget s CMD_MIR_IDX_TAIL CMD_MIR_IDX_TAIL_TAIL + 4 * i)
            = BitVec.ofNat 32 (q / 2 ^ (32 * i.val)))
        ∧ t = { s with regs := t.regs, hostMem := t.hostMem, mirror := t.mirror, out := t.out }))
    ∧ (mainRuns s = true → s.mirror.copying = some q → Gives (.mirrorCopyDone true) s (fun t =>
        fbit t CMD_RES_CTRL CMD_RES_CTRL_MIR_ERR = true ∧ fbit t CMD_RES_CTRL CMD_RES_CTRL_MIRROR_EN = false
        ∧ t.mirror.queue = [] ∧ t.mirror.copying = none ∧ t = { s with regs := t.regs, mirror := t.mirror, out := t.out }))
    ∧ (∀ (ag : Agent) (v : Word) (k : Nat), agentUp ag s = true →
      getBits CMD_MIR_IDX_HEAD_HEAD v < fget s CMD_MIR_CFG CMD_MIR_CFG_MIR_SLOTS →
      fget s CMD_MIR_IDX_HEAD CMD_MIR_IDX_HEAD_HEAD < fget s CMD_MIR_CFG CMD_MIR_CFG_MIR_SLOTS →
      getBits CMD_MIR_IDX_HEAD_HEAD v = (fget s CMD_MIR_IDX_HEAD CMD_MIR_IDX_HEAD_HEAD + k) % fget s CMD_MIR_CFG CMD_MIR_CFG_MIR_SLOTS →
      k < fget s CMD_MIR_CFG CMD_MIR_CFG_MIR_SLOTS → k ≤ s.mirror.unreleased → Gives (.mirIdxHeadWrite ag v) s (fun t =>
        fget t CMD_MIR_IDX_HEAD CMD_MIR_IDX_HEAD_HEAD = getBits CMD_MIR_IDX_HEAD_HEAD v
        ∧ t.mirror.unreleased = s.mirror.unreleased - k ∧ RegsKept [CMD_MIR_IDX_HEAD] s t
        ∧ t = { s with regs := t.regs, mirror := t.mirror }))

/-- START arms a run, STOP begins to stop it, and SLICE_MODE sets or schedules the slice length. (R296, R300, R301,
R302, R303) -/
def Obligations.RunControlOpcodesDriveTheRunState : Prop :=
  ∀ (h : CmdHead) (p : Word) (s : State), RegsCanonical s →
    (Ready h 0x0601 s → p.toNat = 0 → runState s = stIdle → s.img.active.isSome = true → fbit s CMD_RES_CTRL CMD_RES_CTRL_VALID = true →
      Gives (.start h [p]) s (fun t => runState t = stArmed ∧ rd64 t CMD_LAST_SEQ_LO = 2 ^ 64 - 1 ∧ t.nextSeq = 0
        ∧ t.runStart = lin s + 100000 ∧ t.cmds = s.cmds ++ [executed h 0x0601 [p] s none] ∧ MemoryKept s t))
    ∧ (Ready h 0x0601 s → p.toNat ≤ 1 → runState s ≠ stIdle → Gives (.start h [p]) s (fun t =>
        Answered h 0x0601 [p] stBusy [] s t ∧ t = { s with cmds := t.cmds }))
    ∧ (Ready h 0x0602 s → p.toNat = 0 → runState s = stRunning → s.slices ≠ [] → Gives (.stop h [p]) s (fun t => runState t = stStopping
        ∧ t.cmds = s.cmds ++ [executed h 0x0602 [p] s none] ∧ RegsKept [DEV_RUN] s t
        ∧ t = { s with regs := t.regs, stopAbandon := false, cmds := t.cmds }))
    ∧ (Ready h 0x0602 s → p.toNat = 0 → runState s = stRunning → s.slices = [] → opWaiting 0x0602 s = false →
      Gives (.stop h [p]) s (fun t => runState t = stIdle
        ∧ Answered h 0x0602 [p] stOk [(rd s CMD_LAST_SEQ_LO).toNat, (rd s CMD_LAST_SEQ_HI).toNat] s t ∧ MemoryKept s t))
    ∧ (Ready h 0x0602 s → p.toNat ≤ 1 → runState s = stIdle → OnlyReads (.stop h [p]) h 0x0602 [p]
        [(rd s CMD_LAST_SEQ_LO).toNat, (rd s CMD_LAST_SEQ_HI).toNat] s)
    ∧ (Ready h 0x0603 s → p.toNat ≤ 1 → running s = false → fbit s DEV_RUN DEV_RUN_HALF_PENDING = false →
      Gives (.sliceMode h [p]) s (fun t => fget t DEV_RUN DEV_RUN_HALF = p.toNat
        ∧ Answered h 0x0603 [p] stOk [(rd t (BLF_CMP_VAL 0)).toNat] s t
        ∧ fget t (BLF_CMP_RELOAD 0) fWord = (if p.toNat = 1 then 500000 else 1000000)
        ∧ t = { s with regs := t.regs, cmds := t.cmds }))
    ∧ (Ready h 0x0603 s → p.toNat ≤ 1 → running s = true → fbit s DEV_RUN DEV_RUN_HALF_PENDING = false →
      Gives (.sliceMode h [p]) s (fun t => fbit t DEV_RUN DEV_RUN_HALF_PENDING = true ∧ t.halfNext = decide (p.toNat = 1)
        ∧ Answered h 0x0603 [p] stOk [nextBoundary (lin s) 1000000 % 2 ^ 32] s t ∧ RegsKept [DEV_RUN] s t
        ∧ t = { s with regs := t.regs, halfNext := t.halfNext, cmds := t.cmds }))

/-- A frame whose lines stop is lost, a mesh completes or fails, a whole frame is reported, and the VHE's clear ends.
(R155, R158, R159, R160, R161) -/
def Obligations.FramesMeshesAndTheClearOfTheVheComplete : Prop :=
  ∀ (n : Fin 16) (s : State), RegsCanonical s → s.lanes.length = 16 → (laneGet n s).bufs.length = 3 →
    (∀ b < 3, mainRuns s = true → (laneGet n s).cur = some b → Gives (.frameLineTimeout n) s (fun t => (laneGet n t).cur = (laneGet n s).next.head?
        ∧ (bufGet b (laneGet n t)).st = .free ∧ fget t (CAM_LOST_TMO n) fWord = min (2 ^ 32 - 1) (fget s (CAM_LOST_TMO n) fWord + 1)
        ∧ t = { s with regs := t.regs, time := t.time, slew := t.slew, holdSeen := t.holdSeen, lanes := t.lanes, slices := t.slices }))
    ∧ (∀ built : Bool, cupolaRuns s = true → (laneGet n s).meshing = true → fbit s (CAM_CFG n) CAM_CFG_EN = true →
      Gives (.meshBuildDone n built) s (fun t => (laneGet n t).meshing = false
        ∧ (built = true → fbit t (CAM_STATUS n) CAM_STATUS_READY = true) ∧ (built = false → fbit t (CAM_STATUS n) CAM_STATUS_MESH_ERR = true)
        ∧ RegsKept [CAM_STATUS n] s t ∧ t = { s with regs := t.regs, lanes := t.lanes }))
    ∧ (mainRuns s = true → alignerTakes s = true → (∃ b < 3, featured (bufGet b (laneGet n s)) = true) →
      Gives (.frameReport n) s (fun t => fget t (CAM_FRAMES_OK n) fWord = min (2 ^ 32 - 1) (fget s (CAM_FRAMES_OK n) fWord + 1)
        ∧ (∃ b < 3, featured (bufGet b (laneGet n s)) = true ∧ (bufGet b (laneGet n t)).st ≠ .features) ∧ MemoryKept s t))
    ∧ (mainRuns s = true → unitHeld flatVhe s = false → Gives .vheClearDone s (fun t =>
        fbit t VHE_STATUS VHE_STATUS_CLEARING = false ∧ RegsKept [VHE_STATUS] s t ∧ t = { s with regs := t.regs }))

/-- A calibration update is skipped when late, solved when the pipe is free, and ended by the Spire's reply or its
absence. (R170, R171, R172, R175) -/
def Obligations.CalibrationStepsAreProposedAnsweredOrSkipped : Prop :=
  ∀ (u : CalUpdate) (s : State), RegsCanonical s → mainRuns s = true → u.sensor < 24 →
    (calRunning s = none → s.cal.updates.find? (fun v => v.phase == .residuals && solveReturned v.seq s) = some u →
      u.tov + 880000 < lin s → Gives .calSolve s (fun t => fget t CAM_CAL_SKIP fWord = min (2 ^ 32 - 1) (fget s CAM_CAL_SKIP fWord + 1)
        ∧ fget t (CAM_EXT_LAST u.sensor) CAM_EXT_LAST_LAST = 6
        ∧ (∀ v ∈ t.cal.updates, v.seq = u.seq → v.sensor ≠ u.sensor)
        ∧ RegsKept [CAM_CAL_SKIP, CAM_EXT_LAST u.sensor, CAM_EXT_CAL u.sensor] s t ∧ MemoryKept s t))
    ∧ (calRunning s = none → s.cal.updates.find? (fun v => v.phase == .residuals && solveReturned v.seq s) = some u →
      lin s ≤ u.tov + 880000 → pipeHeld s = false → unitFenced flatFactor s = false → unitHeld flatFactor s = false →
      Gives .calSolve s (fun t => (∀ v ∈ t.cal.updates, v.seq = u.seq → v.sensor = u.sensor → v.phase = .solving)
        ∧ t = { s with cal := t.cal }))
    ∧ (calRunning s = some u → u.residuals ≤ 4096 → Gives .calSolve s (fun t =>
        fget t (CAM_EXT_LAST u.sensor) CAM_EXT_LAST_RESIDUALS = u.residuals
        ∧ (calWeak u s = true → fget t (CAM_EXT_LAST u.sensor) CAM_EXT_LAST_LAST = 4
          ∧ ∀ v ∈ t.cal.updates, v.seq = u.seq → v.sensor ≠ u.sensor)
        ∧ (∀ v ∈ t.cal.updates, v.seq = u.seq → v.sensor = u.sensor → v.phase = .proposed ∨ v.phase = .sent)
        ∧ MemoryKept s t))
    ∧ (∀ (rest : List DownMsg) (accept : Bool), s.bridgeDown = .calReply u.seq u.sensor accept :: rest →
      s.cal.updates.find? (fun v => v.seq == u.seq && v.sensor == u.sensor && v.phase == .sent) = some u → lin s ≤ u.tov + 5000000 →
      Gives .calReply s (fun t => fbit t (CAM_EXT_CAL u.sensor) CAM_EXT_CAL_PENDING = false ∧ t.bridgeDown = rest
        ∧ fget t (CAM_EXT_LAST u.sensor) CAM_EXT_LAST_LAST = (if accept then 1 else 2)
        ∧ t.cal.accepted = s.cal.accepted ++ (if accept then [u] else [])
        ∧ (∀ v ∈ t.cal.updates, v.seq = u.seq → v.sensor ≠ u.sensor) ∧ MemoryKept s t))
    ∧ (s.cal.updates.find? (fun v => v.phase == .proposed || v.phase == .sent) = some u → Gives .calNoreply s (fun t =>
        fget t CAM_CAL_NOREPLY fWord = min (2 ^ 32 - 1) (fget s CAM_CAL_NOREPLY fWord + 1)
        ∧ fbit t (CAM_EXT_CAL u.sensor) CAM_EXT_CAL_PENDING = false ∧ fget t (CAM_EXT_LAST u.sensor) CAM_EXT_LAST_LAST = 3
        ∧ t.cal.accepted = s.cal.accepted ∧ MemoryKept s t))

/-- A ready item starts on its unit, completes there, and is reported when its budget passes. (R188, R193, R197, R203,
R369, R378) -/
def Obligations.ItemsStartCompleteAndRunOver : Prop :=
  ∀ (stage : Fin 8) (item unit : Nat) (job : ArrayJob) (r : SliceRec) (w : WorkList) (s : State), RegsCanonical s → mainRuns s = true →
    (inStage stage s = some r → sliceList r s = some w → item < wlCount w (stageVariant r stage) s →
      itStage (wlItem w (stageVariant r stage) item s) = stage → unitFits (wlItem w (stageVariant r stage) item s) unit = true →
      itemId stage item ∉ r.items → (stage = 3 → r.strips ≠ []) → s.fab.items = [] → contextRefused (itContext (wlItem w (stageVariant r stage) item s)) s = false →
      (unitRefuses (itemFlat (itUnit (wlItem w (stageVariant r stage) item s)) unit) s = false →
        fbit s ATN_STATUS ATN_STATUS_REBUILDING = false →
        Gives (.itemStart stage item unit job) s (fun t => (∃ x, t.fab.items = [x] ∧ x.seq = r.seq ∧ x.id = itemId stage item
          ∧ x.unit = itemFlat (itUnit (wlItem w (stageVariant r stage) item s)) unit ∧ x.started = upNs s
          ∧ x.waits = !waitMet (wlItem w (stageVariant r stage) item s) s)
          ∧ t = { s with regs := t.regs, fab := t.fab }))
      ∧ (unitRefuses (itemFlat (itUnit (wlItem w (stageVariant r stage) item s)) unit) s = true →
        classHasUnit (itUnit (wlItem w (stageVariant r stage) item s)) s = false →
        Gives (.itemStart stage item unit job) s (fun t => (∀ q ∈ t.slices, q.seq = r.seq → q.poisoned = true
            ∧ (itemId stage item / 65536 ≠ 3 → itemId stage item ∈ q.items))
          ∧ t.slices.map SliceRec.seq = s.slices.map SliceRec.seq ∧ t = { s with regs := t.regs, slices := t.slices, lanes := t.lanes })))
    ∧ (∀ (x : RunItem) (flat corr : Nat) (uncorr : Bool) (results : List CoreResult) (reads : List (Nat × Nat)),
      itemOn flat s = some x → (flat = flatAttention → x.opDone = true) →
      Gives (.itemComplete flat corr uncorr results reads) s (fun t => (∀ i ∈ t.fab.items, i.unit ≠ flat)
        ∧ (∀ q ∈ t.slices, q.seq = x.seq → x.id / 65536 ≠ 3 → x.id ∈ q.items)
        ∧ t.slices.map SliceRec.seq = s.slices.map SliceRec.seq ∧ LogOnly s t))
    ∧ (∀ (x : RunItem) (flat : Nat), s.fab.items.find? (fun i => i.unit == flat && !i.overrun && !i.waits) = some x →
      (itUnit x.words = unitVector ∨ itUnit x.words = unitScalar) → Gives (.itemBudgetExpiry flat) s (fun t =>
        (∀ i ∈ t.fab.items, i.unit = flat → i.overrun = true) ∧ t.bridgeUp = s.bridgeUp ++ [.fault 16 (flatUnit flat)]
        ∧ MemoryKept s t))

/-- A tag is granted or waited for, a write through it reaches its bytes alone, and its release returns it. (R190,
R193, R194, R195, R196, R199) -/
def Obligations.TagsAreGrantedUsedAndReturned : Prop :=
  ∀ s : State, StoresCanonical s → mainRuns s = true →
    (∀ q : MemReq, reqOk q = true → mayAsk q s = true →
      (tagFree q s = true → s.fab.waiting.any (fun w => w.from_ == q.from_) = false → Gives (.tagGrant q) s (fun t =>
        (∃ g, t.fab.tags = s.fab.tags ++ [g] ∧ g.req = q ∧ g.returning = none) ∧ MemoryKept s t))
      ∧ (tagFree q s = false → Gives (.tagGrant q) s (fun t => t.fab.waiting = s.fab.waiting ++ [q] ∧ t.fab.tags = s.fab.tags
        ∧ fget t DOME_TAG_WAITS fWord = min (2 ^ 32 - 1) (fget s DOME_TAG_WAITS fWord + 1) ∧ RegsKept [DOME_TAG_WAITS] s t
        ∧ t = { s with regs := t.regs, fab := t.fab })))
    ∧ (∀ (i : Nat) (g : TagRec), s.fab.tags[i]? = some g → mayComplete i g s = true → g.req.write = true → g.redirect = false →
      g.void = false → g.data ≠ [] →
      (g.req.ddr = false → s.fab.waiting = [] → s.fab.outer = [] → Gives (.memoryAccessComplete i .good) s (fun t =>
        (∀ k < g.data.length, domeByte t (g.req.addr + k) = nth g.data k 0 % 256)
        ∧ (∀ a, (a < g.req.addr ∨ g.req.addr + g.data.length ≤ a) → domeByte t a = domeByte s a)
        ∧ t.fab.tags.map TagRec.req = (s.fab.tags.eraseIdx i).map TagRec.req ∧ t = { s with dome := t.dome, fab := t.fab }))
      ∧ (g.req.ddr = true → g.req.from_ ≠ .host → ieccTop g.req.addr s = false → inImage g.req.addr g.req.len s = false →
        Gives (.memoryAccessComplete i .good) s (fun t =>
        (∀ k < g.data.length, ddrByte t (g.req.addr + k) = nth g.data k 0 % 256)
        ∧ (∀ a, (a < g.req.addr ∨ g.req.addr + g.data.length ≤ a) → ddrByte t a = ddrByte s a)
        ∧ t.fab.tags[i]? = some { g with returning := some (upNs s) } ∧ t = { s with lpddr := t.lpddr, fab := t.fab })))
    ∧ (∀ i : Nat, s.fab.tags.findIdx? (fun g => g.returning.isSome) = some i → s.fab.waiting = [] → s.fab.outer = [] →
      Gives .tagReleaseCrossing s (fun t => t.fab.tags = s.fab.tags.eraseIdx i ∧ t = { s with fab := t.fab }))
    ∧ (s.fab.tags.any (fun g => g.returning.isSome) = true → Gives .tagReturningTimeout s (fun t =>
        fbit t DOME_TAG_LEDGER1 DOME_TAG_LEDGER1_ERR = true ∧ t.bridgeUp = s.bridgeUp ++ [.fault 19 0] ∧ MemoryKept s t))
    ∧ (∀ (bank : Fin 64) (a : Nat), s.fab.rewrites.find? (fun a => domeBank a == bank.val) = some a →
      Gives (.eccRewrite bank) s (fun t => t.fab.rewrites = s.fab.rewrites.erase a ∧ t = { s with fab := t.fab }))

/-- The image opcodes load a checked image, switch lists outside a run, and unload what is not in use. (R201, R202,
R205, R206, R207, R473) -/
def Obligations.ImagesAreLoadedActivatedAndUnloaded : Prop :=
  ∀ (h : CmdHead) (slot al ah nl nh crc base : Word) (s : State), RegsCanonical s → s.img.models.length = 8 →
    (Ready h 0x0501 s → slot.toNat ≤ 7 → 0 < nl.toNat + 2 ^ 32 * nh.toNat → nl.toNat + 2 ^ 32 * nh.toNat ≤ 2 ^ 32 →
      placeBad (al.toNat + 2 ^ 32 * ah.toNat) (nl.toNat + 2 ^ 32 * nh.toNat) s = false →
      ((nth s.img.models slot.toNat none) = none →
        crc32c (getBytes s.lpddr (al.toNat + 2 ^ 32 * ah.toNat) (nl.toNat + 2 ^ 32 * nh.toNat)) = crc.toNat →
        Gives (.modelLoad h [slot, al, ah, nl, nh, crc]) s (fun t => Answered h 0x0501 [slot, al, ah, nl, nh, crc] stOk [0] s t
          ∧ nth t.img.models slot.toNat none = some (al.toNat + 2 ^ 32 * ah.toNat, nl.toNat + 2 ^ 32 * nh.toNat)
          ∧ t = { s with img := t.img, cmds := t.cmds }))
      ∧ ((nth s.img.models slot.toNat none).isSome = true → Gives (.modelLoad h [slot, al, ah, nl, nh, crc]) s (fun t =>
          Answered h 0x0501 [slot, al, ah, nl, nh, crc] stNoResource [0] s t ∧ t = { s with cmds := t.cmds })))
    ∧ (Ready h 0x0502 s → slot.toNat ≤ 7 → (nth s.img.models slot.toNat none).isSome = true →
      (loadedLists s).any (fun w => bitOf slot.toNat (wlModels w s)) = false → Gives (.modelUnload h [slot]) s (fun t =>
        Answered h 0x0502 [slot] stOk [] s t ∧ nth t.img.models slot.toNat none = none
        ∧ t = { s with img := t.img, cmds := t.cmds }))
    ∧ (∀ w : WorkList, w = ⟨al.toNat + 2 ^ 32 * ah.toNat, nl.toNat, base.toNat⟩ → Ready h 0x0503 s → 4 ≤ nl.toNat →
      nl.toNat ≤ 2 ^ 26 → placeBad w.addr w.len s = false → s.img.standby = none →
      crc32c (getBytes s.lpddr w.addr (w.len - 4)) = crc.toNat → ofBytes (getBytes s.lpddr (w.addr + w.len - 4) 4) = crc.toNat →
      wlReasons w s = [] → Gives (.wlLoad h [al, ah, nl, crc, base]) s (fun t =>
        (∃ ws, Answered h 0x0503 [al, ah, nl, crc, base] stOk (0 :: ws) s t ∧ ws.length = 6) ∧ t.img.standby = some w
        ∧ t.img.active = s.img.active ∧ t = { s with img := t.img, cmds := t.cmds }))
    ∧ (∀ w : WorkList, Ready h 0x0504 s → s.img.standby = some w → s.img.pending = false →
      (running s = false → Gives (.wlActivate h []) s (fun t => Answered h 0x0504 [] stOk [0] s t ∧ t.img.active = some w
        ∧ t.img.standby = none ∧ t = { s with regs := t.regs, img := t.img, cmds := t.cmds }))
      ∧ (running s = true → footprintClash w s = false → Gives (.wlActivate h []) s (fun t =>
        Answered h 0x0504 [] stOk [nextAlignTov s] s t ∧ t.img.pending = true ∧ t.img.active = s.img.active
        ∧ t = { s with regs := t.regs, img := t.img, cmds := t.cmds })))
    ∧ (Ready h 0x0505 s → s.img.standby.isSome = true → s.img.pending = false → Gives (.wlDiscard h []) s (fun t =>
        Answered h 0x0505 [] stOk [] s t ∧ t.img.standby = none ∧ t = { s with img := t.img, cmds := t.cmds }))
    ∧ (Ready h 0x0505 s → s.img.standby = none → Gives (.wlDiscard h []) s (fun t =>
        Answered h 0x0505 [] stNoResource [] s t ∧ t = { s with cmds := t.cmds }))
    ∧ (Ready h 0x0506 s → OnlyReads (.wlInfo h []) h 0x0506 [] (wlInfo s.img.active s ++ wlInfo s.img.standby s ++ [modelMask s]) s)

/-- ATTEND writes its output block, KV_APPEND one row of its sequence, KV_OPEN, KV_RESET and KV_CLOSE the slot they
name. (R213, R216, R226, R230, R231, R236) -/
def Obligations.AttentionOperationsActOnTheirSequences : Prop :=
  ∀ (x : RunItem) (s : State), StoresCanonical s → mainRuns s = true → fbit s ATN_CTRL ATN_CTRL_EN = true →
    (attnItem 1 s = some x → attendOk x (attendDesc x s) s = true → walks s (attendSlots (attendDesc x s) s) = .done →
      Gives .attend s (fun t => fget t ATN_ATTENDS fWord = min (2 ^ 32 - 1) (fget s ATN_ATTENDS fWord + 1)
        ∧ (∀ a, (a < (attendDesc x s).out ∨ (attendDesc x s).out + attendBytes (attendDesc x s) (attendDesc x s).outFmt s ≤ a)
            → domeByte t a = domeByte s a)
        ∧ (∀ i ∈ t.fab.items, i.unit = flatAttention → i.opDone = true) ∧ t.lpddr = s.lpddr ∧ t.hostMem = s.hostMem))
    ∧ (∀ slot : Nat, attnItem 2 s = some x → x.progress = 0 → bitOf 4 (descWord x 0 s) = false → natField 13 0 (descWord x 1 s) = 1 →
      natField 28 16 (descWord x 1 s) = slot → inFoot x (descWord x 2 s) (kvRow s) s = true →
      inFoot x (descWord x 3 s) (kvRow s) s = true → s.attn.mig = none → seqState slot s ≠ sqFree →
      seqLen slot s < seqCap slot s → entryOk slot (tokenPos slot (seqLen slot s) s / kvTokens s) s = true →
      Gives .kvAppend s (fun t => seqLen slot t = seqLen slot s + 1
        ∧ fget t ATN_APPENDS fWord = min (2 ^ 32 - 1) (fget s ATN_APPENDS fWord + 1)
        ∧ (∀ a, (a < rowAddr slot (tokenPos slot (seqLen slot s) s) s ∨ rowAddr slot (tokenPos slot (seqLen slot s) s) s + kvRow s ≤ a) →
            (a < rowAddr slot (tokenPos slot (seqLen slot s) s) s + 32768
              ∨ rowAddr slot (tokenPos slot (seqLen slot s) s) s + 32768 + kvRow s ≤ a) → ddrByte t a = ddrByte s a)
        ∧ (∀ i ∈ t.fab.items, i.unit = flatAttention → i.opDone = true)))
    ∧ (∀ slot pages : Nat, attnItem 3 s = some x → natField 28 16 (descWord x 1 s) = slot → natField 10 0 (descWord x 2 s) = pages →
      1 ≤ pages → pages ≤ 1024 → inFoot x (descWord x 4 s) 4 s = true → descWord x 4 s + 4 ≤ 0x05A00000 → 4096 ≤ slot →
      seqState slot s = sqFree → pages + atnReserve s ≤ pageCount pgFree s → Gives .kvOpen s (fun t =>
        seqState slot t = sqGeneral ∧ seqPages slot t = pages ∧ seqLen slot t = 0 ∧ domeWord t (descWord x 4 s) = hdr slot 1 t
        ∧ (∀ i ∈ t.fab.items, i.unit = flatAttention → i.opDone = true)))
    ∧ (∀ slot : Nat, attnItem 4 s = some x → natField 28 16 (descWord x 1 s) = slot → 4096 ≤ slot → seqState slot s ≠ sqFree →
      Gives .kvReset s (fun t => seqLen slot t = 0 ∧ seqHead slot t = 0 ∧ seqState slot t = seqState slot s
        ∧ t = { s with dome := t.dome, fab := t.fab }))
    ∧ (∀ slot : Nat, attnItem 5 s = some x → natField 28 16 (descWord x 1 s) = slot → 4096 ≤ slot → seqState slot s ≠ sqFree →
      migHolds slot s = false → Gives .kvClose s (fun t => seqState slot t = sqFree ∧ t = { s with dome := t.dome, fab := t.fab }))
    ∧ (∀ r : SliceRec, attnItem 6 s = some x → s.slices.find? (fun q => q.seq == x.seq) = some r →
      fbit s ATN_CTRL ATN_CTRL_TRACK_EN = true → bitOf 5 r.begun = true → bitOf 5 r.finished = false →
      (s.attn.mig = none → s.attn.journal = none → committedNow r.seq s = false → Gives .trackCommit s (fun t =>
        (∃ j, t.attn.journal = some j ∧ j.seq = r.seq) ∧ t = { s with attn := { s.attn with journal := t.attn.journal } }))
      ∧ (∀ j : TrackJournal, s.attn.journal = some j → j.seq = r.seq → Gives .trackCommit s (fun t =>
        t.attn.journal = none ∧ t.attn.tracks = j.tracks ∧ (∀ q ∈ t.slices, q.seq = r.seq → q.committed = true)
        ∧ fget t ATN_BIRTHS fWord = min (2 ^ 32 - 1) (fget s ATN_BIRTHS fWord + j.births)
        ∧ t.slices.map SliceRec.seq = s.slices.map SliceRec.seq ∧ (∀ i ∈ t.fab.items, i.unit = flatAttention → i.opDone = true))))

/-- A migration copies, swaps and releases its page; TRACK begins and ends with its section; a rebuild ends. (R219,
R220, R222, R223, R233, R234, R238) -/
def Obligations.PagesMigrateAndTracksHaveTheirStage : Prop :=
  ∀ s : State, StoresCanonical s → mainRuns s = true →
    (∀ m : MigRec, s.attn.mig = some m → m.swapped = false → m.src ≠ m.dst → m.src < 262144 → m.dst < 262144 → m.slot < 8192 →
      Gives .migrationCopyDone s (fun t => t.attn.mig = some { m with swapped := true, since := upNs s }
        ∧ pageState m.dst t = pgAlloc ∧ ownerSlot m.dst t = m.slot ∧ pageState m.src t = pgMigrating
        ∧ fget t ATN_MIG_STATUS ATN_MIG_STATUS_DEST = m.dst ∧ t.hostMem = s.hostMem))
    ∧ (∀ m : MigRec, s.attn.mig = some m → m.swapped = true → Gives .migrationSourceRelease s (fun t => t.attn.mig = none
        ∧ pageState m.src t = (if m.quarantine then pgQuarantined else pgFree)
        ∧ fget t ATN_MIGRATIONS fWord = min (2 ^ 32 - 1) (fget s ATN_MIGRATIONS fWord + 1)
        ∧ fget t ATN_MIG_STATUS ATN_MIG_STATUS_LAST = 1 ∧ fbit t ATN_STATUS ATN_STATUS_MIG_BUSY = false
        ∧ t = { s with regs := t.regs, dome := t.dome, attn := t.attn }))
    ∧ (s.attn.mig.isSome = true → Gives .migrationTimeout s (fun t => fbit t ATN_PAGE_MIG ATN_PAGE_MIG_ERR = true
        ∧ t.bridgeUp = s.bridgeUp ++ [.fault 20 (flatUnit flatAttention)] ∧ t.attn = s.attn ∧ MemoryKept s t))
    ∧ (fbit s ATN_STATUS ATN_STATUS_REBUILDING = true → Gives .pageLedgerRebuild s (fun t =>
        fbit t ATN_STATUS ATN_STATUS_REBUILDING = false ∧ t.attn.mig = none
        ∧ t = { s with regs := t.regs, dome := t.dome, attn := t.attn }))
    ∧ (∀ r : SliceRec, stageDue sgTrack (hasEnded sgFuse) s = some r → mayGoOn s = true → unitsUp [flatAttention] s = true →
      Gives .trackStart s (fun t => t.slices.map SliceRec.seq = s.slices.map SliceRec.seq
        ∧ (∀ q ∈ t.slices, q.seq = r.seq → hasBegun sgTrack q = true)
        ∧ fbit t ATN_STATUS ATN_STATUS_XCHG_BAD = (sliceXchg r s).isNone ∧ t.lpddr = s.lpddr ∧ t.hostMem = s.hostMem))
    ∧ (∀ r : SliceRec, stageEnding sgTrack s = some r → r.committed = true → unitsUp [flatAttention] s = true →
      s.slices = [r] → s.stopAbandon = false → Gives .trackEnd s (fun t =>
        (∃ q, t.slices = [q] ∧ q.seq = r.seq ∧ hasEnded sgTrack q = true) ∧ t.bridgeUp = s.bridgeUp ++ [.kick sgTrack r.seq]
        ∧ (∀ a, (a < slotAddr r.seq s + offLevelO ∨ slotAddr r.seq s + offLevelO + 4 * r.secO.length ≤ a)
            → ddrByte t a = ddrByte s a) ∧ t.dome = s.dome ∧ t.hostMem = s.hostMem))

/-- A write acts on RW and W1C fields alone, an RC read clears, and a bad size or unmapped address is recorded. (R4,
R5, R7, R9, R12, R37) -/
def Obligations.RegisterAccessesFollowTheirAccessCodes : Prop :=
  ∀ (ag : Agent) (a : Nat) (v : Word) (s : State), agentUp ag s = true → RegsCanonical s →
    (∀ h : Hit, regAt a = some h → a % 4 = 0 → (a / 0x100000 = 0 ∨ a / 0x100000 = 7) → windowTargets a s = none → addrHeld a s = false →
      Gives (.registerWrite ag a v none 0) s (fun t =>
        rd t a = ((rd s a &&& ~~~(v &&& BitVec.ofNat 32 (accMask .w1c h.row))) &&& ~~~(BitVec.ofNat 32 (accMask .rw h.row)))
          ||| (v &&& BitVec.ofNat 32 (accMask .rw h.row))
        ∧ RegsKept [a] s t ∧ t = { s with regs := t.regs }))
    ∧ (∀ (n : Fin 32) (cross : Nat), unitHeld n s = false → assocGet s.shadow (ING_RX_PKTS n) = none → cross < 2 ^ 32 →
      Gives (.rcRead ag (ING_RX_PKTS n) false cross) s (fun t => t.readData = some (rd s (ING_RX_PKTS n))
        ∧ (rd t (ING_RX_PKTS n)).toNat = cross ∧ RegsKept [ING_RX_PKTS n] s t ∧ t = { s with regs := t.regs, readData := t.readData, readHigh := none }))
    ∧ (∀ (n : Fin 32) (cross : Nat), assocGet s.shadow (MSIX_CTRL n - 4) = none → assocGet s.shadow (MSIX_CTRL n) = none →
      Gives (.rcRead ag (MSIX_CTRL n - 4) true cross) s (fun t => t.readData = some (rd s (MSIX_CTRL n - 4))
        ∧ t.readHigh = some (rd s (MSIX_CTRL n)) ∧ t = { s with readData := t.readData, readHigh := t.readHigh }))
    ∧ (∀ (size : Nat) (write : Bool) (high : Word), sizeFits a size = false → Gives (.badSizeAccess ag a size write v high) s (fun t =>
        fbit t DEV_ACCESS_ERR ⟨0, 0⟩ = true ∧ RegsKept [DEV_ACCESS_ERR, MSIX_PBA, CUP_LOG_NEXT, CUP_LOG_OVERWRITES] s t
        ∧ t.readData = (if write then s.readData else none)
        ∧ t.dome = s.dome ∧ t.hostMem = s.hostMem))
    ∧ (∀ write : Bool, regAt a = none → a % 4 = 0 → windowTargets a s = none → Gives (.unmappedAccess ag a write v) s (fun t =>
        fbit t DEV_ACCESS_ERR ⟨1, 1⟩ = true ∧ RegsKept [DEV_ACCESS_ERR, MSIX_PBA, CUP_LOG_NEXT, CUP_LOG_OVERWRITES] s t
        ∧ t.readData = (if write then s.readData else some 0)
        ∧ t.dome = s.dome ∧ t.hostMem = s.hostMem))

/-- A 64-bit register is held low and committed high, its read samples both words, and a window reaches every target.
(R10, R31, R89, R90, R311, R468) -/
def Obligations.WideRegistersAndWindowsActWhole : Prop :=
  ∀ (ag : Agent) (v lo : Word) (s : State), agentUp ag s = true → RegsCanonical s → s.heldUnits = [] → s.ing.length = 32 →
    (assocGet s.shadow CMD_LAST_SEQ_LO = none → Gives (.lowWordRead ag CMD_LAST_SEQ_LO) s (fun t =>
        t.readData = some (rd s CMD_LAST_SEQ_LO) ∧ assocGet t.shadow CMD_LAST_SEQ_HI = some (rd s CMD_LAST_SEQ_HI)
        ∧ t = { s with shadow := t.shadow, readData := t.readData, readHigh := none }))
    ∧ (runState s = stIdle → Gives (.lowWordWrite ag CMD_MIR_BASE_LO v) s (fun t => assocGet t.heldLow CMD_MIR_BASE_LO = some v
        ∧ t = { s with heldLow := t.heldLow }))
    ∧ (runState s = stIdle → assocGet s.heldLow CMD_MIR_BASE_LO = some lo →
      (lo.toNat % 4096 = 0 → Gives (.highWordWrite ag CMD_MIR_BASE_HI v) s (fun t =>
        rd64 t CMD_MIR_BASE_LO = lo.toNat + 2 ^ 32 * v.toNat ∧ RegsKept [CMD_MIR_BASE_LO, CMD_MIR_BASE_HI] s t
        ∧ t = { s with regs := t.regs, heldLow := t.heldLow }))
      ∧ (lo.toNat % 4096 ≠ 0 → Gives (.highWordWrite ag CMD_MIR_BASE_HI v) s (fun t =>
        fbit t CMD_RES_CTRL CMD_RES_CTRL_CFG_REJECT = true ∧ RegsKept [CMD_RES_CTRL] s t
        ∧ t = { s with regs := t.regs, heldLow := t.heldLow })))
    ∧ (Gives (.broadcastWrite ag 0x003F0000 v) s (fun t =>
        (∀ n < 32, fbit t (ING_CTRL n) ING_CTRL_EN = (decide (getBits ING_CTRL_EN v = 1) && !fbit s (RST_UNIT n) RST_UNIT_RETIRED))
        ∧ t = { s with regs := t.regs, ing := t.ing }))
    ∧ (∀ g < 8, Gives (.groupWrite ag (0x003E0000 + 0x1000 * g) v) s (fun t =>
        (∀ n < 32, fbit t (ING_CTRL n) ING_CTRL_EN = (if bitOf n (rd s (ING_GRP_MASK g)).toNat
          then decide (getBits ING_CTRL_EN v = 1) && !fbit s (RST_UNIT n) RST_UNIT_RETIRED else fbit s (ING_CTRL n) ING_CTRL_EN))
        ∧ t = { s with regs := t.regs, ing := t.ing }))
    ∧ (∀ n : Fin 32, Gives (.flushRequest ag n) s (fun t => fbit t (ING_CTRL n) ING_CTRL_FLUSH = true ∧ RegsKept [ING_CTRL n] s t
        ∧ t = { s with regs := t.regs, ing := t.ing }))

/-- The host's BARs read and write memory, and the pool, migration and cold-start registers act when written. (R191,
R210, R220, R257, R277, R374) -/
def Obligations.MemoryAndPoolWritesOfAnAgent : Prop :=
  ∀ (ag : Agent) (v : Word) (s : State), StoresCanonical s →
    (∀ (a n : Nat) (bs : List Nat), agentUp .host s = true → s.fab.outer = [] →
      (bs ≠ [] → a + bs.length ≤ 0x05800000 → tagFree ⟨.host, false, true, a, bs.length, 0⟩ s = true → Gives (.barMemoryAccess false true a n bs .good) s (fun t =>
        (∀ k < bs.length, domeByte t (a + k) = nth bs k 0 % 256)
        ∧ (∀ x, (x < a ∨ a + bs.length ≤ x) → domeByte t x = domeByte s x) ∧ t.lpddr = s.lpddr ∧ t.hostMem = s.hostMem))
      ∧ (0 < n → a + n ≤ 0x06000000 → tagFree ⟨.host, false, false, a, n, 0⟩ s = true → Gives (.barMemoryAccess false false a n [] .good) s (fun t =>
        t.barData.1 = (List.range n).map (fun i => domeByte s (a + i)) ∧ MemoryKept s t))
      ∧ (bs ≠ [] → reservedEnd ≤ a → a + bs.length ≤ ddrEnd → inImage a bs.length s = false → inRing a bs.length s = false →
        rangeTop a bs.length s = false → tagFree ⟨.host, true, true, a, bs.length, 0⟩ s = true →
        groupOut (ddrGroup a) s.fab.tags < 1024 → Gives (.barMemoryAccess true true a n bs .good) s (fun t =>
        (∀ k < bs.length, ddrByte t (a + k) = nth bs k 0 % 256)
        ∧ (∀ x, (x < a ∨ a + bs.length ≤ x) → ddrByte t x = ddrByte s x) ∧ t.dome = s.dome ∧ t.hostMem = s.hostMem))
      ∧ (0 < n → a + n ≤ ddrEnd → (∀ i < n, ieccTop (a + i) s = false) → rangeTop a n s = false →
        tagFree ⟨.host, true, false, a, n, 0⟩ s = true → groupOut (ddrGroup a) s.fab.tags < 1024 → Gives (.barMemoryAccess true false a n [] .good) s (fun t =>
        t.barData.1 = (List.range n).map (fun i => ddrByte s (a + i)) ∧ MemoryKept s t))
      ∧ (∀ bar4 : Bool, 0 < n → a + n ≤ 0x06000000 → tagFree ⟨.host, bar4, false, a, n, 0⟩ s = false →
        Gives (.barMemoryAccess bar4 false a n [] .good) s (fun t => t.fab.outer.length = 1
        ∧ fget t DOME_TAG_WAITS fWord = min (2 ^ 32 - 1) (fget s DOME_TAG_WAITS fWord + 1) ∧ RegsKept [DOME_TAG_WAITS] s t
        ∧ t = { s with regs := t.regs, fab := t.fab })))
    ∧ (agentUp ag s = true → s.heldUnits = [] →
      (getBits ATN_MIGRATE_PAGE v < poolPages s → pageState (getBits ATN_MIGRATE_PAGE v) s = pgAlloc → s.attn.mig = none →
        0 < pageCount pgFree s → 1 + atnReserve s ≤ pageCount pgFree s → Gives (.migrate ag v) s (fun t =>
          (∃ m, t.attn.mig = some m ∧ m.src = getBits ATN_MIGRATE_PAGE v ∧ m.swapped = false ∧ pageState m.dst s = pgFree
            ∧ pageState m.dst t = pgMigrating)
          ∧ fbit t ATN_STATUS ATN_STATUS_MIG_BUSY = true ∧ t.lpddr = s.lpddr ∧ t.hostMem = s.hostMem))
      ∧ (running s = false → poolBad (rd64 s ATN_POOL_BASE_LO) (v.toNat % 2 ^ 19) (rd s ATN_KVFMT) s = false →
        Gives (.poolConfigWrite ag ATN_POOL_PAGES v) s (fun t => poolPages t = v.toNat % 2 ^ 19 ∧ t.attn.tracks = []
          ∧ t.attn.mig = none ∧ (∀ q < 8192, seqState q t = sqFree) ∧ t.lpddr = s.lpddr ∧ t.hostMem = s.hostMem))
      ∧ (running s = true → rwChanges ATN_POOL_PAGES v s = true → Gives (.poolConfigWrite ag ATN_POOL_PAGES v) s (fun t =>
          fbit t ATN_STATUS ATN_STATUS_CFG_REJECT = true ∧ RegsKept [ATN_STATUS] s t ∧ t = { s with regs := t.regs }))
      ∧ Gives (.coldReq ag) s (fun t => fbit t SLV_CTRL SLV_CTRL_COLD_REQ = true ∧ RegsKept [SLV_CTRL] s t
          ∧ t = { s with regs := t.regs }))

/-- Enabling clears a pair, disabling stops it, doorbells move indices within range, and slots pass from POSTING to
FREE. (R279, R280, R284, R285) -/
def Obligations.RingPairsKeepTheirIndicesAndSlots : Prop :=
  ∀ (ag : Agent) (n : Fin 4) (v : Word) (s : State), RegsCanonical s → s.rings.length = 4 →
    (agentUp ag s = true →
      (fbit s (CMD_CFG n) CMD_CFG_EN = false → ringCfgOk v = true → getBits CMD_CFG_EN v = 1 → Gives (.ringEnable ag n v) s (fun t =>
        fbit t (CMD_CFG n) CMD_CFG_EN = true ∧ rwChanges (CMD_CFG n) v t = false ∧ rd t (CMD_SQ_HEAD n) = 0 ∧ rd t (CMD_SQ_TAIL n) = 0
        ∧ rd t (CMD_CQ_HEAD n) = 0 ∧ rd t (CMD_CQ_TAIL n) = 0 ∧ rd t (CMD_EXPECT_SEQ n) = 0
        ∧ t = { s with regs := t.regs, rings := t.rings }))
      ∧ (fbit s (CMD_CFG n) CMD_CFG_EN = true → getBits CMD_CFG_EN v = 1 → rwChanges (CMD_CFG n) v s = true →
        Gives (.ringEnable ag n v) s (fun t => fbit t (CMD_ST n) CMD_ST_CFG_REJECT = true ∧ RegsKept [CMD_ST n] s t
          ∧ t = { s with regs := t.regs }))
      ∧ (fbit s (CMD_CFG n) CMD_CFG_EN = true → ringBusy n s = false → Gives (.ringDisable ag n) s (fun t =>
        fbit t (CMD_CFG n) CMD_CFG_EN = false ∧ RegsKept [CMD_CFG n] s t ∧ t = { s with regs := t.regs, rings := t.rings }))
      ∧ (fbit s (CMD_CFG n) CMD_CFG_EN = true → ringBusy n s = true → Gives (.ringDisable ag n) s (fun t =>
        (ringGet n t).disabling = true ∧ t = { s with rings := t.rings }))
      ∧ (getBits CMD_SQ_TAIL_SQ_TAIL v < sqSlots n s → Gives (.sqTailWrite ag n v) s (fun t =>
        fget t (CMD_SQ_TAIL n) CMD_SQ_TAIL_SQ_TAIL = getBits CMD_SQ_TAIL_SQ_TAIL v ∧ RegsKept [CMD_SQ_TAIL n] s t
        ∧ t = { s with regs := t.regs }))
      ∧ (sqSlots n s ≤ getBits CMD_SQ_TAIL_SQ_TAIL v → Gives (.sqTailWrite ag n v) s (fun t =>
        fbit t (CMD_ST n) CMD_ST_BAD_DOORBELL = true ∧ rd t (CMD_SQ_TAIL n) = rd s (CMD_SQ_TAIL n)
        ∧ t = { s with regs := t.regs, out := t.out }))
      ∧ (∀ k : Nat, getBits CMD_CQ_HEAD_CQ_HEAD v < cqSlots n s → fget s (CMD_CQ_HEAD n) CMD_CQ_HEAD_CQ_HEAD < cqSlots n s →
        getBits CMD_CQ_HEAD_CQ_HEAD v = (fget s (CMD_CQ_HEAD n) CMD_CQ_HEAD_CQ_HEAD + k) % cqSlots n s → k < cqSlots n s →
        (ringGet n s).crossing + k ≤ (ringGet n s).posted → Gives (.cqHeadWrite ag n v) s (fun t =>
          fget t (CMD_CQ_HEAD n) CMD_CQ_HEAD_CQ_HEAD = getBits CMD_CQ_HEAD_CQ_HEAD v
          ∧ (ringGet n t).crossing = (ringGet n s).crossing + k ∧ RegsKept [CMD_CQ_HEAD n] s t
          ∧ t = { s with regs := t.regs, rings := t.rings })))
    ∧ (mainRuns s = true → Gives (.cqHeadReleaseCrossing n) s (fun t => (ringGet n t).crossing = 0
        ∧ (ringGet n t).posted = (ringGet n s).posted - (ringGet n s).crossing ∧ t = { s with rings := t.rings }))
    ∧ (mainRuns s = true → s.pwr.pcieUp = true → (ringGet n s).posting.isSome = true → Gives (.replySent n) s (fun t =>
        (ringGet n t).posting = none ∧ (ringGet n t).posted = (ringGet n s).posted + 1 ∧ t = { s with rings := t.rings }))
    ∧ (mainRuns s = true → (ringGet n s).posting.isSome = true → Gives (.postingTimeout n) s (fun t =>
        fbit t (CMD_LEDGER n) CMD_LEDGER_ERR = true ∧ (ringBusy n s = false → fbit t (CMD_CFG n) CMD_CFG_EN = false)
        ∧ (ringBusy n s = true → fbit s (CMD_CFG n) CMD_CFG_EN = true → (ringGet n t).disabling = true)
        ∧ t.bridgeUp = s.bridgeUp ++ [.fault 21 0] ∧ MemoryKept s t))

/-- A fetch puts one packet in execution, a reply is posted with its words, a limit answers TIMEOUT, and endpoints are
answered. (R281, R282, R283, R288, R292, R293, R294, R318) -/
def Obligations.CommandsAreFetchedAnsweredAndTimedOut : Prop :=
  ∀ s : State, StoresCanonical s → cupolaRuns s = true →
    (∀ (n : Fin 4) (p : List Word), mayFetch n s = true →
      (lengthBad (sqSlotBytes n s) (p.map BitVec.toNat) = false → trailerBad (p.map BitVec.toNat) = true →
        Gives (.commandFetch n p false) s (fun t =>
          fget t (CMD_EXPECT_SEQ n) fWord = (fget s (CMD_EXPECT_SEQ n) fWord + 1) % 2 ^ 16
          ∧ fget t (CMD_SQ_HEAD n) fWord = (fget s (CMD_SQ_HEAD n) fWord + 1) % sqSlots n s
          ∧ fget t (CMD_CMDS n) fWord = min (2 ^ 32 - 1) (fget s (CMD_CMDS n) fWord + 1)
          ∧ (∃ c, t.cmds = s.cmds ++ [c] ∧ c.head.path = .ring n ∧ c.reply = some ⟨stCrc, []⟩)
          ∧ t = { s with regs := t.regs, cmds := t.cmds }))
      ∧ (s.rings.length = 4 → Gives (.commandFetch n p true) s (fun t => fbit t (CMD_ST n) CMD_ST_DMA_ERR = true ∧ (ringGet n t).stopped = true
          ∧ t.cmds = s.cmds ∧ MemoryKept s t)))
    ∧ (∀ (n : Fin 4) (c : Running) (r : Reply), runningOn (.ring n) s = some c → c.head.path = .ring n → c.reply = some r →
      (ringGet n s).posting = none → s.pwr.pcieUp = true → s.rings.length = 4 → r.status < 2 ^ 16 → r.words = [] →
      (ringGet n s).phase < 2 ^ 16 → Gives (.replyPost (.ring n) false) s (fun t => runningOn (.ring n) t = none
        ∧ fget t (CMD_CQ_TAIL n) fWord = (fget s (CMD_CQ_TAIL n) fWord + 1) % cqSlots n s
        ∧ (ringGet n t).posting = some (upNs s)
        ∧ (cellsGet emptyWord t.hostMem (rd64 s (CMD_CQ_BASE_LO n) + fget s (CMD_CQ_TAIL n) fWord * cqSlotBytes n s + 12)).toNat
            = r.status + (ringGet n s).phase * 2 ^ 16
        ∧ t.dome = s.dome ∧ t.lpddr = s.lpddr))
    ∧ (∀ (p : Path) (c : Running), runningOn p s = some c → c.reply = none → Gives (.commandTimeout p) s (fun t =>
        (∃ d r, runningOn p t = some d ∧ d.reply = some r ∧ r.status = stTimeout ∧ d.opcode = c.opcode) ∧ MemoryKept s t))
    ∧ (∀ (e : Fin 256) (ws : List Word) (r : MgmtReply), s.pwr.pcieUp = true → fbit s CMD_MCTP CMD_MCTP_EN = true →
      duplicateOf (.mctp e) (ws.map BitVec.toNat) s = some r → r.words ≠ [] →
      Gives (.mctpMessage e ws) s (fun t => t = { s with out := t.out }
        ∧ ∃ k, k = ((mctpBytes r.words).length + mctpUnit s - 1) / mctpUnit s
          ∧ t.out = ((List.range k).map (mctpPacket e (mctpUnit s) k (mctpBytes r.words))).reverse ++ s.out))
    ∧ (∀ (l : Fin 2) (ws : List Word) (r : MgmtReply), linkIsUp l s = true →
      duplicateOf (.tollis l) (ws.map BitVec.toNat) s = some r → r.words ≠ [] →
      Gives (.tollisMgmtPacket l ws) s (fun t => t.out = .mgmtReply (.tollis l) r.words :: s.out ∧ t.cmds = s.cmds ∧ t.mgmt = s.mgmt
        ∧ MemoryKept s t))
    ∧ (∀ src eid : Fin 256, s.pwr.pcieUp = true →
      (0 < eid.val → eid.val < 255 → Gives (.setEndpointId src eid) s (fun t => fget t CMD_MCTP CMD_MCTP_EID = eid
        ∧ t.out = .mctpControl src 1 0 [0, eid, 0] :: s.out ∧ RegsKept [CMD_MCTP] s t ∧ t = { s with regs := t.regs, out := t.out }))
      ∧ Gives (.getEndpointId src) s (fun t =>
        t = { s with out := .mctpControl src 2 0 [fget s CMD_MCTP CMD_MCTP_EID, 0, 0] :: s.out })
      ∧ Gives (.getMctpVersionSupport src) s (fun t => t = { s with out := .mctpControl src 4 0 [1, 0xF1, 0xF3, 0xFF, 0] :: s.out })
      ∧ Gives (.getMessageTypeSupport src) s (fun t => t = { s with out := .mctpControl src 5 0 [2, 0x05, 0x7E] :: s.out })
      ∧ Gives (.getVendorDefinedMsgSupport src) s (fun t =>
        t = { s with out := .mctpControl src 6 0 [0xFF, 0, 0x1F, 0x3C, 0, 0] :: s.out }))

/-- The device and configuration opcodes answer, echo, read and write registers, and place the result ring when IDLE.
(R291, R298, R299, R304, R311) -/
def Obligations.DeviceOpcodesAnswerFromTheRegisters : Prop :=
  ∀ (h : CmdHead) (v : Word) (ps : List Word) (s : State), RegsCanonical s →
    (Ready h 0x0104 s → ps.length ≤ 1019 → OnlyReads (.echo h ps) h 0x0104 ps (ps.map BitVec.toNat) s)
    ∧ (Ready h 0x0102 s → OnlyReads (.devState h []) h 0x0102 [] [(rd s DEV_RUN).toNat, (rd s CMD_LAST_SEQ_LO).toNat,
        (rd s CMD_LAST_SEQ_HI).toNat, s.lastTov % 2 ^ 32, (rd s SLC_GOV_LEVEL).toNat, (rd s SLC_GOV_RATE).toNat,
        fget s SPR_VERDICT SPR_VERDICT_VERDICT] s)
    ∧ (Ready h 0x0101 s → ∃ version units, OnlyReads (.devInfo h []) h 0x0101 []
        [(rd s DEV_ID).toNat, (rd s DEV_SERIAL_LO).toNat, (rd s DEV_SERIAL_HI).toNat, version, units] s)
    ∧ (Ready h 0x0103 s → Gives (.devErrors h []) s (fun t => Answered h 0x0103 [] stOk [(rd s DEV_ACCESS_ERR).toNat] s t
        ∧ rd t DEV_ACCESS_ERR = 0 ∧ RegsKept [DEV_ACCESS_ERR] s t ∧ t = { s with regs := t.regs, cmds := t.cmds }))
    ∧ (Ready h 0x0201 s → assocGet s.shadow CMD_MIR_CFG = none →
      OnlyReads (.regRead h [BitVec.ofNat 32 CMD_MIR_CFG, 1]) h 0x0201 [BitVec.ofNat 32 CMD_MIR_CFG, 1] [(rd s CMD_MIR_CFG).toNat] s)
    ∧ (Ready h 0x0202 s → runState s = stIdle → mirCfgBad v = false → Gives (.regWrite h [BitVec.ofNat 32 CMD_MIR_CFG, 1, v]) s (fun t =>
        Answered h 0x0202 [BitVec.ofNat 32 CMD_MIR_CFG, 1, v] stOk [] s t ∧ rwChanges CMD_MIR_CFG v t = false
        ∧ RegsKept [CMD_MIR_CFG] s t ∧ t = { s with regs := t.regs, cmds := t.cmds }))
    ∧ (Ready h 0x0203 s → ps.length = 9 → resultBad (ps.map BitVec.toNat) s = false →
      (runState s = stIdle → Gives (.resultConfig h ps) s (fun t => Answered h 0x0203 ps stOk [] s t
        ∧ rd64 t CMD_RES_BASE_LO = param ps 0 + 2 ^ 32 * param ps 1 ∧ rwChanges CMD_RES_SLOTS (nth ps 2 0) t = false
        ∧ rd64 t CMD_MIR_BASE_LO = param ps 3 + 2 ^ 32 * param ps 4 ∧ rd64 t CMD_MIR_IDX_LO = param ps 5 + 2 ^ 32 * param ps 6
        ∧ rwChanges CMD_MIR_CFG (nth ps 7 0) t = false ∧ fget t CMD_RES_CTRL CMD_RES_CTRL_MIRROR_EN = param ps 8 / 2
        ∧ RegsKept [CMD_RES_BASE_LO, CMD_RES_BASE_HI, CMD_RES_SLOTS, CMD_MIR_BASE_LO, CMD_MIR_BASE_HI, CMD_MIR_IDX_LO, CMD_MIR_IDX_HI,
            CMD_MIR_CFG, CMD_RES_CTRL] s t ∧ t = { s with regs := t.regs, cmds := t.cmds }))
      ∧ (runState s ≠ stIdle → Gives (.resultConfig h ps) s (fun t => Answered h 0x0203 ps stBusy [] s t ∧ t = { s with cmds := t.cmds })))
    ∧ (Ready h 0x0204 s → Gives (.resultStatus h []) s (fun t => Answered h 0x0204 [] stOk [(rd s CMD_RES_CTRL).toNat,
        (rd s CMD_MIR_IDX_TAIL).toNat, (rd s CMD_LAST_SEQ_LO).toNat, (rd s CMD_LAST_SEQ_HI).toNat, (rd s CMD_UNPUBLISHED).toNat,
        (rd s CMD_MIRROR_SKIP).toNat, (rd s CMD_NO_VERDICT).toNat] s t
        ∧ RegsKept [CMD_UNPUBLISHED, CMD_MIRROR_SKIP, CMD_NO_VERDICT] s t
        ∧ rd t CMD_UNPUBLISHED = 0 ∧ rd t CMD_MIRROR_SKIP = 0 ∧ rd t CMD_NO_VERDICT = 0 ∧ t = { s with regs := t.regs, cmds := t.cmds }))

/-- SOLVE begins a solve or a NOT_RUN section, and a return or its deadline stores the solution and ends the stage.
(R249, R250, R256, R257, R262, R263, R265, R266, R272) -/
def Obligations.SolveStageRunsOneSolveAndEndsWithItsSection : Prop :=
  ∀ (r : SliceRec) (s : State), StoresCanonical s → mainRuns s = true →
    (stageDue sgSolve (hasEnded sgTrack) s = some r → mayGoOn s = true → s.img.slvPending = false → solverUp s = true →
      (fbit s SLV_CTRL SLV_CTRL_EN = false → Gives .solveStart s (fun t =>
        (∀ q ∈ t.slices, q.seq = r.seq → hasBegun sgSolve q = true ∧ q.secC.length = 16 ∧ nth q.secC 0 0 = 5)
        ∧ t.slices.map SliceRec.seq = s.slices.map SliceRec.seq ∧ t.slv = s.slv ∧ MemoryKept s t))
      ∧ (∀ (w : WorkList) (m : Nat × Nat), fbit s SLV_CTRL SLV_CTRL_EN = true → sliceList r s = some w → s.img.slvActive = some m →
        workFits w m.1 s = true → Gives .solveStart s (fun t =>
          (∃ j, t.slv.job = some j ∧ j.seq = r.seq ∧ j.test = none ∧ j.tov = r.tov ∧ j.model = m.1
            ∧ j.block = getBytes s.dome (workAddr w s) (smParamBytes m.1 s) ∧ j.started = upNs s ∧ (fbit s SLV_CTRL SLV_CTRL_COLD_REQ = true → j.cold = true))
          ∧ (∀ q ∈ t.slices, q.seq = r.seq → hasBegun sgSolve q = true) ∧ t.slices.map SliceRec.seq = s.slices.map SliceRec.seq
          ∧ fbit t SLV_STATUS SLV_STATUS_BUSY = true ∧ fbit t SLV_CTRL SLV_CTRL_COLD_REQ = false
          ∧ fget t (BLF_CMP_VAL 1) fWord = (r.tov + fget s SLV_DEADLINE SLV_DEADLINE_US * 1000) % 2 ^ 32
          ∧ fbit t (BLF_CMP_CTRL 1) BLF_CMP_CTRL_ARM = true
          ∧ fget t SLV_SOLVES fWord = min (2 ^ 32 - 1) (fget s SLV_SOLVES fWord + 1)
          ∧ (∀ a, (a < workAddr w s + up8k (smParamBytes m.1 s) ∨ workAddr w s + up8k (smParamBytes m.1 s) + smAsmBytes m.1 s ≤ a)
              → domeByte t a = domeByte s a) ∧ t.lpddr = s.lpddr ∧ t.hostMem = s.hostMem)))
    ∧ (∀ (j : SlvJob) (c : Instr), stageEnding sgSolve s = some r → s.slv.job = some j → j.seq = r.seq → j.test = none →
      s.stopAbandon = false → (c = .solveReturn ∧ cmpReached 1 s = false ∨ ∃ place, c = .solveDeadline place ∧ (outDeadline place j s).isSome = true) →
      Gives c s (fun t =>
        t.slv.job = none ∧ (∃ x, t.slv.stored = some x ∧ x.tov = j.tov)
        ∧ fbit t SLV_STATUS SLV_STATUS_BUSY = false ∧ fbit t (BLF_CMP_CTRL 1) BLF_CMP_CTRL_ARM = false
        ∧ .kick sgSolve r.seq ∈ t.bridgeUp
        ∧ (c = .solveReturn → j.badInput = true → j.late = false → fget t SLV_LAST_WORD0 fWord % 256 = 4
            ∧ .fault 28 (flatUnit flatAssembly) ∈ t.bridgeUp)
        ∧ (∀ place, c = .solveDeadline place → fget t SLV_LAST_WORD0 fWord % 256 = (match place with | .refining _ => 0 | _ => 1))
        ∧ (∃ q ∈ t.slices, q.seq = r.seq ∧ hasEnded sgSolve q = true ∧ 16 ≤ q.secC.length
            ∧ (∀ a, (a < slotAddr r.seq s + offControl ∨ slotAddr r.seq s + offControl + 4 * q.secC.length ≤ a)
              → ddrByte t a = ddrByte s a))
        ∧ (∀ a, (a < 0x05D00000 ∨ 0x05D10000 ≤ a) → domeByte t a = domeByte s a) ∧ t.hostMem = s.hostMem))

/-- The solver opcodes load, activate and discard a model, store the configuration, answer the counters and run a test
solve. (R255, R257, R272, R273, R274, R473) -/
def Obligations.SolverOpcodesLoadSwitchConfigureAndTest : Prop :=
  ∀ (h : CmdHead) (al ah nl crc : Word) (ps : List Word) (s : State), RegsCanonical s → partFenced partSolver s = false →
    (∀ a n : Nat, a = al.toNat + 2 ^ 32 * ah.toNat → n = nl.toNat → Ready h 0x0701 s → 4 ≤ n → n ≤ 2 ^ 24 → placeBad a n s = false →
      s.img.slvStandby = none → crc32c (getBytes s.lpddr a (n - 4)) = crc.toNat →
      ofBytes (getBytes s.lpddr (a + n - 4) 4) = crc.toNat → slvReasons a n s = [] →
      Gives (.slvModelLoad h [al, ah, nl, crc]) s (fun t => t.img.slvStandby = some (a, n) ∧ t.img.slvActive = s.img.slvActive
        ∧ Answered h 0x0701 [al, ah, nl, crc] stOk [0, smWord a 2 s, smWord a 3 s, smWord a 4 s, smWord a 5 s] s t
        ∧ t = { s with regs := t.regs, img := t.img, cmds := t.cmds }))
    ∧ (∀ m : Nat × Nat, Ready h 0x0702 s → s.img.slvStandby = some m → s.img.slvPending = false →
      (running s = false → Gives (.slvModelActivate h []) s (fun t => Answered h 0x0702 [] stOk [0] s t ∧ t.img.slvActive = some m
        ∧ t.img.slvStandby = s.img.slvActive ∧ t.slv.fresh = true ∧ fbit t SLV_STATUS SLV_STATUS_MODEL_ACTIVE = true
        ∧ t = { s with regs := t.regs, img := t.img, slv := t.slv, cmds := t.cmds }))
      ∧ (running s = true → Gives (.slvModelActivate h []) s (fun t => Answered h 0x0702 [] stOk [nextSolveTov s] s t
        ∧ t.img.slvPending = true ∧ t.img.slvActive = s.img.slvActive ∧ fbit t SLV_STATUS SLV_STATUS_ACTIVATE_PENDING = true
        ∧ t = { s with regs := t.regs, img := t.img, cmds := t.cmds })))
    ∧ (Ready h 0x0703 s → s.img.slvStandby.isSome = true → Gives (.slvModelDiscard h []) s (fun t => Answered h 0x0703 [] stOk [] s t
        ∧ t.img.slvStandby = none ∧ t.img.slvPending = false ∧ t = { s with regs := t.regs, img := t.img, cmds := t.cmds }))
    ∧ (Ready h 0x0703 s → s.img.slvStandby = none → Gives (.slvModelDiscard h []) s (fun t =>
        Answered h 0x0703 [] stNoResource [] s t ∧ t = { s with cmds := t.cmds }))
    ∧ (Ready h 0x0704 s → ps.length = 9 → running s = false → (nth ps 0 0).toNat ≤ 3 →
      (∀ i < 8, reservedSet (nth slvImages (i + 1) 0) (param ps (i + 1)) = false) →
      slvDeadlineBad (nth ps 1 0) = false → slvLimitsBad (nth ps 2 0) = false → fp32Below (param ps 3) (param ps 4) = true →
      fp32Pos (param ps 5) = true → fp32Pos (param ps 6) = true → fp32Pos (param ps 7) = true →
      Gives (.slvConfig h ps) s (fun t => Answered h 0x0704 ps stOk [] s t
        ∧ (∀ i < 9, rwChanges (nth slvImages i 0) (nth ps i 0) t = false)
        ∧ fbit t SLV_CTRL SLV_CTRL_COLD_REQ = (bitOf 1 (param ps 0) || fbit s SLV_CTRL SLV_CTRL_COLD_REQ)
        ∧ RegsKept slvImages s t ∧ t = { s with regs := t.regs, cmds := t.cmds }))
    ∧ (Ready h 0x0705 s → Gives (.slvStatus h []) s (fun t =>
        Answered h 0x0705 [] stOk ([slvStatusWord s, fget s SLV_LAST_WORD0 fWord, fget s SLV_LAST_WORD2 fWord,
          fget s SLV_LAST_RESIDUAL fWord, fget s SLV_LAST_TIME fWord] ++ slvCounters.map (fun a => fget s a fWord)) s t
        ∧ (∀ a ∈ slvCounters, fget t a fWord = 0) ∧ RegsKept slvCounters s t ∧ t = { s with regs := t.regs, cmds := t.cmds }))
    ∧ (∀ (p o : Word) (w : WorkList) (m : Nat × Nat), Ready h 0x0706 s → s.img.active = some w → s.img.slvActive = some m →
      w.base ≤ p.toNat → p.toNat < w.base + wlDomeBytes w s → w.base ≤ o.toNat → o.toNat < w.base + wlDomeBytes w s →
      running s = false → s.slv.job = none →
      (fbit s SLV_CTRL SLV_CTRL_EN = true → workBad s = false → Gives (.slvTestSolve h [p, o]) s (fun t =>
        (∃ j, t.slv.job = some j ∧ j.test = some o.toNat ∧ j.block = getBytes s.dome p.toNat (smParamBytes m.1 s) ∧ j.model = m.1)
        ∧ fbit t SLV_STATUS SLV_STATUS_BUSY = true ∧ t.cmds = s.cmds ++ [executed h 0x0706 [p, o] s none]
        ∧ (∀ a, (a < workAddr w s + up8k (smParamBytes m.1 s) ∨ workAddr w s + up8k (smParamBytes m.1 s) + smAsmBytes m.1 s ≤ a)
            → domeByte t a = domeByte s a) ∧ t.lpddr = s.lpddr ∧ t.hostMem = s.hostMem))
      ∧ (fbit s SLV_CTRL SLV_CTRL_EN = false ∨ workBad s = true → Gives (.slvTestSolve h [p, o]) s (fun t =>
        (∃ ws, Answered h 0x0706 [p, o] stOk (5 :: ws) s t) ∧ t.slv = s.slv
        ∧ (∀ a, (a < o.toNat ∨ o.toNat + 64 ≤ a) → domeByte t a = domeByte s a) ∧ t.lpddr = s.lpddr ∧ t.hostMem = s.hostMem)))

/-- A port read returns its word, ticks and kicks are taken in, and a missing tick or kick latches its bit. (R314,
R315, R316, R323, R324, R338, R339) -/
def Obligations.TheSpireWatchesTicksAndKicksAndAnswersItsPort : Prop :=
  ∀ (d : Nat) (s : State), RegsCanonical s → spireRuns s = true →
    (∀ addr : Fin 64, Gives (.vpRead d addr) s (fun t => ∃ v, t.vpData = some v ∧ t.spr.now = s.spr.now + d
      ∧ (addr.val = 0 → ∃ ws, t.spr.latch = some ws ∧ ws.length = 16 ∧ v = nth ws 0 0)
      ∧ (∀ ws, 0 < addr.val → addr.val < 16 → s.spr.latch = some ws → v = nth ws addr 0)
      ∧ (addr.val = 0x10 → v = fget t SPR_VERDICT SPR_VERDICT_VERDICT) ∧ (addr.val = 0x11 → v = (s.spr.now + d) / 4000 % 65536)
      ∧ (addr.val = 0x3E → v = 0x8740) ∧ (addr.val = 0x3F → v = 1) ∧ SpireOnly s t))
    ∧ Gives .vpHeartbeat s (fun t => t.spr.now = (s.spr.now / 4000 + 1) * 4000 ∧ SpireOnly s t)
    ∧ (∀ (l : Nat) (n : Option Nat) (rest : List UpMsg), s.bridgeUp = .tick l n :: rest →
      Gives (.sliceTick d true) s (fun t => t.bridgeUp = rest ∧ t.spr.ticks.head? = some (s.spr.now + d, l) ∧ t.spr.missed = false
        ∧ (∀ q, n = some q → ∃ w ∈ t.spr.slices, w.seq = q ∧ w.start = s.spr.now + d ∧ w.kicked = 0) ∧ SpireOnly s t)
      ∧ Gives (.sliceTick d false) s (fun t => t.bridgeUp = rest ∧ bitOf 5 (faultSum t) = true ∧ SpireOnly s t))
    ∧ (∀ (k : Nat × Nat) (ks : List (Nat × Nat)), s.spr.ticks = k :: ks → s.spr.suspended = false → s.spr.missed = false →
      Gives .tickMissing s (fun t => t.spr.now = max s.spr.now (tickLimit k.1 s) ∧ t.spr.missed = true ∧ bitOf 6 (faultSum t) = true
        ∧ fbit t SPR_STATE SPR_STATE_VALID_PIN = false ∧ fbit t SPR_STATE SPR_STATE_FAULT_PIN = true ∧ SpireOnly s t))
    ∧ (∀ (n q : Nat) (w : SprSlice) (rest : List UpMsg), s.bridgeUp = .kick n q :: rest → n < 8 →
      s.spr.slices.find? (fun w => w.seq == q) = some w → Gives (.stageKick d true) s (fun t => t.bridgeUp = rest
        ∧ (t.spr.slices.find? (fun w => w.seq == q)).all (fun v => bitOf n v.kicked) = true
        ∧ (bitOf n w.kicked = false → s.spr.now + d < winOpen w n s → bitOf (8 + n) (faultSum t) = true) ∧ SpireOnly s t))
    ∧ (∀ (n : Fin 8) (w : SprSlice), s.spr.slices = [w] → (∀ m < 8, bitOf m w.kicked = decide (m ≠ n.val)) →
      (bitOf n w.late = false → Gives .wwdCloseExpiry s (fun t => t.spr.now = max s.spr.now (winClose w n s)
        ∧ bitOf (8 + n.val) (faultSum t) = true ∧ fbit t SPR_STATE SPR_STATE_VALID_PIN = false ∧ SpireOnly s t))
      ∧ (bitOf n w.asked = false → Gives .wwdResetTimeout s (fun t => t.spr.now = max s.spr.now (winClose w n s + cycNs w.len)
        ∧ .resetReq 2 (wwdPart n) noFlat (8 + n.val) ∈ t.bridgeDown ∧ SpireOnly s t)))

/-- Fault reports latch bits, notices end windows, and a hardware fault, VALID_HOLD and a reset act at once. (R320,
R322, R334, R336, R357, R365, R373, R438, R440, R470) -/
def Obligations.ReportsAndNoticesReachTheSpire : Prop :=
  ∀ (d : Nat) (s : State), RegsCanonical s →
    (spireRuns s = true →
      (∀ (b u : Nat) (rest : List UpMsg), b < 40 → s.bridgeUp = .fault b u :: rest → Gives (.faultReport d true) s (fun t =>
        bitOf b (faultSum t) = true ∧ t.bridgeUp = rest ∧ t.spr.now = s.spr.now + d ∧ SpireOnly s t))
      ∧ (∀ (q : Nat) (rest : List UpMsg), s.bridgeUp = .abandon q :: rest → Gives (.abandonNotice d true) s (fun t =>
        (∀ w ∈ t.spr.slices, w.seq ≠ q) ∧ (∀ c ∈ t.spr.copies, copySeq c ≠ q) ∧ t.bridgeUp = rest ∧ SpireOnly s t))
      ∧ (∀ (l : Nat) (bits : List Nat) (rest : List UpMsg), s.bridgeUp = .recoveryDone l bits :: rest →
        Gives (.recoveryCompleteReport d true) s (fun t =>
        (l ≤ 1 → (∀ b < 40, (bitNote b t).pends = 0) ∧ (bitNote 37 t).conds = 0 ∧ (bitNote 38 t).conds = 0)
        ∧ (2 ≤ l → (∀ b < 40, (bitNote b t).pends = (bitNote b (sprAt d s)).pends - bits.count b)
          ∧ (bitNote 37 t).conds = (bitNote 37 (sprAt d s)).conds - 1) ∧ t.bridgeUp = rest ∧ SpireOnly s t))
      ∧ (∀ (k : Nat) (rest : List UpMsg), s.bridgeUp = .scopes k :: rest → s.pwr.freezeIn = false →
        Gives (.scopeReport d true) s (fun t => t.spr.scopes = k ∧ t.spr.forced = false ∧ t.bridgeUp = rest ∧ SpireOnly s t))
      ∧ (∀ b : Fin 5, Gives (.spireHardwareFault d b) s (fun t => bitOf b.val (faultSum t) = true
        ∧ fget t SPR_STATE SPR_STATE_STATE = stSpireFail ∧ fbit t SPR_STATE SPR_STATE_VALID_PIN = false
        ∧ fbit t SPR_STATE SPR_STATE_FAULT_PIN = true ∧ SpireOnly s t))
      ∧ (∀ v : Nat, s.spr.validAt = some v → Gives .validHoldExpiry s (fun t => t.spr.validAt = none
        ∧ fbit t SPR_STATE SPR_STATE_VALID_PIN = false ∧ t.spr.now = max s.spr.now (v + cycUs (cfgHold s)) ∧ SpireOnly s t)))
    ∧ (∀ rest : List UpMsg, spireRuns s = true → s.bridgeUp = .resetNotice :: rest → Gives (.resetNotice d true) s (fun t =>
        t.spr.suspended = true ∧ t.spr.slices = [] ∧ t.spr.scopes = 0 ∧ t.spr.sawReset = !resetAhead s
        ∧ t.bridgeUp = rest ∧ SpireOnly s t))
    ∧ Gives .spireReset s (fun t => t.spr = SpireState.reset ∧ t.pwr.spireUp = true
        ∧ (∀ a, 0x00C00000 ≤ a → a < 0x00D00000 → rd t a = resetWord a) ∧ (∀ a, (a < 0x00C00000 ∨ 0x00D00000 ≤ a) → a ≠ MSIX_PBA → rd t a = rd s a)
        ∧ (mainRuns s = false → rd t MSIX_PBA = rd s MSIX_PBA ∧ t.out = s.out)
        ∧ t = { s with regs := t.regs, spr := t.spr, bridgeUp := [], bridgeDown := [], goldRes := 34500, pwr := t.pwr, out := t.out })

/-- A header copy is judged once with a verdict, and the Spire's tasks and inputs keep its references. (R313, R324,
R325, R326, R328, R329, R333, R334, R344, R346, R347, R353) -/
def Obligations.TheSpireJudgesAndKeepsItsReferences : Prop :=
  ∀ (d : Nat) (s : State), RegsCanonical s → spireRuns s = true →
    (∀ (hw e c u : List Nat) (rest : List UpMsg), s.bridgeUp = .header hw e c u :: rest → ∀ gi : Bool, Gives (.headerCopyRx d true gi) s (fun t =>
      (gi = false → (∃ rot clear vs, .gold (nth hw 2 0 + 2 ^ 32 * nth hw 3 0) rot clear vs ∈ rest) → bitOf 5 (faultSum t) = true)
      ∧ (∃ x, t.spr.copies = s.spr.copies ++ [x] ∧ x.header = hw ∧ x.inputs = u ∧ x.arrived = s.spr.now + d)
      ∧ t.spr.lastCopy = some (s.spr.now + d) ∧ SpireOnly s t))
    ∧ (∀ (c : SprCopy) (rest : List SprCopy), s.spr.copies = c :: rest → Gives (.judge d) s (fun t => t.spr.copies = rest
      ∧ fget t SPR_SEQ fWord = copySeq c % 2 ^ 32
      ∧ (∃ ms word x, t.bridgeDown = ms ++ [.verdict (copySeq c) word x]
        ∧ (bitOf 0 word = true → fbit t SPR_STATE SPR_STATE_VALID_PIN = true ∧ fget t SPR_STATE SPR_STATE_STATE = stNormal
          ∧ t.spr.validAt = some (s.spr.now + d))
        ∧ (bitOf 0 word = false → fbit t SPR_STATE SPR_STATE_VALID_PIN = false ∧ t.spr.validAt = none)) ∧ SpireOnly s t))
    ∧ (∀ (q n r : Nat) (rot trans : List Rat) (dt : Rat) (sum : List Rat × List Rat × Int) (v : SprVerdict) (rest : List UpMsg),
      s.bridgeUp = .calStep q n rot trans dt r sum :: rest → s.spr.verdicts.find? (fun v => v.seq == q) = some v →
      taskMay tkCal (sprAt d s) = true → Gives (.calJudge d true) s (fun t => t.bridgeUp = rest
        ∧ (∃ ms yes, t.bridgeDown = ms ++ [.calReply q n yes] ∧ (v.valid = false → yes = false)) ∧ SpireOnly s t)
        ∧ Gives (.calJudge d false) s (fun t => t.bridgeUp = rest ∧ bitOf 5 (faultSum t) = true ∧ SpireOnly s t))
    ∧ (taskMay tkTap (sprAt d s) = true → Gives (.tapTask d) s (fun t => t.spr.tapsOwed = s.spr.tapsOwed.drop 1
        ∧ t.spr.taps = s.spr.taps + (if s.spr.tapsOwed = [] then 1 else 0) ∧ t.spr.now = s.spr.now + d ∧ SpireOnly s t))
    ∧ (taskMay tkStatus (sprAt d s) = true →
      Gives (.spireStatusTask d) s (fun t => t.spr.statuses = s.spr.statuses + 1 ∧ t.spr.now = s.spr.now + d ∧ SpireOnly s t))
    ∧ (quantumMay (sprAt d s) = true →
      (s.spr.quantum + 1 < 632 → Gives (.selftestQuantum d true true) s (fun t => t.spr.quantum = s.spr.quantum + 1
        ∧ t.spr.now = s.spr.now + d + cycUs 20 ∧ SpireOnly s t))
      ∧ (631 ≤ s.spr.quantum → Gives (.selftestQuantum d true true) s (fun t => t.spr.quantum = 0 ∧ t.spr.tested = true ∧ SpireOnly s t))
      ∧ Gives (.selftestQuantum d false true) s (fun t => bitOf 2 (faultSum t) = true ∧ t.spr.quantum = s.spr.quantum ∧ SpireOnly s t)
      ∧ (∀ pass : Bool, Gives (.selftestQuantum d pass false) s (fun t => bitOf 39 (faultSum t) = true
        ∧ (pass = false → bitOf 2 (faultSum t) = true) ∧ SpireOnly s t)))
    ∧ (∀ bytes : List Nat, cfgHeld s = true → (∀ w ∈ [34, 35], ∀ lo ∈ [0, 8, 16], (sprImuField (cfgWord w s) lo bytes s).isSome = true) →
      Gives (.spireImuSample d bytes) s (fun t => t.spr.refs.imuAt = s.spr.now + d ∧ SpireOnly s t))
    ∧ (∀ (ident : Nat) (data : List Nat) (k : Fin 4), cfgHeld s = true → s.spr.refs.wheels.length = 4 → wheelUsed k s = true →
      natField 28 0 (cfgWord (26 + 2 * k) s) = ident → natField 7 0 (cfgWord (27 + 2 * k) s) + 2 ≤ data.length →
      Gives (.spireWheelFrame d ident data) s (fun t => (nth t.spr.refs.wheels k none).map Prod.fst = some (s.spr.now + d) ∧ SpireOnly s t))
    ∧ (∀ (i stamp : Nat) (bs : List Nat) (rest : List UpMsg), s.bridgeUp = .tapPoint i stamp bs :: rest → cfgHeld s = true →
      (∀ lo ∈ [0, 8, 16], tapCoord i lo bs s ≠ .nan) → Gives (.tapPointRx d true) s (fun t => t.bridgeUp = rest
        ∧ (∃ x, t.spr.points = (sprAt d s).spr.points ++ [x] ∧ x.arrived = s.spr.now + d) ∧ SpireOnly s t))
    ∧ (cfgHeld s = true → (bitNote 33 s).conds = 0 → Gives .tapImuTimeout s (fun t => bitOf 33 (faultSum t) = true ∧ SpireOnly s t))
    ∧ (cfgHeld s = true → s.spr.refs.differs = true → s.spr.refs.bad = false →
      yawDiffers (sprAdvance (s.spr.refs.since + cycMs 100 - s.spr.now) s) = true →
      Gives .tapWheelDisagree s (fun t => bitOf 34 (faultSum t) = true ∧ t.spr.refs.bad = true ∧ SpireOnly s t))

/-- The safety opcodes answer the Spire's words, take or drop its configuration and image, clear bits, test pins and
inject. (R320, R352, R353, R354, R470, R473) -/
def Obligations.SafetyOpcodesConfigureAndExerciseTheSpire : Prop :=
  ∀ (h : CmdHead) (ps : List Word) (s : State), RegsCanonical s → spireRuns s = true →
    (Ready h 0x0801 s → Gives (.safeStatus h []) s (fun t => Answered h 0x0801 [] stOk ([SPR_STATE, SPR_VERDICT, SPR_FAULT_LO,
        SPR_FAULT_HI, SPR_GOLD, SPR_SELFTEST, SPR_CFG_CRC, SPR_GOLD_CRC].map (fun a => (rd s a).toNat)) s t
        ∧ RegsKept [SPR_STATE, MSIX_PBA] s t ∧ t = { s with regs := t.regs, spr := t.spr, out := t.out, cmds := t.cmds }))
    ∧ (Ready h 0x0802 s →
      (cfgFailing (ps.map BitVec.toNat) = none → running s = false → Gives (.safeConfig h ps) s (fun t =>
        Answered h 0x0802 ps stOk [crc32c (bytesOfWords (ps.map BitVec.toNat))] s t ∧ t.spr.config = ps.map BitVec.toNat
        ∧ fget t SPR_CFG_CRC fWord = crc32c (bytesOfWords (ps.map BitVec.toNat)) % 2 ^ 32 ∧ MemoryKept s t))
      ∧ (∀ i, cfgFailing (ps.map BitVec.toNat) = some i → Gives (.safeConfig h ps) s (fun t => Answered h 0x0802 ps stParam [i] s t
        ∧ t.spr.config = [] ∧ rd t SPR_CFG_CRC = 0 ∧ t.goldRes = 34500 ∧ MemoryKept s t)))
    ∧ (∀ (al ah nl crc : Word) (w : WorkList), w = ⟨al.toNat + 2 ^ 32 * ah.toNat, nl.toNat, 0⟩ → Ready h 0x0803 s → 4 ≤ w.len →
      w.len ≤ 2 ^ 21 → placeBad w.addr w.len s = false → running s = false →
      crc32c (getBytes s.lpddr w.addr (w.len - 4)) = crc.toNat → ofBytes (getBytes s.lpddr (w.addr + w.len - 4) 4) = crc.toNat →
      goldImageOk w s = true → Gives (.goldLoad h [al, ah, nl, crc]) s (fun t =>
        Answered h 0x0803 [al, ah, nl, crc] stOk [8, crc.toNat] s t ∧ fbit t SPR_GOLD SPR_GOLD_LOADED = true
        ∧ rd t SPR_GOLD_CRC = crc ∧ MemoryKept s t))
    ∧ (∀ lo hi : Word, Ready h 0x0804 s → safetyState s ≠ stSpireFail → fbit s SPR_GOLD SPR_GOLD_LOADED = true →
      Gives (.safeClear h [lo, hi]) s (fun t => Answered h 0x0804 [lo, hi] stOk [faultSum t % 2 ^ 32, faultSum t / 2 ^ 32] s t
        ∧ (∀ b < 40, bitOf b (faultSum t) = (bitOf b (faultSum s)
            && !(bitOf b (lo.toNat + 2 ^ 32 * hi.toNat) && (faultCat b s == 4 || faultCat b s == 2) && (bitNote b s).conds == 0)))
        ∧ t.goldClear = true ∧ MemoryKept s t))
    ∧ (Ready h 0x0805 s → pinsBusy s = false → Gives (.safePinTest h []) s (fun t => Answered h 0x0805 [] stOk [15] s t
        ∧ .pinTest true true ∈ t.out ∧ .pinTest false false ∈ t.out ∧ MemoryKept s t))
    ∧ (∀ b : Word, Ready h 0x0806 s → 5 ≤ b.toNat → b.toNat ≤ 39 → faultCat b.toNat s ≠ 0 → pinsBusy s = false →
      Gives (.safeInject h [b]) s (fun t => Answered h 0x0806 [b] stOk [] s t ∧ bitOf b.toNat (faultSum t) = true
        ∧ t.dome = s.dome ∧ t.hostMem = s.hostMem))

/-- POR and RST_IN_n reset the main die, PERST_n the PCIe core, a lost supply its die; release and boot bring it back.
(R35, R356, R357, R362, R363, R367, R423, R447, R448, R454, R467, R470) -/
def Obligations.PinsSuppliesAndBootResetTheDies : Prop :=
  ∀ s : State, RegsCanonical s →
    (s.rcv = [] → Gives .por s (fun t => t.pwr.mainUp = true ∧ t.pwr.mainHeld = true ∧ t.pwr.booted = false ∧ t.pwr.pcieUp = false
        ∧ t.dome = [] ∧ t.lpddr = [] ∧ t.time = 0 ∧ t.hostMem = s.hostMem ∧ t.pending = s.pending
        ∧ fget t RST_CAUSE RST_CAUSE_CAUSE = 1 ∧ .rstOut true ∈ t.out
        ∧ (∃ r, t.rcv = [r] ∧ r.level = 0 ∧ r.source = srcPor ∧ r.step = .reset)
        ∧ (spireOn s = true → fbit t SPR_GOLD SPR_GOLD_LOADED = false)
        ∧ (∀ a, (a < 0x00C00000 ∨ 0x00D00000 ≤ a) → a ∉ [RST_CAUSE, RST_LAST, RST_LAST_TIME] → rd t a = resetWord a)))
    ∧ (s.rcv = [] → s.pwr.mainUp = true → s.pwr.spireUp = true → Gives .rstIn s (fun t => t.pwr.rstIn = true ∧ t.pwr.spireHeld = true
        ∧ t.spr.config = [] ∧ (∃ r ∈ t.rcv, r.level ≤ 1 ∧ r.source = srcRstIn ∧ r.holding = true)
        ∧ bitOf srcRstIn (fget t RST_CAUSE RST_CAUSE_CAUSE) = true ∧ t.pending = s.pending))
    ∧ Gives .rstInRelease s (fun t => t.pwr.rstIn = false ∧ t.pwr.spireHeld = false ∧ (∀ r ∈ t.rcv, r.holding = false)
        ∧ t = { s with pwr := t.pwr, rcv := t.rcv })
    ∧ Gives .perst s (fun t => t.pwr.perst = true ∧ t.pwr.pcieUp = false
        ∧ (∀ a, MSIX_ADDR_LO 0 ≤ a → a ≤ MSIX_PBA_HI → rd t a = resetWord a)
        ∧ (∀ a, (a < MSIX_ADDR_LO 0 ∨ MSIX_PBA_HI < a) → rd t a = rd s a)
        ∧ t = { s with regs := t.regs, pwr := t.pwr, heldLow := t.heldLow, pci := PciConfig.reset })
    ∧ (s.pwr.mainUp = true → s.pwr.mainHeld = false → s.pwr.frozen = false → Gives .perstRelease s (fun t =>
        t = { s with pwr := { s.pwr with perst := false, pcieUp := true } }))
    ∧ (∀ main spire : Bool, Gives (.powerLoss main spire) s (fun t =>
        (main = true → s.pwr.mainUp = true → t.pwr.mainUp = false ∧ t.dome = [] ∧ t.lpddr = [] ∧ t.rcv = [] ∧ t.cmds = [])
        ∧ (main = false → t.dome = s.dome ∧ t.lpddr = s.lpddr ∧ t.time = s.time ∧ t.pwr.mainUp = s.pwr.mainUp)
        ∧ (spire = true → s.pwr.spireUp = true → t.pwr.spireUp = false ∧ t.spr = SpireState.reset ∧ t.vpData = none)
        ∧ t.hostMem = s.hostMem ∧ t.pending = s.pending))
    ∧ (∀ (bad : List Nat) (r : Recovery), s.pwr.mainUp = true → s.pwr.frozen = false →
      rcvFind (fun r => r.step == .reset && !r.holding) s = some r → Gives (.resetRelease bad) s (fun t =>
        (r.level ≤ 1 → t.pwr.mainHeld = false ∧ t.pwr.pcieUp = !s.pwr.perst)
        ∧ (2 ≤ r.level → ∀ f ∈ rcvFlats r, unitHeld f t = false) ∧ (∃ q ∈ t.rcv, q.level = r.level ∧ q.step = .rebuild)
        ∧ (r.pinned = true → (∀ q ∈ s.rcv, q.pinned = true → q = r) → .rstOut false ∈ t.out) ∧ t.hostMem = s.hostMem
        ∧ (r.level ≤ 1 ∨ flatAttention ∉ rcvFlats r ∨ s.attn.journal = none → MemoryKept s t)))
    ∧ (booting false s = true →
      (descCurrent s.cup = none → Gives .bootRom s (fun t => fbit t CUP_STATUS CUP_STATUS_ROM_RECOVERY = true
        ∧ runState t = stOutOfService ∧ t.pwr.booted = true ∧ MemoryKept s t))
      ∧ (∀ (d : BootDesc) (isA : Bool), descCurrent s.cup = some (d, isA) → d.trial = false → d.active ≤ 1 →
        Gives .bootRom s (fun t =>
          (romCheck d.active s = 0 → t.cup.loaded = true ∧ fget t CUP_FW CUP_FW_BANK = d.active
            ∧ fbit t CUP_FW CUP_FW_FALLBACK = false ∧ t.pwr.booted = false)
          ∧ (romCheck d.active s ≠ 0 → romCheck (1 - d.active) s = 0 → t.cup.loaded = true
            ∧ fget t CUP_FW CUP_FW_BANK = 1 - d.active ∧ fbit t CUP_FW CUP_FW_FALLBACK = true)
          ∧ (romCheck d.active s ≠ 0 → romCheck (1 - d.active) s ≠ 0 → fbit t CUP_STATUS CUP_STATUS_ROM_RECOVERY = true
            ∧ runState t = stOutOfService ∧ t.pwr.booted = true) ∧ t.dome = s.dome ∧ t.hostMem = s.hostMem)))
    ∧ (booting true s = true → Gives .bootComplete s (fun t => t.pwr.booted = true ∧ (∀ q ∈ t.rcv, 2 ≤ q.level)
        ∧ (∃ l bits, .recoveryDone l bits ∈ t.bridgeUp) ∧ (∃ k, .scopes k ∈ t.bridgeUp) ∧ t.goldRes = cfgField 21 31 0 34500 s))

/-- A requested L3 fences its unit, drains, is captured, asserted, rebuilt, replayed and audited, each step in its
turn. (R369, R370, R371, R372, R375, R376, R377, R378, R379, R386, R387) -/
def Obligations.RecoveriesPassThroughTheirSteps : Prop :=
  ∀ s : State, StoresCanonical s → mainRuns s = true →
    (∀ (part flat bit : Nat) (rest : List DownMsg), s.rcv = [] → s.bridgeDown = .resetReq 3 part flat bit :: rest → flat < 272 →
      Gives .spireResetRequest s (fun t => (∃ r, t.rcv = [r] ∧ r.level = 3 ∧ r.flat = flat ∧ r.source = srcSpire ∧ r.step = .drain)
        ∧ fbit t (RST_UNIT flat) RST_UNIT_FENCED = true ∧ bitOf srcSpire (fget t RST_CAUSE RST_CAUSE_CAUSE) = true
        ∧ t.bridgeDown = rest ∧ (∃ u, .fault 37 u ∈ t.bridgeUp) ∧ t.hostMem = s.hostMem))
    ∧ (∀ r : Recovery, s.rcv = [r] →
      (r.step = .drain → capturesNot r = false →
        (scopeTags r s = 0 → scopeWaits r s = 0 → Gives .drainEnd s (fun t =>
          (∃ q, t.rcv = [q] ∧ q.step = .capture ∧ q.level = r.level ∧ q.drained = r.drained) ∧ RegsKept [RST_STATE] s t
          ∧ t = { s with regs := t.regs, rcv := t.rcv }))
        ∧ Gives .drainTimeout s (fun t => (∃ q, t.rcv = [q] ∧ q.step = .capture ∧ q.level = r.level ∧ q.errors = scopeWaits r s)
          ∧ scopeWaits r t = 0 ∧ r.fenceNs + 50000 ≤ upNs t ∧ fget t RST_DRAIN_ERR fWord = min (2 ^ 32 - 1) (fget s RST_DRAIN_ERR fWord + scopeWaits r s)
          ∧ MemoryKept s t))
      ∧ (r.step = .capture → 2 ≤ r.level → capturesNot r = false → r.heads.length ≤ 272 → Gives .captureDone s (fun t =>
          (∃ q, t.rcv = [q] ∧ q.step = .reset ∧ q.level = r.level ∧ q.capture = some s.esc.captures)
          ∧ ddrWord t (captureAddr s.esc.captures) = 0x504D5231 ∧ t.esc.captures = s.esc.captures + 1
          ∧ fget t RST_PM RST_PM_NEXT = (s.esc.captures + 1) % 32 ∧ (∀ f ∈ rcvFlats r, unitHeld f t = true)
          ∧ (∀ a, (a < captureAddr s.esc.captures ∨ captureAddr s.esc.captures + 0x200000 ≤ a) → ddrByte t a = ddrByte s a)
          ∧ t.dome = s.dome ∧ t.hostMem = s.hostMem))
      ∧ (r.step = .rebuild → 2 ≤ r.level → r.test = false → r.replay = true → fbit s RST_CFG RST_CFG_REPLAY_EN = true →
        r.suspects ≠ [] →
        (upNs s < replayLimit r → Gives (.rebuildDone true) s (fun t => (∃ q, t.rcv = [q] ∧ q.step = .replay ∧ q.suspects = r.suspects)
          ∧ (∀ f ∈ rcvFlats r, f ∈ t.replaying) ∧ t.hostMem = s.hostMem))
        ∧ (replayLimit r ≤ upNs s → Gives (.rebuildDone true) s (fun t => (∀ q ∈ t.rcv, q.step ≠ .replay ∧ q.suspects = untestFrom 0 r.suspects)
          ∧ t.hostMem = s.hostMem)))
      ∧ (∀ i c : Nat, r.step = .replay → r.suspects.findIdx? (fun e => e.2 == 0) = some i → nth r.suspects i (0, 0) = (c, 0) →
        (upNs s < replayLimit r → (∃ j, i < j ∧ j < r.suspects.length ∧ (nth r.suspects j (0, 0)).2 = 0) →
          Gives (.replaySuspectDone false) s (fun t =>
            (∃ q, t.rcv = [q] ∧ q.step = .replay ∧ q.suspects = setNth r.suspects i (c, 1))
            ∧ (∀ a, 0x05C00000 ≤ a → a < 0x05D00000 → domeByte t a = 0)
            ∧ (∀ a, (a < 0x05C00000 ∨ 0x05D00000 ≤ a) → domeByte t a = domeByte s a)
            ∧ fget t RST_REPLAYS fWord = min (2 ^ 32 - 1) (fget s RST_REPLAYS fWord + 1) ∧ t.lpddr = s.lpddr ∧ t.hostMem = s.hostMem))
        ∧ (c < 2 ^ 16 → (∃ k < 16, fbit s (RST_REFUSED k) RST_REFUSED_VALID = false) → Gives (.replaySuspectDone true) s (fun t =>
            contextRefused c t = true ∧ fget t RST_GUILTY fWord = min (2 ^ 32 - 1) (fget s RST_GUILTY fWord + 1)
            ∧ (∀ q ∈ t.rcv, q.step ≠ .replay)))
        ∧ Gives .replayLimitExpiry s (fun t => (∃ q, t.rcv = [q] ∧ q.suspects = untestFrom (i + 1) r.suspects)
            ∧ t = { s with regs := t.regs, time := t.time, slew := t.slew, rcv := t.rcv })))
    ∧ (∀ ag : Agent, agentUp ag s = true →
      (s.rcv = [] → Gives (.auditRequest ag) s (fun t =>
        ∀ i < 5, bitOf i (fget t RST_AUDIT RST_AUDIT_BALANCED) = nth (ledgersGood s) i false))
      ∧ (∀ r : Recovery, s.rcv = [r] → r.step = .audit → (ledgersGood s).all id = true → Gives (.auditRequest ag) s (fun t =>
        .recoveryDone r.level r.asked ∈ t.bridgeUp ∧ (∀ q ∈ t.rcv, q.step ≠ .audit))))

/-- RCV_RESET begins an L3, and the other recovery opcodes report, read a capture, release a context and audit. (R361,
R369, R374, R375, R378, R386, R398) -/
def Obligations.RecoveryOpcodesRequestAndReport : Prop :=
  ∀ (h : CmdHead) (v : Word) (s : State), RegsCanonical s →
    (∀ f : Nat, Ready h 0x0901 s → s.rcv = [] → unitFlat v.toNat = some f → f < 272 → Gives (.rcvReset h [3, v]) s (fun t =>
        (∃ c ∈ t.cmds, c.head = h ∧ c.opcode = 0x0901 ∧ c.reply = some ⟨stOk, []⟩)
        ∧ (∃ r, t.rcv = [r] ∧ r.level = 3 ∧ r.flat = f ∧ r.source = srcCupola ∧ r.step = .drain)
        ∧ fbit t (RST_UNIT f) RST_UNIT_FENCED = true ∧ t.hostMem = s.hostMem))
    ∧ (Ready h 0x0902 s → OnlyReads (.rcvStatus h []) h 0x0902 [] [(rd s RST_STATE).toNat, (rd s RST_LAST).toNat,
        (rd s RST_LAST_TIME).toNat, (rd s RST_LAST_DURATION).toNat, (escWord s).toNat, (rd s RST_CAUSE).toNat, (rd s RST_FENCE).toNat] s)
    ∧ (Ready h 0x0903 s → v.toNat ≤ 31 → OnlyReads (.rcvCapture h [v]) h 0x0903 [v] (ddrWords s (captureAddr v.toNat) 16) s)
    ∧ (∀ i < 16, Ready h 0x0904 s → fbit s (RST_REFUSED i) RST_REFUSED_VALID = true →
      fget s (RST_REFUSED i) RST_REFUSED_CONTEXT = v.toNat →
      (∀ j < 16, j ≠ i → fbit s (RST_REFUSED j) RST_REFUSED_VALID = true → fget s (RST_REFUSED j) RST_REFUSED_CONTEXT ≠ v.toNat) →
      Gives (.rcvUnrefuse h [v]) s (fun t => Answered h 0x0904 [v] stOk [] s t ∧ contextRefused v.toNat t = false
        ∧ RegsKept [RST_REFUSED i] s t ∧ t = { s with regs := t.regs, cmds := t.cmds }))
    ∧ (Ready h 0x0904 s → contextRefused v.toNat s = false → Gives (.rcvUnrefuse h [v]) s (fun t =>
        Answered h 0x0904 [v] stParam [] s t ∧ t = { s with cmds := t.cmds }))
    ∧ (Ready h 0x0905 s → s.rcv = [] → Gives (.rcvAudit h []) s (fun t => ∃ ws, Answered h 0x0905 [] stOk ws s t
        ∧ ws.length = 21 ∧ nth ws 0 0 = (rd t RST_AUDIT).toNat ∧ t.hostMem = s.hostMem))

/-- Flits, credits and training keep the books, the window takes writes that fit, and an abort token ends the run.
(R390, R391, R393, R394, R396, R397, R398, R400) -/
def Obligations.TollisLinksKeepTheirCreditsAndJobs : Prop :=
  ∀ (l : Fin 2) (v : Fin 5) (s : State), RegsCanonical s → mainRuns s = true → s.links.length = 2 → 0 < v.val →
    (∀ (lane : Fin 5) (n : Nat), linkIsUp l s = true → 0 < vcFree l v s → vcHeld l v s < 65535 →
      Gives (.flitRx l v true n lane 0) s (fun t => vcFree l v t = vcFree l v s - 1 ∧ vcHeld l v t = vcHeld l v s + 1
        ∧ vcReturning l v t = vcReturning l v s ∧ vcAvail l v t = vcAvail l v s ∧ t = { s with regs := t.regs })
      ∧ Gives (.flitRx l v false 0 lane 0) s (fun t => vcFree l v t = vcFree l v s ∧ vcHeld l v t = vcHeld l v s
        ∧ fget t (TOL_CRC_RETRY l) fWord = min (2 ^ 32 - 1) (fget s (TOL_CRC_RETRY l) fWord + 1) ∧ t = { s with regs := t.regs }))
    ∧ (linkIsUp l s = true →
      (0 < vcOut l v s → vcAvail l v s < 65535 → Gives (.creditReturn l v false) s (fun t => vcAvail l v t = vcAvail l v s + 1
        ∧ vcOut l v t = vcOut l v s - 1 ∧ RegsKept [TOL_VC_TX l (v - 1)] s t ∧ t = { s with regs := t.regs }))
      ∧ (∀ (at_ : Nat) (rest : List (Nat × Nat)), (linkGet l s).returning = (v.val, at_) :: rest → vcFree l v s < 65535 →
        0 < vcReturning l v s → Gives (.creditReturn l v true) s (fun t => vcFree l v t = vcFree l v s + 1
          ∧ vcReturning l v t = vcReturning l v s - 1 ∧ (linkGet l t).returning = rest ∧ t = { s with regs := t.regs, links := t.links })))
    ∧ (∀ (at_ : Nat) (rest : List (Nat × Nat)), (linkGet l s).returning = (v.val, at_) :: rest →
      Gives (.creditReturningTimeout l v) s (fun t => fbit t (TOL_VC_RET l (v - 1)) TOL_VC_RET_ERR = true
        ∧ fbit t (TOL_STATUS l) TOL_STATUS_CREDIT_ERR = true ∧ MemoryKept s t))
    ∧ (∀ lane : Fin 5, fget s (TOL_STATUS l) TOL_STATUS_STATE ≠ tolDown → running s = false → slavePort s ≠ some (8 + l.val) → Gives (.linkLockLoss l lane) s (fun t =>
        fget t (TOL_STATUS l) TOL_STATUS_STATE = tolDown ∧ lane.val ∈ (linkGet l t).marked
        ∧ fget t (TOL_DOWN_EVENTS l) fWord = min (2 ^ 32 - 1) (fget s (TOL_DOWN_EVENTS l) fWord + 1)
        ∧ t = { s with regs := t.regs, links := t.links }))
    ∧ (∀ adverts : List Nat, fbit s (TOL_CTRL l) TOL_CTRL_EN = true → linkIsUp l s = false → Gives (.linkRetrainDone l adverts) s (fun t =>
        linkIsUp l t = true ∧ vcAvail l v t = nth adverts (v - 1) 0 % 65536 ∧ vcOut l v t = 0 ∧ vcHeld l v t = 0
        ∧ vcReturning l v t = 0 ∧ (linkGet l t).returning = [] ∧ t.dome = s.dome ∧ t.hostMem = s.hostMem))
    ∧ (∀ (off : Nat) (bytes : List Nat), linkIsUp l s = true → cellsWf emptyByte s.dome = true → bytes ≠ [] →
      (off + bytes.length ≤ fget s (TOL_RXWIN_BYTES l) TOL_RXWIN_BYTES_BYTES → s.fab.outer = [] →
        tagFree ⟨.tollis l, false, true, fget s (TOL_RXWIN_BASE l) fWord + off, bytes.length, 0⟩ s = true → Gives (.rxwinWrite l v off bytes) s (fun t =>
        (∀ k < bytes.length, domeByte t (fget s (TOL_RXWIN_BASE l) fWord + off + k) = nth bytes k 0 % 256)
        ∧ (∀ a, (a < fget s (TOL_RXWIN_BASE l) fWord + off ∨ fget s (TOL_RXWIN_BASE l) fWord + off + bytes.length ≤ a) →
            domeByte t a = domeByte s a) ∧ t.lpddr = s.lpddr ∧ t.hostMem = s.hostMem))
      ∧ (off + bytes.length ≤ fget s (TOL_RXWIN_BYTES l) TOL_RXWIN_BYTES_BYTES →
        tagFree ⟨.tollis l, false, true, fget s (TOL_RXWIN_BASE l) fWord + off, bytes.length, 0⟩ s = false → Gives (.rxwinWrite l v off bytes) s (fun t =>
          t.fab.outer.length = s.fab.outer.length + 1 ∧ MemoryKept s t))
      ∧ (fget s (TOL_RXWIN_BYTES l) TOL_RXWIN_BYTES_BYTES < off + bytes.length → Gives (.rxwinWrite l v off bytes) s (fun t =>
        fget t (TOL_RXWIN_DISCARD l) fWord = min (2 ^ 32 - 1) (fget s (TOL_RXWIN_DISCARD l) fWord + 1)
        ∧ t = { s with regs := t.regs, links := t.links })))
    ∧ (∀ job origin hops seq : Nat,
      (job ≠ jobId s → Gives (.abortTokenRx l job origin hops seq) s (fun t =>
        fget t (TOL_ABORT_DUP l) fWord = min (2 ^ 32 - 1) (fget s (TOL_ABORT_DUP l) fWord + 1)
        ∧ RegsKept [TOL_ABORT_RX l, TOL_ABORT_DUP l] s t ∧ t = { s with regs := t.regs }))
      ∧ (job = jobId s → jobRuns s = true → tokenStale job s = false → s.rcv = [] → Gives (.abortTokenRx l job origin hops seq) s (fun t =>
        runState t = stIdle ∧ t.slices = [] ∧ fbit t TOL_JOB TOL_JOB_ABORTED = true
        ∧ bitOf srcTollis (fget t RST_CAUSE RST_CAUSE_CAUSE) = true
        ∧ (∀ k : Fin 2, k ≠ l → jobLink k s = true → .abortToken k.val job origin abForwarded (hops + 1) seq ∈ t.out))))
    ∧ (∀ (h : CmdHead) (a b m : Word), (Ready h 0x0906 s → running s = false → a.toNat ≤ 0xFFFF → b.toNat ≤ 7 → m.toNat ≤ 3 →
        Gives (.tolJob h [a, b, m]) s (fun t => Answered h 0x0906 [a, b, m] stOk [] s t
          ∧ fget t TOL_JOB TOL_JOB_JOB_ID = a.toNat ∧ fget t TOL_JOB TOL_JOB_MODULE_ID = b.toNat
          ∧ (∀ k : Fin 2, fbit t (TOL_CTRL k) TOL_CTRL_JOB_EN = bitOf k m.toNat)
          ∧ RegsKept [TOL_JOB, TOL_CTRL 0, TOL_CTRL 1] s t ∧ t = { s with regs := t.regs, cmds := t.cmds }))
      ∧ (Ready h 0x0907 s → jobRuns s = true → s.rcv = [] → Gives (.tolAbort h []) s (fun t => runState t = stIdle ∧ t.slices = []
          ∧ fbit t TOL_JOB TOL_JOB_ABORTED = true ∧ (∃ c ∈ t.cmds, c.head = h ∧ c.opcode = 0x0907 ∧ c.reply = some ⟨stOk, []⟩)
          ∧ (∀ k : Fin 2, jobLink k s = true →
            .abortToken k.val (jobId s) (fget s TOL_JOB TOL_JOB_MODULE_ID) abCommand 0 s.tol.seq ∈ t.out))))

/-- MONITOR stores the readings and trips, VDD_CORE moves by at most 10 mV within its bounds, and Buttress swaps in
spares. (R403, R404, R405, R406, R407, R408, R410, R413, R416) -/
def Obligations.CupolaMonitorsAndMaintainsTheModule : Prop :=
  ∀ s : State, StoresCanonical s → firmwareRuns s = true →
    (∀ (ts : List Int) (vs ps : List Nat), ts.length = 24 → vs.length = 16 → ps.length = 6 → (∀ i < 16, voltOut i (nth vs i 0) s = false) →
      ((∀ x ∈ ts, x < (fget s CUP_THERM CUP_THERM_TRIP * 10 : Nat)) → Gives (.monitorTask ts vs ps) s (fun t =>
        (∀ i < 24, fget t (CUP_TEMP i) CUP_TEMP_TEMP = unsigned 16 (nth ts i 0))
        ∧ (∀ i < 16, fget t (CUP_VMON i) CUP_VMON_MV = min 4095 (nth vs i 0))
        ∧ (∀ i < 6, fget t (CUP_POWER i) CUP_POWER_MW = min 65535 (nth ps i 0)) ∧ t.cup.hot = [] ∧ t.cup.out = []
        ∧ ((∃ x ∈ ts, (fget s CUP_THERM CUP_THERM_WARN * 10 : Nat) ≤ x) → fbit t CUP_STATUS CUP_STATUS_THERM_WARN = true)
        ∧ LogOnly s t))
      ∧ (∀ i < 24, (fget s CUP_THERM CUP_THERM_TRIP * 10 : Nat) ≤ nth ts i 0 → i ∈ s.cup.hot → s.rcv = [] →
        Gives (.monitorTask ts vs ps) s (fun t => (∃ r ∈ t.rcv, r.level ≤ 1 ∧ r.source = srcThermal)
          ∧ bitOf srcThermal (fget t RST_CAUSE RST_CAUSE_CAUSE) = true)))
    ∧ (vMin s ≤ s.cup.target → s.cup.target ≤ vMax s → Gives .vcoreTask s (fun t => vMin s ≤ t.cup.target ∧ t.cup.target ≤ vMax s
        ∧ t.cup.target ≤ s.cup.target + 10 ∧ s.cup.target ≤ t.cup.target + 10
        ∧ (s.cup.avsWaits = true → t.cup.target = s.cup.target)
        ∧ (t.cup.target ≠ s.cup.target → t.out = .avsTarget t.cup.target :: s.out ∧ t.cup.avsWaits = true)
        ∧ RegsKept [CUP_VCORE] s t ∧ t = { s with regs := t.regs, out := t.out, cup := t.cup }))
    ∧ Gives .avsTargetAck s (fun t => t = { s with cup := { s.cup with avsWaits := false } })
    ∧ (s.bt.copy = none → s.bt.backlog = [] → s.spr.bist = [] →
      (∀ b < 64, s.bt.testing = some (0x8000 + b) →
        Gives (.buttressStep true) s (fun t => t.bt.testing = none ∧ t.bt.copy = none ∧ LogOnly s t)
        ∧ (∀ p, spareBank s = some p → Gives (.buttressStep false) s (fun t => t.bt.testing = none ∧ t.bt.copy = some (b, p) ∧ LogOnly s t)))
      ∧ (∀ (n p : Nat) (c : Bool), n < 32 → s.bt.testing = none → s.bt.swaps = [(48 + n, c)] → s.rcv = [] → spareArray s = some p →
        Gives (.buttressStep true) s (fun t => fget t (CUP_MAP_MXA n) CUP_MAP_MXA_PHYSICAL = p ∧ fget t (MXA_ID p) MXA_ID_LOGICAL = n
          ∧ fbit t (MXA_ID p) MXA_ID_IN_SERVICE = true ∧ t.bt.swaps = [] ∧ LogOnly s t)))
    ∧ (∀ b p : Nat, s.bt.copy = some (b, p) → b < 64 → p < 68 → Gives .domeBankCopyDone s (fun t => t.bt.copy = none
        ∧ fget t (CUP_MAP_DOME b) CUP_MAP_DOME_PHYSICAL = p ∧ fget t (DOME_BANK_ID p) DOME_BANK_ID_LOGICAL = b
        ∧ fbit t (DOME_BANK_ID p) DOME_BANK_ID_IN_SERVICE = true ∧ LogOnly s t))
    ∧ Gives .logTask s (fun t => fget t CUP_LOG_PERSISTED fWord = fget s CUP_LOG_NEXT fWord ∧ RegsKept [CUP_LOG_PERSISTED] s t
        ∧ t = { s with regs := t.regs, cup := t.cup })
    ∧ (∀ k : Fin 7, Gives (.taskBudgetOverrun k) s (fun t => t.bridgeUp = s.bridgeUp ++ [.fault 17 0]
        ∧ fget t (CUP_BUDGET k) fWord = min (2 ^ 32 - 1) (fget s (CUP_BUDGET k) fWord + 1) ∧ RegsKept [CUP_BUDGET k] s t
        ∧ t = { s with regs := t.regs, bridgeUp := t.bridgeUp }))

/-- The version is agreed first, then capabilities and algorithms, and only then is identity and measurement answered.
(R426, R427) -/
def Obligations.SpdmRequestsAreAnsweredInTheirOrder : Prop :=
  ∀ s : State, RegsCanonical s → firmwareRuns s = true → s.pwr.pcieUp = true → fbit s CMD_MCTP CMD_MCTP_EN = true →
    Gives .getVersion s (fun t => t.out = .spdm 0x84 [0x12] :: s.out ∧ t.cup.spdm = 1 ∧ LogOnly s t
        ∧ RegsKept [CUP_LOG_NEXT, CUP_LOG_OVERWRITES] s t)
    ∧ (s.cup.spdm = 1 → Gives .getCapabilities s (fun t => t.out = .spdm 0xE1 [0x16] :: s.out ∧ t.cup.spdm = 3 ∧ LogOnly s t
        ∧ RegsKept [CUP_LOG_NEXT, CUP_LOG_OVERWRITES] s t))
    ∧ (∀ asym hash meas : Nat, s.cup.spdm = 3 → Gives (.negotiateAlgorithms asym hash meas) s (fun t => t.cup.spdm = 7
        ∧ t.out = .spdm 0xE3 [Nat.land asym 0x80, Nat.land hash 2, Nat.land meas 4] :: s.out ∧ LogOnly s t
        ∧ RegsKept [CUP_LOG_NEXT, CUP_LOG_OVERWRITES] s t))
    ∧ (∀ (slot off len index : Nat) (sign : Bool) (nonce chain : List Nat) (c : Instr) (code : Nat),
      (c, code) ∈ [(.getDigests, 0x81), (.getCertificate slot off len, 0x82), (.challenge slot nonce, 0x83), (.getMeasurements index sign nonce, 0xE0)] →
      (s.cup.spdm = 7 → certOf slot s = some chain → Gives c s (fun t => (∃ content, t.out = .spdm code content :: s.out
          ∧ (code = 0x82 → content = slice off len chain) ∧ (code = 0x81 → nth content 0 0 = 1 + 2 * b2n s.cup.cert.isSome))
        ∧ t.cup = s.cup ∧ fget t CUP_LOG_NEXT fWord = (fget s CUP_LOG_NEXT fWord + 1) % 2 ^ 32 ∧ LogOnly s t
        ∧ RegsKept [CUP_LOG_NEXT, CUP_LOG_OVERWRITES] s t))
      ∧ (s.cup.spdm = 3 → Gives c s (fun t => t.out = .spdm 0x7F [4] :: s.out ∧ t.cup = s.cup ∧ LogOnly s t
        ∧ RegsKept [CUP_LOG_NEXT, CUP_LOG_OVERWRITES] s t)))

/-- The management opcodes report sensors, logs, banks and spares, and stage, verify, commit, activate and confirm
firmware. (R408, R409, R415, R420, R421, R422, R424, R429, R430) -/
def Obligations.ManagementOpcodesReportAndUpdate : Prop :=
  ∀ (h : CmdHead) (ps : List Word) (v w x : Word) (s : State), StoresCanonical s →
    (Ready h 0x0A01 s → OnlyReads (.cupSensors h []) h 0x0A01 [] ((List.range 24).map (fun i => (rd s (CUP_TEMP i)).toNat)
        ++ (List.range 16).map (fun i => (rd s (CUP_VMON i)).toNat) ++ (List.range 6).map (fun i => (rd s (CUP_POWER i)).toNat)
        ++ [govRate s, (rd s CUP_VCORE).toNat, (rd s CUP_STATUS).toNat]) s)
    ∧ (Ready h 0x0A02 s → 0 < w.toNat → w.toNat ≤ 120 → fget s CUP_LOG_NEXT fWord ≤ 32768 → v.toNat + w.toNat ≤ fget s CUP_LOG_NEXT fWord →
      OnlyReads (.logRead h [v, w]) h 0x0A02 [v, w]
        ([0, w.toNat] ++ (List.range w.toNat).flatMap (fun i => logEntry (v.toNat + i) s)) s)
    ∧ (Ready h 0x0A03 s → OnlyReads (.fwStatus h []) h 0x0A03 [] ([(rd s CUP_FW).toNat]
        ++ [0, 1].flatMap (fun b => [fwVersion (bankImage b s), fwSvn (bankImage b s)]) ++ [s.cup.verified.getD 8]) s)
    ∧ (Ready h 0x0A04 s → ps ≠ [] → ps.length ≤ 1000 → v.toNat % 4 = 0 → v.toNat + 4 * ps.length ≤ 2 ^ 22 →
      Gives (.fwData h (v :: ps)) s (fun t => Answered h 0x0A04 (v :: ps) stOk [] s t
        ∧ (∀ i < ps.length, ddrWord t (stageBase + v.toNat + 4 * i) = param ps i)
        ∧ (∀ a, (a < stageBase + v.toNat ∨ stageBase + v.toNat + 4 * ps.length ≤ a) → ddrByte t a = ddrByte s a)
        ∧ t.cup.verified = none ∧ t.cup.staged = max s.cup.staged (v.toNat + 4 * ps.length)
        ∧ t = { s with lpddr := t.lpddr, cup := t.cup, cmds := t.cmds }))
    ∧ (Ready h 0x0A05 s → x.toNat ≤ 2 ^ 22 → reservedEnd ≤ v.toNat + 2 ^ 32 * w.toNat → v.toNat + 2 ^ 32 * w.toNat + x.toNat ≤ ddrEnd →
      Gives (.fwStage h [v, w, x]) s (fun t => Answered h 0x0A05 [v, w, x] stOk [] s t
        ∧ stagedImage t = getBytes s.lpddr (v.toNat + 2 ^ 32 * w.toNat) x.toNat
        ∧ (∀ a, (a < stageBase ∨ stageBase + x.toNat ≤ a) → ddrByte t a = ddrByte s a)
        ∧ t.cup.verified = none ∧ t = { s with lpddr := t.lpddr, cup := t.cup, cmds := t.cmds }))
    ∧ (∀ r : Nat, r = (if s.cup.staged = 0 then 8 else fwCheck (stagedImage s) (fwCount s)) → Ready h 0x0A06 s →
      Gives (.fwVerify h []) s (fun t => Answered h 0x0A06 [] stOk [r] s t ∧ t.cup.verified = some r ∧ LogOnly s t))
    ∧ (∀ (d : BootDesc) (isA : Bool), descCurrent s.cup = some (d, isA) → d.active ≤ 1 →
      (Ready h 0x0A07 s → s.cup.verified = some 0 → Gives (.fwCommit h []) s (fun t =>
        t.cmds = s.cmds ++ [executed h 0x0A07 [] s none] ∧ (∃ e b, descCurrent t.cup = some (e, b) ∧ e.seq = d.seq + 1
          ∧ e.active = d.active ∧ bitOf (1 - d.active) e.invalid = true) ∧ t = { s with cup := t.cup, cmds := t.cmds }))
      ∧ (Ready h 0x0A08 s → ∀ b, s.cup.committed = some b → Gives (.fwActivate h [0]) s (fun t => Answered h 0x0A08 [0] stOk [] s t
        ∧ (∃ e k, descCurrent t.cup = some (e, k) ∧ e.seq = d.seq + 1 ∧ e.active = b ∧ e.trial = true ∧ e.confirmed = false)
        ∧ t = { s with cup := t.cup, cmds := t.cmds }))
      ∧ (Ready h 0x0A09 s → fbit s CUP_FW CUP_FW_TRIAL = true → Gives (.fwConfirm h []) s (fun t =>
        t.cup.burned = max s.cup.burned (fget s CUP_FW CUP_FW_SVN) ∧ fbit t CUP_FW CUP_FW_TRIAL = false
        ∧ (∃ e k, descCurrent t.cup = some (e, k) ∧ e.trial = false ∧ e.confirmed = true ∧ e.active = d.active)
        ∧ Answered h 0x0A09 [] stOk [fwCount t] s t ∧ LogOnly s t)))
    ∧ (Ready h 0x0A07 s → s.cup.verified ≠ some 0 → Gives (.fwCommit h []) s (fun t =>
        Answered h 0x0A07 [] stNoResource [] s t ∧ t = { s with cmds := t.cmds }))
    ∧ (Ready h 0x0A0A s → OnlyReads (.spareStatus h []) h 0x0A0A [] ((List.range 32).map (fun i => (rd s (CUP_MAP_MXA i)).toNat)
        ++ (List.range 128).map (fun i => (rd s (CUP_MAP_VEC i)).toNat) ++ (List.range 64).map (fun i => (rd s (CUP_MAP_DOME i)).toNat)
        ++ [fget s CUP_SPARE CUP_SPARE_MXA_LEFT, fget s CUP_SPARE CUP_SPARE_VEC_LEFT, fget s CUP_SPARE CUP_SPARE_DOME_LEFT,
          s.bt.queue.length]) s)
    ∧ (∀ f : Nat, Ready h 0x0A0B s → v.toNat < 0x8000 → unitFlat v.toNat = some f → s.bt.queue.length < 16 →
      s.bt.queue.all (fun e => e.1 != f) = true → s.bt.testing ≠ some f → Gives (.spareTest h [v]) s (fun t =>
        Answered h 0x0A0B [v] stOk [] s t ∧ t.bt.queue = s.bt.queue ++ [(f, 3)]
        ∧ fget t CUP_SPARE CUP_SPARE_QUEUED = (s.bt.queue.length + 1) % 2 ^ bitsWidth CUP_SPARE_QUEUED ∧ LogOnly s t))
    ∧ (Ready h 0x0A0C s → vcoreBad v = false → pcapBad w = false → thermBad x = false → reservedSet CUP_VCORE v.toNat = false →
      reservedSet CUP_PCAP w.toNat = false → x.toNat < 2 ^ 16 → Gives (.vcoreConfig h [v, w, x]) s (fun t =>
        Answered h 0x0A0C [v, w, x] stOk [] s t ∧ vMin t = getBits CUP_VCORE_VMIN v ∧ vMax t = getBits CUP_VCORE_VMAX v
        ∧ fbit t CUP_STATUS CUP_STATUS_BELOW_FLOOR = decide (getBits CUP_VCORE_VMIN v < 650)
        ∧ rwChanges CUP_PCAP w t = false ∧ fget t CUP_THERM CUP_THERM_WARN = getBits CUP_THERM_WARN x ∧ LogOnly s t))
    ∧ (Ready h 0x0A0D s → x.toNat ≤ 65536 → v.toNat + 2 ^ 32 * w.toNat + x.toNat ≤ ddrEnd → running s = false →
      Gives (.certSet h [v, w, x]) s (fun t =>
        (Config.certFits (getBytes s.lpddr (v.toNat + 2 ^ 32 * w.toNat) x.toNat) = true → Answered h 0x0A0D [v, w, x] stOk [] s t
          ∧ t.cup.cert = some (getBytes s.lpddr (v.toNat + 2 ^ 32 * w.toNat) x.toNat))
        ∧ (Config.certFits (getBytes s.lpddr (v.toNat + 2 ^ 32 * w.toNat) x.toNat) = false →
          Answered h 0x0A0D [v, w, x] stParam [] s t ∧ t = { s with cmds := t.cmds }) ∧ LogOnly s t))

/-- A challenge gives a nonce that one unlock consumes, scopes open only for a token that passes, and Lantern needs
its own. (R432, R433, R434, R436, R439, R444) -/
def Obligations.DebugOpcodesGuardTheScopes : Prop :=
  ∀ (h : CmdHead) (v w : Word) (ps : List Word) (s : State), RegsCanonical s →
    (Ready h 0x0B01 s → Gives (.dbgChallenge h []) s (fun t => ∃ ws, Answered h 0x0B01 [] stOk ws s t ∧ ws.length = 8
        ∧ (∀ x ∈ ws, x < 2 ^ 32) ∧ t.dbg = { s.dbg with nonce := some ws }
        ∧ t = { s with dbg := t.dbg, cmds := t.cmds, freeCount := t.freeCount }))
    ∧ (∀ st : Nat, st = tokenCheck (ps.map BitVec.toNat) s → Ready h 0x0B02 s → Gives (.dbgUnlock h ps) s (fun t => t.dbg.nonce = none
        ∧ (st = stOk → Answered h 0x0B02 ps stOk [scopesNow t] s t ∧ .scopes (scopesNow t) ∈ t.bridgeUp
          ∧ fget t LNT_STATUS LNT_STATUS_SCOPE = Nat.lor (fget s LNT_STATUS LNT_STATUS_SCOPE) (tokenScope (ps.map BitVec.toNat)))
        ∧ (st ≠ stOk → Answered h 0x0B02 ps st [] s t ∧ rd t LNT_STATUS = rd s LNT_STATUS ∧ t.bridgeUp = s.bridgeUp) ∧ LogOnly s t))
    ∧ (Ready h 0x0B03 s → Gives (.dbgLock h []) s (fun t => Answered h 0x0B03 [] stOk [] s t
        ∧ fget t LNT_STATUS LNT_STATUS_SCOPE = 0 ∧ t.bridgeUp = s.bridgeUp ++ [.scopes (scopesNow t)] ∧ LogOnly s t))
    ∧ (Ready h 0x0B04 s → unlocked scLantern s = true → v.toNat ≤ 65535 → ps.length = (maskBits 16 v.toNat).length →
      (∀ x ∈ ps, x.toNat < 32768) → Gives (.lntSelect h (v :: ps)) s (fun t => Answered h 0x0B04 (v :: ps) stOk [] s t
        ∧ (∀ k < ps.length, rd t (LNT_SEL (nth (maskBits 16 v.toNat) k 0)) = nth ps k 0)
        ∧ (∀ p < 16, bitOf p v.toNat = false → rd t (LNT_SEL p) = rd s (LNT_SEL p))
        ∧ RegsKept ((List.range 16).map LNT_SEL) s t ∧ t = { s with regs := t.regs, cmds := t.cmds }))
    ∧ (Ready h 0x0B04 s → unlocked scLantern s = false → Gives (.lntSelect h ps) s (fun t =>
        Answered h 0x0B04 ps stAuth [] s t ∧ t = { s with cmds := t.cmds }))
    ∧ (Ready h 0x0B05 s → OnlyReads (.dbgStatus h []) h 0x0B05 []
        ([(rd s LNT_STATUS).toNat, (rd s LNT_FREEZE).toNat] ++ (List.range 16).map (fun p => (rd s (LNT_SEL p)).toNat)) s)
    ∧ (Ready h 0x0B06 s → 0 < w.toNat → w.toNat ≤ 120 → v.toNat + w.toNat ≤ 4096 → OnlyReads (.dbgCatalog h [v, w]) h 0x0B06 [v, w]
        ((List.range w.toNat).flatMap (fun i => catalogEntry (v.toNat + i))) s)

/-- FREEZE_n freezes an unlocked main die and forces the Spire's pins, its end resets, and TAP instructions select.
(R359, R437, R438, R439, R440, R441, R442, R443) -/
def Obligations.FreezeAndTheTapActOnTheDies : Prop :=
  ∀ s : State, RegsCanonical s →
    (mainRuns s = true → unlocked scFreeze s = true → (∀ r ∈ s.rcv, 2 ≤ r.level) → Gives .freezeEntry s (fun t =>
        t.pwr.frozen = true ∧ t.pwr.pcieUp = false ∧ t.pwr.freezeIn = true
        ∧ (spireRuns s = true → bitOf 1 s.spr.scopes = true → t.spr.forced = true ∧ t.vpData = none
          ∧ fbit t SPR_STATE SPR_STATE_VALID_PIN = false ∧ fbit t SPR_STATE SPR_STATE_FAULT_PIN = true)
        ∧ RegsKept (SPR_STATE :: (List.range 4).map DOME_MEMGRP_ST) s t
        ∧ (∀ g < 4, fbit t (DOME_MEMGRP_ST g) DOME_MEMGRP_ST_SELF_REFRESH = true) ∧ MemoryKept s t))
    ∧ (unlocked scFreeze s = false → spireRuns s = false → Gives .freezeEntry s (fun t =>
        t = { s with pwr := { s.pwr with freezeIn := true } }))
    ∧ (s.pwr.frozen = true → s.rcv = [] → Gives .freezeExit s (fun t => t.pwr.frozen = false ∧ t.pwr.mainHeld = true
        ∧ t.pwr.freezeIn = false ∧ (∃ r, t.rcv = [r] ∧ r.level ≤ 1 ∧ r.source = srcFreezeExit ∧ r.step = .reset) ∧ t.dome = []
        ∧ t.hostMem = s.hostMem ∧ t.spr.forced = false ∧ (spireOn s = true → fbit t SPR_GOLD SPR_GOLD_LOADED = false)))
    ∧ (s.pwr.mainUp = true →
      (∀ (c : Instr) (code : Nat), (c, code) ∈ [(.extest, 0x00), (.samplePreload, 0x01), (.clamp, 0x02), (.bypass, 0xFF),
          (.ijtag, if unlocked scState s || unlocked scSram s then 0x40 else 0xFF)] →
        Gives c s (fun t => t = { s with dbg := { s.dbg with tap := code } }))
      ∧ (s.rcv = [] → Gives .sysreset s (fun t => (∃ r ∈ t.rcv, r.level ≤ 1 ∧ r.source = srcJtag)
          ∧ bitOf srcJtag (fget t RST_CAUSE RST_CAUSE_CAUSE) = true ∧ t.dbg.tap = 0x20 ∧ t.hostMem = s.hostMem))
      ∧ (∀ w : Instrument, s.dbg.tap = 0x40 → instrumentOpen w s = true → Gives (.instrumentShift w) s (fun t =>
          (∃ bits, t.out = .tdo bits :: s.out ∧ (s.pwr.frozen = false → ∀ b ∈ bits, b = 0)
            ∧ (s.pwr.frozen = true → w = .status → bits = [1, scopesNow s, (rd s DEV_ID).toNat]))
          ∧ t = { s with out := t.out, freeCount := t.freeCount }))
      ∧ (∀ w : Instrument, s.dbg.tap ≠ 0x40 → Gives (.instrumentShift w) s (fun t => t = s)))
end

