-- ==== Sys2Proof/Laws/Cells.lean ====
section
/-! SUPPORT. The laws of the canonical store: a write keeps the form, a read after a write gives the value written, and a
write leaves every other key alone. -/
namespace Sys2Proof.Machine

/-- Whether a key lies above a bound. -/
abbrev keyAbove (n : Option Nat) (k : Nat) : Bool := match n with | none => true | some m => decide (m < k)

theorem cellsAbove_cons {β : Type} [DecidableEq β] (d : Nat → β) (n : Option Nat) (k : Nat) (v : β) (r : Cells β) :
    cellsAbove d n ((k, v) :: r) = true ↔ keyAbove n k = true ∧ v ≠ d k ∧ cellsAbove d (some k) r = true := by
  cases n <;> simp [cellsAbove, keyAbove, and_assoc]

theorem cellsAbove_weaken {β : Type} [DecidableEq β] {d : Nat → β} {n : Option Nat} {k : Nat} {r : Cells β}
    (hk : keyAbove n k = true) (h : cellsAbove d (some k) r = true) : cellsAbove d n r = true := by
  cases r with
  | nil => rfl
  | cons e r =>
    obtain ⟨j, w⟩ := e
    rw [cellsAbove_cons] at h ⊢
    refine ⟨?_, h.2⟩
    cases n with
    | none => rfl
    | some m =>
      have h1 := h.1
      simp only [keyAbove, decide_eq_true_eq] at hk h1 ⊢
      omega

theorem cellsAbove_cellsCons {β : Type} [DecidableEq β] {d : Nat → β} {n : Option Nat} {a : Nat} {v : β} {r : Cells β}
    (hk : keyAbove n a = true) (h : cellsAbove d (some a) r = true) : cellsAbove d n (cellsCons d a v r) = true := by
  unfold cellsCons
  split
  · exact cellsAbove_weaken hk h
  · rename_i hv
    exact (cellsAbove_cons d n a v r).mpr ⟨hk, hv, h⟩

/-- A write keeps the bound below the keys when its own key lies above it. -/
theorem cellsAbove_cellsSet {β : Type} [DecidableEq β] {d : Nat → β} (m : Cells β) (n : Option Nat) (a : Nat) (v : β)
    (hk : keyAbove n a = true) (h : cellsAbove d n m = true) : cellsAbove d n (cellsSet d m a v) = true := by
  induction m generalizing n with
  | nil => exact cellsAbove_cellsCons hk rfl
  | cons e r ih =>
    obtain ⟨k, w⟩ := e
    have h0 := h
    rw [cellsAbove_cons] at h
    unfold cellsSet
    split
    · rename_i e; subst e; exact cellsAbove_cellsCons hk h.2.2
    · split
      · rename_i hlt
        refine cellsAbove_cellsCons hk ((cellsAbove_cons d _ k w r).mpr ⟨?_, h.2⟩)
        simpa [keyAbove] using hlt
      · rename_i hne hlt
        refine (cellsAbove_cons d n k w _).mpr ⟨h.1, h.2.1, ih (some k) ?_ h.2.2⟩
        simp only [keyAbove, decide_eq_true_eq]; omega

/-- A write keeps the canonical form. -/
theorem cellsWf_cellsSet {β : Type} [DecidableEq β] {d : Nat → β} {m : Cells β} (a : Nat) (v : β)
    (h : cellsWf d m = true) : cellsWf d (cellsSet d m a v) = true := cellsAbove_cellsSet m none a v rfl h

/-- Keys at or below the bound read as their default. -/
theorem cellsGet_below {β : Type} [DecidableEq β] {d : Nat → β} {k a : Nat} {r : Cells β}
    (h : cellsAbove d (some k) r = true) (ha : a ≤ k) : cellsGet d r a = d a := by
  cases r with
  | nil => rfl
  | cons e r =>
    obtain ⟨j, w⟩ := e
    rw [cellsAbove_cons] at h
    have h1 := h.1
    simp only [keyAbove, decide_eq_true_eq] at h1
    unfold cellsGet
    rw [if_neg (by omega), if_pos (by omega)]

theorem cellsGet_cellsCons_same {β : Type} [DecidableEq β] {d : Nat → β} {a : Nat} {v : β} {r : Cells β}
    (h : cellsAbove d (some a) r = true) : cellsGet d (cellsCons d a v r) a = v := by
  unfold cellsCons
  split
  · rename_i e; rw [cellsGet_below h (Nat.le_refl a), e]
  · simp [cellsGet]

theorem cellsGet_cellsCons_ne {β : Type} [DecidableEq β] {d : Nat → β} {a b : Nat} {v : β} {r : Cells β}
    (h : cellsAbove d (some a) r = true) (hb : b ≠ a) : cellsGet d (cellsCons d a v r) b = cellsGet d r b := by
  unfold cellsCons
  split
  · rfl
  · unfold cellsGet
    rw [if_neg hb]
    split
    · rename_i hlt
      have := cellsGet_below (a := b) h (by omega)
      unfold cellsGet at this
      exact this.symm
    · cases r <;> simp [cellsGet]

theorem cellsGet_cellsSet_same_aux {β : Type} [DecidableEq β] {d : Nat → β} (m : Cells β) (n : Option Nat) (a : Nat) (v : β)
    (h : cellsAbove d n m = true) : cellsGet d (cellsSet d m a v) a = v := by
  induction m generalizing n with
  | nil => exact cellsGet_cellsCons_same rfl
  | cons e r ih =>
    obtain ⟨k, w⟩ := e
    rw [cellsAbove_cons] at h
    unfold cellsSet
    split
    · rename_i e; subst e; exact cellsGet_cellsCons_same h.2.2
    · split
      · rename_i hlt
        refine cellsGet_cellsCons_same ((cellsAbove_cons d _ k w r).mpr ⟨?_, h.2⟩)
        simpa [keyAbove] using hlt
      · rename_i hne hlt
        have := ih (some k) h.2.2
        unfold cellsGet
        rw [if_neg hne, if_neg hlt]
        exact this

/-- A read after a write to the same key gives the value written. -/
theorem cellsGet_cellsSet_same {β : Type} [DecidableEq β] {d : Nat → β} {m : Cells β} (a : Nat) (v : β)
    (h : cellsWf d m = true) : cellsGet d (cellsSet d m a v) a = v := cellsGet_cellsSet_same_aux m none a v h

theorem cellsGet_cellsSet_ne_aux {β : Type} [DecidableEq β] {d : Nat → β} (m : Cells β) (n : Option Nat) (a b : Nat) (v : β)
    (h : cellsAbove d n m = true) (hb : b ≠ a) : cellsGet d (cellsSet d m a v) b = cellsGet d m b := by
  induction m generalizing n with
  | nil => exact cellsGet_cellsCons_ne rfl hb
  | cons e r ih =>
    obtain ⟨k, w⟩ := e
    rw [cellsAbove_cons] at h
    unfold cellsSet
    split
    · rename_i e; subst e
      rw [cellsGet_cellsCons_ne h.2.2 hb]
      show _ = if b = a then w else if b < a then d b else cellsGet d r b
      rw [if_neg hb]
      split
      · rename_i hlt; exact cellsGet_below h.2.2 (by omega)
      · rfl
    · split
      · rename_i hlt
        refine cellsGet_cellsCons_ne ((cellsAbove_cons d _ k w r).mpr ⟨?_, h.2⟩) hb
        simpa [keyAbove] using hlt
      · unfold cellsGet
        rw [ih (some k) h.2.2]

/-- A write leaves every other key alone. -/
theorem cellsGet_cellsSet_ne {β : Type} [DecidableEq β] {d : Nat → β} {m : Cells β} {a b : Nat} (v : β)
    (h : cellsWf d m = true) (hb : b ≠ a) : cellsGet d (cellsSet d m a v) b = cellsGet d m b :=
  cellsGet_cellsSet_ne_aux m none a b v h hb

theorem cellsAbove_filter {β : Type} [DecidableEq β] {d : Nat → β} (p : Nat × β → Bool) (m : Cells β) (n : Option Nat)
    (h : cellsAbove d n m = true) : cellsAbove d n (m.filter p) = true := by
  induction m generalizing n with
  | nil => rfl
  | cons e r ih =>
    obtain ⟨k, w⟩ := e
    rw [cellsAbove_cons] at h
    simp only [List.filter_cons]
    split
    · exact (cellsAbove_cons d n k w _).mpr ⟨h.1, h.2.1, ih (some k) h.2.2⟩
    · exact ih n (cellsAbove_weaken h.1 h.2.2)

/-- Clearing keys keeps the canonical form. -/
theorem cellsWf_cellsClear {β : Type} [DecidableEq β] {d : Nat → β} {m : Cells β} (p : Nat → Bool)
    (h : cellsWf d m = true) : cellsWf d (cellsClear p m) = true := cellsAbove_filter _ m none h

theorem cellsWf_nil {β : Type} [DecidableEq β] (d : Nat → β) : cellsWf d [] = true := rfl

end Sys2Proof.Machine
end

