-- ==== Sys2Proof/Laws/Fields.lean ====
section
/-! SUPPORT. The laws of bit fields and registers: a field reads back what was written, other fields and other registers
keep their values. -/
namespace Sys2Proof.Machine

/-- A field that lies in a 32-bit word. -/
def Bits.fits (f : Bits) : Prop := f.lo ≤ f.hi ∧ f.hi ≤ 31

theorem split_word (w a k : Nat) : w = a * (k * (w / a / k) + w / a % k) + w % a := by
  rw [Nat.div_add_mod (w / a) k, Nat.div_add_mod w a]

theorem replace_div {w a k v : Nat} (ha : 0 < a) (hv : v < k) :
    (w - w / a % k * a + v * a) / a = k * (w / a / k) + v ∧ (w - w / a % k * a + v * a) % a = w % a := by
  have h := split_word w a k
  have e : w - w / a % k * a + v * a = a * (k * (w / a / k) + v) + w % a := by
    have h1 : w / a % k * a ≤ w := Nat.le_trans (Nat.mul_le_mul_right a (Nat.mod_le _ _)) (Nat.div_mul_le_self w a)
    have h2 : w = a * (k * (w / a / k)) + w / a % k * a + w % a := by
      conv => lhs; rw [h]
      rw [Nat.mul_add, Nat.mul_comm a (w / a % k)]
    rw [Nat.mul_add, Nat.mul_comm a v]
    omega
  have _ := hv
  rw [e]
  constructor
  · rw [Nat.mul_add_div ha, Nat.div_eq_of_lt (Nat.mod_lt w ha), Nat.add_zero]
  · rw [Nat.mul_add_mod, Nat.mod_mod]

theorem replace_lt {w a k v b : Nat} (ha : 0 < a) (_hk : 0 < k) (hv : v < k) (hw : w < a * k * b) :
    w - w / a % k * a + v * a < a * k * b := by
  obtain ⟨h1, h2⟩ := replace_div (w := w) ha hv
  have h3 : w / a / k < b := by
    rw [Nat.div_div_eq_div_mul]
    exact Nat.div_lt_of_lt_mul hw
  have h4 := Nat.div_add_mod (w - w / a % k * a + v * a) a
  rw [h1, h2] at h4
  have h5 : k * (w / a / k) + v < k * b := by
    calc k * (w / a / k) + v < k * (w / a / k) + k := by omega
      _ = k * (w / a / k + 1) := by rw [Nat.mul_add, Nat.mul_one]
      _ ≤ k * b := Nat.mul_le_mul_left k h3
  have h6 : a * (k * (w / a / k) + v) + w % a < a * (k * b) := by
    calc a * (k * (w / a / k) + v) + w % a < a * (k * (w / a / k) + v) + a := by have := Nat.mod_lt w ha; omega
      _ = a * (k * (w / a / k) + v + 1) := by rw [Nat.mul_add a (_ + v) 1, Nat.mul_one]
      _ ≤ a * (k * b) := Nat.mul_le_mul_left a h5
  rw [Nat.mul_assoc]
  omega

theorem fits_bound {f : Bits} (hf : f.fits) : 2 ^ f.lo * 2 ^ bitsWidth f * 2 ^ (31 - f.hi) = 2 ^ 32 := by
  rw [← Nat.pow_add, ← Nat.pow_add]
  congr 1
  unfold Bits.fits at hf
  unfold bitsWidth
  omega

/-- The number a field write leaves in the word. -/
theorem setBits_toNat {f : Bits} (hf : f.fits) (w : Word) (v : Nat) :
    (setBits f w v).toNat = w.toNat - w.toNat / 2 ^ f.lo % 2 ^ bitsWidth f * 2 ^ f.lo + v % 2 ^ bitsWidth f * 2 ^ f.lo := by
  have hk : 0 < 2 ^ bitsWidth f := Nat.pow_pos (by decide)
  have hv : v % 2 ^ bitsWidth f < 2 ^ bitsWidth f := Nat.mod_lt _ hk
  have hw : w.toNat < 2 ^ f.lo * 2 ^ bitsWidth f * 2 ^ (31 - f.hi) := by rw [fits_bound hf]; exact w.isLt
  have := replace_lt (Nat.pow_pos (n := f.lo) (by decide : 0 < 2)) hk hv hw
  rw [fits_bound hf] at this
  unfold setBits
  rw [BitVec.toNat_ofNat]
  exact Nat.mod_eq_of_lt this

/-- A field reads back what was written, less what does not fit. -/
theorem getBits_setBits_same {f : Bits} (hf : f.fits) (w : Word) (v : Nat) :
    getBits f (setBits f w v) = v % 2 ^ bitsWidth f := by
  have hk : 0 < 2 ^ bitsWidth f := Nat.pow_pos (by decide)
  have hv : v % 2 ^ bitsWidth f < 2 ^ bitsWidth f := Nat.mod_lt _ hk
  have h := (replace_div (w := w.toNat) (Nat.pow_pos (n := f.lo) (by decide : 0 < 2)) hv).1
  show (setBits f w v).toNat / 2 ^ f.lo % 2 ^ bitsWidth f = _
  rw [setBits_toNat hf, h, Nat.mul_add_mod, Nat.mod_eq_of_lt hv]

theorem pow_split {a b : Nat} (h : a ≤ b) : 2 ^ b = 2 ^ a * 2 ^ (b - a) := by rw [← Nat.pow_add]; congr 1; omega

/-- A field below the one written keeps its value. -/
theorem getBits_setBits_below {f g : Bits} (hf : f.fits) (hg : g.lo ≤ g.hi) (h : g.hi < f.lo) (w : Word) (v : Nat) :
    getBits g (setBits f w v) = getBits g w := by
  have hk : 0 < 2 ^ bitsWidth f := Nat.pow_pos (by decide)
  have hv : v % 2 ^ bitsWidth f < 2 ^ bitsWidth f := Nat.mod_lt _ hk
  have h1 := (replace_div (w := w.toNat) (Nat.pow_pos (n := f.lo) (by decide : 0 < 2)) hv).2
  rw [← setBits_toNat hf] at h1
  have key : ∀ x : Nat, x / 2 ^ g.lo % 2 ^ (g.hi + 1 - g.lo) = x % 2 ^ f.lo / 2 ^ g.lo % 2 ^ (g.hi + 1 - g.lo) := by
    intro x
    have e1 : 2 ^ f.lo = 2 ^ g.lo * (2 ^ (g.hi + 1 - g.lo) * 2 ^ (f.lo - (g.hi + 1))) := by
      rw [← Nat.pow_add, ← Nat.pow_add]; congr 1; omega
    rw [e1, Nat.mod_mul_right_div_self, Nat.mod_mul_right_mod]
  show (setBits f w v).toNat / 2 ^ g.lo % 2 ^ (g.hi + 1 - g.lo) = w.toNat / 2 ^ g.lo % 2 ^ (g.hi + 1 - g.lo)
  rw [key, key w.toNat, h1]

/-- A field above the one written keeps its value. -/
theorem getBits_setBits_above {f g : Bits} (hf : f.fits) (h : f.hi < g.lo) (w : Word) (v : Nat) :
    getBits g (setBits f w v) = getBits g w := by
  have hk : 0 < 2 ^ bitsWidth f := Nat.pow_pos (by decide)
  have hv : v % 2 ^ bitsWidth f < 2 ^ bitsWidth f := Nat.mod_lt _ hk
  have h1 := (replace_div (w := w.toNat) (Nat.pow_pos (n := f.lo) (by decide : 0 < 2)) hv).1
  rw [← setBits_toNat hf] at h1
  have h2 : (setBits f w v).toNat / 2 ^ f.lo / 2 ^ bitsWidth f = w.toNat / 2 ^ f.lo / 2 ^ bitsWidth f := by
    rw [h1, Nat.mul_add_div hk, Nat.div_eq_of_lt hv, Nat.add_zero]
  have e : 2 ^ g.lo = 2 ^ f.lo * (2 ^ bitsWidth f * 2 ^ (g.lo - (f.hi + 1))) := by
    rw [← Nat.pow_add, ← Nat.pow_add]; congr 1; have := hf.1; unfold bitsWidth; omega
  show (setBits f w v).toNat / 2 ^ g.lo % _ = w.toNat / 2 ^ g.lo % _
  have key : ∀ x : Nat, x / 2 ^ g.lo = x / 2 ^ f.lo / 2 ^ bitsWidth f / 2 ^ (g.lo - (f.hi + 1)) := by
    intro x; rw [e, ← Nat.div_div_eq_div_mul, ← Nat.div_div_eq_div_mul]
  rw [key, key w.toNat, h2]

/-! ## Registers -/

/-- The registers are in canonical form. -/
abbrev RegsWf (s : State) : Prop := cellsWf resetWord s.regs = true

theorem rd_wr_same {s : State} (h : RegsWf s) (a : Nat) (v : Word) : rd (wr s a v) a = v := cellsGet_cellsSet_same a v h
theorem rd_wr_ne {s : State} (h : RegsWf s) {a b : Nat} (v : Word) (hb : b ≠ a) : rd (wr s a v) b = rd s b :=
  cellsGet_cellsSet_ne v h hb
theorem regsWf_wr {s : State} (h : RegsWf s) (a : Nat) (v : Word) : RegsWf (wr s a v) := cellsWf_cellsSet a v h
theorem regsWf_fset {s : State} (h : RegsWf s) (a : Nat) (f : Bits) (v : Nat) : RegsWf (fset s a f v) := regsWf_wr h a _

/-- A field reads back what was written. -/
theorem fget_fset_same {s : State} (h : RegsWf s) {f : Bits} (hf : f.fits) (a v : Nat) :
    fget (fset s a f v) a f = v % 2 ^ bitsWidth f := by
  unfold fget fset; rw [rd_wr_same h]; exact getBits_setBits_same hf _ _

/-- Another register's fields keep their values. -/
theorem fget_fset_ne {s : State} (h : RegsWf s) {a b : Nat} (f g : Bits) (v : Nat) (hb : b ≠ a) :
    fget (fset s a f v) b g = fget s b g := by
  unfold fget fset; rw [rd_wr_ne h _ hb]

/-- Another field of the same register keeps its value. -/
theorem fget_fset_field {s : State} (h : RegsWf s) {f g : Bits} (hf : f.fits) (hg : g.lo ≤ g.hi) (a v : Nat)
    (hd : g.hi < f.lo ∨ f.hi < g.lo) : fget (fset s a f v) a g = fget s a g := by
  unfold fget fset; rw [rd_wr_same h]
  cases hd with
  | inl hd => exact getBits_setBits_below hf hg hd _ _
  | inr hd => exact getBits_setBits_above hf hd _ _

end Sys2Proof.Machine
end

