-- ==== Sys2Proof/Laws/State.lean ====
section
/-! SUPPORT. One lemma for each field of the state and each primitive update: what the update makes of the field. -/
namespace Sys2Proof.Machine

/-! ## wr -/

@[simp] theorem wr_pending (s : State) (a : Nat) (v : Word) : (wr s a v).pending = s.pending := rfl
@[simp] theorem wr_regs (s : State) (a : Nat) (v : Word) : (wr s a v).regs = cellsSet resetWord s.regs a v := rfl
@[simp] theorem wr_heldLow (s : State) (a : Nat) (v : Word) : (wr s a v).heldLow = s.heldLow := rfl
@[simp] theorem wr_shadow (s : State) (a : Nat) (v : Word) : (wr s a v).shadow = s.shadow := rfl
@[simp] theorem wr_readData (s : State) (a : Nat) (v : Word) : (wr s a v).readData = s.readData := rfl
@[simp] theorem wr_readHigh (s : State) (a : Nat) (v : Word) : (wr s a v).readHigh = s.readHigh := rfl
@[simp] theorem wr_barData (s : State) (a : Nat) (v : Word) : (wr s a v).barData = s.barData := rfl
@[simp] theorem wr_out (s : State) (a : Nat) (v : Word) : (wr s a v).out = s.out := rfl
@[simp] theorem wr_bridgeUp (s : State) (a : Nat) (v : Word) : (wr s a v).bridgeUp = s.bridgeUp := rfl
@[simp] theorem wr_bridgeDown (s : State) (a : Nat) (v : Word) : (wr s a v).bridgeDown = s.bridgeDown := rfl
@[simp] theorem wr_spr (s : State) (a : Nat) (v : Word) : (wr s a v).spr = s.spr := rfl
@[simp] theorem wr_tapLfsr (s : State) (a : Nat) (v : Word) : (wr s a v).tapLfsr = s.tapLfsr := rfl
@[simp] theorem wr_dome (s : State) (a : Nat) (v : Word) : (wr s a v).dome = s.dome := rfl
@[simp] theorem wr_lpddr (s : State) (a : Nat) (v : Word) : (wr s a v).lpddr = s.lpddr := rfl
@[simp] theorem wr_hostMem (s : State) (a : Nat) (v : Word) : (wr s a v).hostMem = s.hostMem := rfl
@[simp] theorem wr_vpData (s : State) (a : Nat) (v : Word) : (wr s a v).vpData = s.vpData := rfl
@[simp] theorem wr_freeCount (s : State) (a : Nat) (v : Word) : (wr s a v).freeCount = s.freeCount := rfl
@[simp] theorem wr_time (s : State) (a : Nat) (v : Word) : (wr s a v).time = s.time := rfl
@[simp] theorem wr_slew (s : State) (a : Nat) (v : Word) : (wr s a v).slew = s.slew := rfl
@[simp] theorem wr_stepped (s : State) (a : Nat) (v : Word) : (wr s a v).stepped = s.stepped := rfl
@[simp] theorem wr_cmpLate (s : State) (a : Nat) (v : Word) : (wr s a v).cmpLate = s.cmpLate := rfl
@[simp] theorem wr_holdSeen (s : State) (a : Nat) (v : Word) : (wr s a v).holdSeen = s.holdSeen := rfl
@[simp] theorem wr_trig (s : State) (a : Nat) (v : Word) : (wr s a v).trig = s.trig := rfl
@[simp] theorem wr_cap (s : State) (a : Nat) (v : Word) : (wr s a v).cap = s.cap := rfl
@[simp] theorem wr_ptp (s : State) (a : Nat) (v : Word) : (wr s a v).ptp = s.ptp := rfl
@[simp] theorem wr_cmds (s : State) (a : Nat) (v : Word) : (wr s a v).cmds = s.cmds := rfl
@[simp] theorem wr_pwr (s : State) (a : Nat) (v : Word) : (wr s a v).pwr = s.pwr := rfl
@[simp] theorem wr_pci (s : State) (a : Nat) (v : Word) : (wr s a v).pci = s.pci := rfl
@[simp] theorem wr_ing (s : State) (a : Nat) (v : Word) : (wr s a v).ing = s.ing := rfl
@[simp] theorem wr_heldUnits (s : State) (a : Nat) (v : Word) : (wr s a v).heldUnits = s.heldUnits := rfl
@[simp] theorem wr_aln (s : State) (a : Nat) (v : Word) : (wr s a v).aln = s.aln := rfl
@[simp] theorem wr_ego (s : State) (a : Nat) (v : Word) : (wr s a v).ego = s.ego := rfl
@[simp] theorem wr_vhe (s : State) (a : Nat) (v : Word) : (wr s a v).vhe = s.vhe := rfl
@[simp] theorem wr_lanes (s : State) (a : Nat) (v : Word) : (wr s a v).lanes = s.lanes := rfl
@[simp] theorem wr_grid (s : State) (a : Nat) (v : Word) : (wr s a v).grid = s.grid := rfl
@[simp] theorem wr_cal (s : State) (a : Nat) (v : Word) : (wr s a v).cal = s.cal := rfl
@[simp] theorem wr_slices (s : State) (a : Nat) (v : Word) : (wr s a v).slices = s.slices := rfl
@[simp] theorem wr_anyPublished (s : State) (a : Nat) (v : Word) : (wr s a v).anyPublished = s.anyPublished := rfl
@[simp] theorem wr_img (s : State) (a : Nat) (v : Word) : (wr s a v).img = s.img := rfl
@[simp] theorem wr_fab (s : State) (a : Nat) (v : Word) : (wr s a v).fab = s.fab := rfl
@[simp] theorem wr_attn (s : State) (a : Nat) (v : Word) : (wr s a v).attn = s.attn := rfl
@[simp] theorem wr_slv (s : State) (a : Nat) (v : Word) : (wr s a v).slv = s.slv := rfl
@[simp] theorem wr_govLower (s : State) (a : Nat) (v : Word) : (wr s a v).govLower = s.govLower := rfl
@[simp] theorem wr_goldRes (s : State) (a : Nat) (v : Word) : (wr s a v).goldRes = s.goldRes := rfl
@[simp] theorem wr_goldPending (s : State) (a : Nat) (v : Word) : (wr s a v).goldPending = s.goldPending := rfl
@[simp] theorem wr_goldDeferrals (s : State) (a : Nat) (v : Word) : (wr s a v).goldDeferrals = s.goldDeferrals := rfl
@[simp] theorem wr_goldRotation (s : State) (a : Nat) (v : Word) : (wr s a v).goldRotation = s.goldRotation := rfl
@[simp] theorem wr_goldForced (s : State) (a : Nat) (v : Word) : (wr s a v).goldForced = s.goldForced := rfl
@[simp] theorem wr_goldRecheck (s : State) (a : Nat) (v : Word) : (wr s a v).goldRecheck = s.goldRecheck := rfl
@[simp] theorem wr_goldClear (s : State) (a : Nat) (v : Word) : (wr s a v).goldClear = s.goldClear := rfl
@[simp] theorem wr_stopAbandon (s : State) (a : Nat) (v : Word) : (wr s a v).stopAbandon = s.stopAbandon := rfl
@[simp] theorem wr_replaying (s : State) (a : Nat) (v : Word) : (wr s a v).replaying = s.replaying := rfl
@[simp] theorem wr_runStart (s : State) (a : Nat) (v : Word) : (wr s a v).runStart = s.runStart := rfl
@[simp] theorem wr_nextSeq (s : State) (a : Nat) (v : Word) : (wr s a v).nextSeq = s.nextSeq := rfl
@[simp] theorem wr_halfNext (s : State) (a : Nat) (v : Word) : (wr s a v).halfNext = s.halfNext := rfl
@[simp] theorem wr_lastTov (s : State) (a : Nat) (v : Word) : (wr s a v).lastTov = s.lastTov := rfl
@[simp] theorem wr_mirror (s : State) (a : Nat) (v : Word) : (wr s a v).mirror = s.mirror := rfl
@[simp] theorem wr_tol (s : State) (a : Nat) (v : Word) : (wr s a v).tol = s.tol := rfl
@[simp] theorem wr_rcv (s : State) (a : Nat) (v : Word) : (wr s a v).rcv = s.rcv := rfl
@[simp] theorem wr_esc (s : State) (a : Nat) (v : Word) : (wr s a v).esc = s.esc := rfl
@[simp] theorem wr_bt (s : State) (a : Nat) (v : Word) : (wr s a v).bt = s.bt := rfl
@[simp] theorem wr_cup (s : State) (a : Nat) (v : Word) : (wr s a v).cup = s.cup := rfl
@[simp] theorem wr_links (s : State) (a : Nat) (v : Word) : (wr s a v).links = s.links := rfl
@[simp] theorem wr_dbg (s : State) (a : Nat) (v : Word) : (wr s a v).dbg = s.dbg := rfl
@[simp] theorem wr_rings (s : State) (a : Nat) (v : Word) : (wr s a v).rings = s.rings := rfl
@[simp] theorem wr_mgmt (s : State) (a : Nat) (v : Word) : (wr s a v).mgmt = s.mgmt := rfl

/-! ## fset -/

@[simp] theorem fset_pending (s : State) (a : Nat) (f : Bits) (v : Nat) : (fset s a f v).pending = s.pending := rfl
@[simp] theorem fset_regs (s : State) (a : Nat) (f : Bits) (v : Nat) : (fset s a f v).regs = cellsSet resetWord s.regs a (setBits f (rd s a) v) := rfl
@[simp] theorem fset_heldLow (s : State) (a : Nat) (f : Bits) (v : Nat) : (fset s a f v).heldLow = s.heldLow := rfl
@[simp] theorem fset_shadow (s : State) (a : Nat) (f : Bits) (v : Nat) : (fset s a f v).shadow = s.shadow := rfl
@[simp] theorem fset_readData (s : State) (a : Nat) (f : Bits) (v : Nat) : (fset s a f v).readData = s.readData := rfl
@[simp] theorem fset_readHigh (s : State) (a : Nat) (f : Bits) (v : Nat) : (fset s a f v).readHigh = s.readHigh := rfl
@[simp] theorem fset_barData (s : State) (a : Nat) (f : Bits) (v : Nat) : (fset s a f v).barData = s.barData := rfl
@[simp] theorem fset_out (s : State) (a : Nat) (f : Bits) (v : Nat) : (fset s a f v).out = s.out := rfl
@[simp] theorem fset_bridgeUp (s : State) (a : Nat) (f : Bits) (v : Nat) : (fset s a f v).bridgeUp = s.bridgeUp := rfl
@[simp] theorem fset_bridgeDown (s : State) (a : Nat) (f : Bits) (v : Nat) : (fset s a f v).bridgeDown = s.bridgeDown := rfl
@[simp] theorem fset_spr (s : State) (a : Nat) (f : Bits) (v : Nat) : (fset s a f v).spr = s.spr := rfl
@[simp] theorem fset_tapLfsr (s : State) (a : Nat) (f : Bits) (v : Nat) : (fset s a f v).tapLfsr = s.tapLfsr := rfl
@[simp] theorem fset_dome (s : State) (a : Nat) (f : Bits) (v : Nat) : (fset s a f v).dome = s.dome := rfl
@[simp] theorem fset_lpddr (s : State) (a : Nat) (f : Bits) (v : Nat) : (fset s a f v).lpddr = s.lpddr := rfl
@[simp] theorem fset_hostMem (s : State) (a : Nat) (f : Bits) (v : Nat) : (fset s a f v).hostMem = s.hostMem := rfl
@[simp] theorem fset_vpData (s : State) (a : Nat) (f : Bits) (v : Nat) : (fset s a f v).vpData = s.vpData := rfl
@[simp] theorem fset_freeCount (s : State) (a : Nat) (f : Bits) (v : Nat) : (fset s a f v).freeCount = s.freeCount := rfl
@[simp] theorem fset_time (s : State) (a : Nat) (f : Bits) (v : Nat) : (fset s a f v).time = s.time := rfl
@[simp] theorem fset_slew (s : State) (a : Nat) (f : Bits) (v : Nat) : (fset s a f v).slew = s.slew := rfl
@[simp] theorem fset_stepped (s : State) (a : Nat) (f : Bits) (v : Nat) : (fset s a f v).stepped = s.stepped := rfl
@[simp] theorem fset_cmpLate (s : State) (a : Nat) (f : Bits) (v : Nat) : (fset s a f v).cmpLate = s.cmpLate := rfl
@[simp] theorem fset_holdSeen (s : State) (a : Nat) (f : Bits) (v : Nat) : (fset s a f v).holdSeen = s.holdSeen := rfl
@[simp] theorem fset_trig (s : State) (a : Nat) (f : Bits) (v : Nat) : (fset s a f v).trig = s.trig := rfl
@[simp] theorem fset_cap (s : State) (a : Nat) (f : Bits) (v : Nat) : (fset s a f v).cap = s.cap := rfl
@[simp] theorem fset_ptp (s : State) (a : Nat) (f : Bits) (v : Nat) : (fset s a f v).ptp = s.ptp := rfl
@[simp] theorem fset_cmds (s : State) (a : Nat) (f : Bits) (v : Nat) : (fset s a f v).cmds = s.cmds := rfl
@[simp] theorem fset_pwr (s : State) (a : Nat) (f : Bits) (v : Nat) : (fset s a f v).pwr = s.pwr := rfl
@[simp] theorem fset_pci (s : State) (a : Nat) (f : Bits) (v : Nat) : (fset s a f v).pci = s.pci := rfl
@[simp] theorem fset_ing (s : State) (a : Nat) (f : Bits) (v : Nat) : (fset s a f v).ing = s.ing := rfl
@[simp] theorem fset_heldUnits (s : State) (a : Nat) (f : Bits) (v : Nat) : (fset s a f v).heldUnits = s.heldUnits := rfl
@[simp] theorem fset_aln (s : State) (a : Nat) (f : Bits) (v : Nat) : (fset s a f v).aln = s.aln := rfl
@[simp] theorem fset_ego (s : State) (a : Nat) (f : Bits) (v : Nat) : (fset s a f v).ego = s.ego := rfl
@[simp] theorem fset_vhe (s : State) (a : Nat) (f : Bits) (v : Nat) : (fset s a f v).vhe = s.vhe := rfl
@[simp] theorem fset_lanes (s : State) (a : Nat) (f : Bits) (v : Nat) : (fset s a f v).lanes = s.lanes := rfl
@[simp] theorem fset_grid (s : State) (a : Nat) (f : Bits) (v : Nat) : (fset s a f v).grid = s.grid := rfl
@[simp] theorem fset_cal (s : State) (a : Nat) (f : Bits) (v : Nat) : (fset s a f v).cal = s.cal := rfl
@[simp] theorem fset_slices (s : State) (a : Nat) (f : Bits) (v : Nat) : (fset s a f v).slices = s.slices := rfl
@[simp] theorem fset_anyPublished (s : State) (a : Nat) (f : Bits) (v : Nat) : (fset s a f v).anyPublished = s.anyPublished := rfl
@[simp] theorem fset_img (s : State) (a : Nat) (f : Bits) (v : Nat) : (fset s a f v).img = s.img := rfl
@[simp] theorem fset_fab (s : State) (a : Nat) (f : Bits) (v : Nat) : (fset s a f v).fab = s.fab := rfl
@[simp] theorem fset_attn (s : State) (a : Nat) (f : Bits) (v : Nat) : (fset s a f v).attn = s.attn := rfl
@[simp] theorem fset_slv (s : State) (a : Nat) (f : Bits) (v : Nat) : (fset s a f v).slv = s.slv := rfl
@[simp] theorem fset_govLower (s : State) (a : Nat) (f : Bits) (v : Nat) : (fset s a f v).govLower = s.govLower := rfl
@[simp] theorem fset_goldRes (s : State) (a : Nat) (f : Bits) (v : Nat) : (fset s a f v).goldRes = s.goldRes := rfl
@[simp] theorem fset_goldPending (s : State) (a : Nat) (f : Bits) (v : Nat) : (fset s a f v).goldPending = s.goldPending := rfl
@[simp] theorem fset_goldDeferrals (s : State) (a : Nat) (f : Bits) (v : Nat) : (fset s a f v).goldDeferrals = s.goldDeferrals := rfl
@[simp] theorem fset_goldRotation (s : State) (a : Nat) (f : Bits) (v : Nat) : (fset s a f v).goldRotation = s.goldRotation := rfl
@[simp] theorem fset_goldForced (s : State) (a : Nat) (f : Bits) (v : Nat) : (fset s a f v).goldForced = s.goldForced := rfl
@[simp] theorem fset_goldRecheck (s : State) (a : Nat) (f : Bits) (v : Nat) : (fset s a f v).goldRecheck = s.goldRecheck := rfl
@[simp] theorem fset_goldClear (s : State) (a : Nat) (f : Bits) (v : Nat) : (fset s a f v).goldClear = s.goldClear := rfl
@[simp] theorem fset_stopAbandon (s : State) (a : Nat) (f : Bits) (v : Nat) : (fset s a f v).stopAbandon = s.stopAbandon := rfl
@[simp] theorem fset_replaying (s : State) (a : Nat) (f : Bits) (v : Nat) : (fset s a f v).replaying = s.replaying := rfl
@[simp] theorem fset_runStart (s : State) (a : Nat) (f : Bits) (v : Nat) : (fset s a f v).runStart = s.runStart := rfl
@[simp] theorem fset_nextSeq (s : State) (a : Nat) (f : Bits) (v : Nat) : (fset s a f v).nextSeq = s.nextSeq := rfl
@[simp] theorem fset_halfNext (s : State) (a : Nat) (f : Bits) (v : Nat) : (fset s a f v).halfNext = s.halfNext := rfl
@[simp] theorem fset_lastTov (s : State) (a : Nat) (f : Bits) (v : Nat) : (fset s a f v).lastTov = s.lastTov := rfl
@[simp] theorem fset_mirror (s : State) (a : Nat) (f : Bits) (v : Nat) : (fset s a f v).mirror = s.mirror := rfl
@[simp] theorem fset_tol (s : State) (a : Nat) (f : Bits) (v : Nat) : (fset s a f v).tol = s.tol := rfl
@[simp] theorem fset_rcv (s : State) (a : Nat) (f : Bits) (v : Nat) : (fset s a f v).rcv = s.rcv := rfl
@[simp] theorem fset_esc (s : State) (a : Nat) (f : Bits) (v : Nat) : (fset s a f v).esc = s.esc := rfl
@[simp] theorem fset_bt (s : State) (a : Nat) (f : Bits) (v : Nat) : (fset s a f v).bt = s.bt := rfl
@[simp] theorem fset_cup (s : State) (a : Nat) (f : Bits) (v : Nat) : (fset s a f v).cup = s.cup := rfl
@[simp] theorem fset_links (s : State) (a : Nat) (f : Bits) (v : Nat) : (fset s a f v).links = s.links := rfl
@[simp] theorem fset_dbg (s : State) (a : Nat) (f : Bits) (v : Nat) : (fset s a f v).dbg = s.dbg := rfl
@[simp] theorem fset_rings (s : State) (a : Nat) (f : Bits) (v : Nat) : (fset s a f v).rings = s.rings := rfl
@[simp] theorem fset_mgmt (s : State) (a : Nat) (f : Bits) (v : Nat) : (fset s a f v).mgmt = s.mgmt := rfl

/-! ## emit -/

@[simp] theorem emit_pending (e : OutEvent) (s : State) : (emit e s).pending = s.pending := rfl
@[simp] theorem emit_regs (e : OutEvent) (s : State) : (emit e s).regs = s.regs := rfl
@[simp] theorem emit_heldLow (e : OutEvent) (s : State) : (emit e s).heldLow = s.heldLow := rfl
@[simp] theorem emit_shadow (e : OutEvent) (s : State) : (emit e s).shadow = s.shadow := rfl
@[simp] theorem emit_readData (e : OutEvent) (s : State) : (emit e s).readData = s.readData := rfl
@[simp] theorem emit_readHigh (e : OutEvent) (s : State) : (emit e s).readHigh = s.readHigh := rfl
@[simp] theorem emit_barData (e : OutEvent) (s : State) : (emit e s).barData = s.barData := rfl
@[simp] theorem emit_out (e : OutEvent) (s : State) : (emit e s).out = e :: s.out := rfl
@[simp] theorem emit_bridgeUp (e : OutEvent) (s : State) : (emit e s).bridgeUp = s.bridgeUp := rfl
@[simp] theorem emit_bridgeDown (e : OutEvent) (s : State) : (emit e s).bridgeDown = s.bridgeDown := rfl
@[simp] theorem emit_spr (e : OutEvent) (s : State) : (emit e s).spr = s.spr := rfl
@[simp] theorem emit_tapLfsr (e : OutEvent) (s : State) : (emit e s).tapLfsr = s.tapLfsr := rfl
@[simp] theorem emit_dome (e : OutEvent) (s : State) : (emit e s).dome = s.dome := rfl
@[simp] theorem emit_lpddr (e : OutEvent) (s : State) : (emit e s).lpddr = s.lpddr := rfl
@[simp] theorem emit_hostMem (e : OutEvent) (s : State) : (emit e s).hostMem = s.hostMem := rfl
@[simp] theorem emit_vpData (e : OutEvent) (s : State) : (emit e s).vpData = s.vpData := rfl
@[simp] theorem emit_freeCount (e : OutEvent) (s : State) : (emit e s).freeCount = s.freeCount := rfl
@[simp] theorem emit_time (e : OutEvent) (s : State) : (emit e s).time = s.time := rfl
@[simp] theorem emit_slew (e : OutEvent) (s : State) : (emit e s).slew = s.slew := rfl
@[simp] theorem emit_stepped (e : OutEvent) (s : State) : (emit e s).stepped = s.stepped := rfl
@[simp] theorem emit_cmpLate (e : OutEvent) (s : State) : (emit e s).cmpLate = s.cmpLate := rfl
@[simp] theorem emit_holdSeen (e : OutEvent) (s : State) : (emit e s).holdSeen = s.holdSeen := rfl
@[simp] theorem emit_trig (e : OutEvent) (s : State) : (emit e s).trig = s.trig := rfl
@[simp] theorem emit_cap (e : OutEvent) (s : State) : (emit e s).cap = s.cap := rfl
@[simp] theorem emit_ptp (e : OutEvent) (s : State) : (emit e s).ptp = s.ptp := rfl
@[simp] theorem emit_cmds (e : OutEvent) (s : State) : (emit e s).cmds = s.cmds := rfl
@[simp] theorem emit_pwr (e : OutEvent) (s : State) : (emit e s).pwr = s.pwr := rfl
@[simp] theorem emit_pci (e : OutEvent) (s : State) : (emit e s).pci = s.pci := rfl
@[simp] theorem emit_ing (e : OutEvent) (s : State) : (emit e s).ing = s.ing := rfl
@[simp] theorem emit_heldUnits (e : OutEvent) (s : State) : (emit e s).heldUnits = s.heldUnits := rfl
@[simp] theorem emit_aln (e : OutEvent) (s : State) : (emit e s).aln = s.aln := rfl
@[simp] theorem emit_ego (e : OutEvent) (s : State) : (emit e s).ego = s.ego := rfl
@[simp] theorem emit_vhe (e : OutEvent) (s : State) : (emit e s).vhe = s.vhe := rfl
@[simp] theorem emit_lanes (e : OutEvent) (s : State) : (emit e s).lanes = s.lanes := rfl
@[simp] theorem emit_grid (e : OutEvent) (s : State) : (emit e s).grid = s.grid := rfl
@[simp] theorem emit_cal (e : OutEvent) (s : State) : (emit e s).cal = s.cal := rfl
@[simp] theorem emit_slices (e : OutEvent) (s : State) : (emit e s).slices = s.slices := rfl
@[simp] theorem emit_anyPublished (e : OutEvent) (s : State) : (emit e s).anyPublished = s.anyPublished := rfl
@[simp] theorem emit_img (e : OutEvent) (s : State) : (emit e s).img = s.img := rfl
@[simp] theorem emit_fab (e : OutEvent) (s : State) : (emit e s).fab = s.fab := rfl
@[simp] theorem emit_attn (e : OutEvent) (s : State) : (emit e s).attn = s.attn := rfl
@[simp] theorem emit_slv (e : OutEvent) (s : State) : (emit e s).slv = s.slv := rfl
@[simp] theorem emit_govLower (e : OutEvent) (s : State) : (emit e s).govLower = s.govLower := rfl
@[simp] theorem emit_goldRes (e : OutEvent) (s : State) : (emit e s).goldRes = s.goldRes := rfl
@[simp] theorem emit_goldPending (e : OutEvent) (s : State) : (emit e s).goldPending = s.goldPending := rfl
@[simp] theorem emit_goldDeferrals (e : OutEvent) (s : State) : (emit e s).goldDeferrals = s.goldDeferrals := rfl
@[simp] theorem emit_goldRotation (e : OutEvent) (s : State) : (emit e s).goldRotation = s.goldRotation := rfl
@[simp] theorem emit_goldForced (e : OutEvent) (s : State) : (emit e s).goldForced = s.goldForced := rfl
@[simp] theorem emit_goldRecheck (e : OutEvent) (s : State) : (emit e s).goldRecheck = s.goldRecheck := rfl
@[simp] theorem emit_goldClear (e : OutEvent) (s : State) : (emit e s).goldClear = s.goldClear := rfl
@[simp] theorem emit_stopAbandon (e : OutEvent) (s : State) : (emit e s).stopAbandon = s.stopAbandon := rfl
@[simp] theorem emit_replaying (e : OutEvent) (s : State) : (emit e s).replaying = s.replaying := rfl
@[simp] theorem emit_runStart (e : OutEvent) (s : State) : (emit e s).runStart = s.runStart := rfl
@[simp] theorem emit_nextSeq (e : OutEvent) (s : State) : (emit e s).nextSeq = s.nextSeq := rfl
@[simp] theorem emit_halfNext (e : OutEvent) (s : State) : (emit e s).halfNext = s.halfNext := rfl
@[simp] theorem emit_lastTov (e : OutEvent) (s : State) : (emit e s).lastTov = s.lastTov := rfl
@[simp] theorem emit_mirror (e : OutEvent) (s : State) : (emit e s).mirror = s.mirror := rfl
@[simp] theorem emit_tol (e : OutEvent) (s : State) : (emit e s).tol = s.tol := rfl
@[simp] theorem emit_rcv (e : OutEvent) (s : State) : (emit e s).rcv = s.rcv := rfl
@[simp] theorem emit_esc (e : OutEvent) (s : State) : (emit e s).esc = s.esc := rfl
@[simp] theorem emit_bt (e : OutEvent) (s : State) : (emit e s).bt = s.bt := rfl
@[simp] theorem emit_cup (e : OutEvent) (s : State) : (emit e s).cup = s.cup := rfl
@[simp] theorem emit_links (e : OutEvent) (s : State) : (emit e s).links = s.links := rfl
@[simp] theorem emit_dbg (e : OutEvent) (s : State) : (emit e s).dbg = s.dbg := rfl
@[simp] theorem emit_rings (e : OutEvent) (s : State) : (emit e s).rings = s.rings := rfl
@[simp] theorem emit_mgmt (e : OutEvent) (s : State) : (emit e s).mgmt = s.mgmt := rfl

/-! ## sendUp -/

@[simp] theorem sendUp_pending (m : UpMsg) (s : State) : (sendUp m s).pending = s.pending := rfl
@[simp] theorem sendUp_regs (m : UpMsg) (s : State) : (sendUp m s).regs = s.regs := rfl
@[simp] theorem sendUp_heldLow (m : UpMsg) (s : State) : (sendUp m s).heldLow = s.heldLow := rfl
@[simp] theorem sendUp_shadow (m : UpMsg) (s : State) : (sendUp m s).shadow = s.shadow := rfl
@[simp] theorem sendUp_readData (m : UpMsg) (s : State) : (sendUp m s).readData = s.readData := rfl
@[simp] theorem sendUp_readHigh (m : UpMsg) (s : State) : (sendUp m s).readHigh = s.readHigh := rfl
@[simp] theorem sendUp_barData (m : UpMsg) (s : State) : (sendUp m s).barData = s.barData := rfl
@[simp] theorem sendUp_out (m : UpMsg) (s : State) : (sendUp m s).out = s.out := rfl
@[simp] theorem sendUp_bridgeUp (m : UpMsg) (s : State) : (sendUp m s).bridgeUp = s.bridgeUp ++ [m] := rfl
@[simp] theorem sendUp_bridgeDown (m : UpMsg) (s : State) : (sendUp m s).bridgeDown = s.bridgeDown := rfl
@[simp] theorem sendUp_spr (m : UpMsg) (s : State) : (sendUp m s).spr = s.spr := rfl
@[simp] theorem sendUp_tapLfsr (m : UpMsg) (s : State) : (sendUp m s).tapLfsr = s.tapLfsr := rfl
@[simp] theorem sendUp_dome (m : UpMsg) (s : State) : (sendUp m s).dome = s.dome := rfl
@[simp] theorem sendUp_lpddr (m : UpMsg) (s : State) : (sendUp m s).lpddr = s.lpddr := rfl
@[simp] theorem sendUp_hostMem (m : UpMsg) (s : State) : (sendUp m s).hostMem = s.hostMem := rfl
@[simp] theorem sendUp_vpData (m : UpMsg) (s : State) : (sendUp m s).vpData = s.vpData := rfl
@[simp] theorem sendUp_freeCount (m : UpMsg) (s : State) : (sendUp m s).freeCount = s.freeCount := rfl
@[simp] theorem sendUp_time (m : UpMsg) (s : State) : (sendUp m s).time = s.time := rfl
@[simp] theorem sendUp_slew (m : UpMsg) (s : State) : (sendUp m s).slew = s.slew := rfl
@[simp] theorem sendUp_stepped (m : UpMsg) (s : State) : (sendUp m s).stepped = s.stepped := rfl
@[simp] theorem sendUp_cmpLate (m : UpMsg) (s : State) : (sendUp m s).cmpLate = s.cmpLate := rfl
@[simp] theorem sendUp_holdSeen (m : UpMsg) (s : State) : (sendUp m s).holdSeen = s.holdSeen := rfl
@[simp] theorem sendUp_trig (m : UpMsg) (s : State) : (sendUp m s).trig = s.trig := rfl
@[simp] theorem sendUp_cap (m : UpMsg) (s : State) : (sendUp m s).cap = s.cap := rfl
@[simp] theorem sendUp_ptp (m : UpMsg) (s : State) : (sendUp m s).ptp = s.ptp := rfl
@[simp] theorem sendUp_cmds (m : UpMsg) (s : State) : (sendUp m s).cmds = s.cmds := rfl
@[simp] theorem sendUp_pwr (m : UpMsg) (s : State) : (sendUp m s).pwr = s.pwr := rfl
@[simp] theorem sendUp_pci (m : UpMsg) (s : State) : (sendUp m s).pci = s.pci := rfl
@[simp] theorem sendUp_ing (m : UpMsg) (s : State) : (sendUp m s).ing = s.ing := rfl
@[simp] theorem sendUp_heldUnits (m : UpMsg) (s : State) : (sendUp m s).heldUnits = s.heldUnits := rfl
@[simp] theorem sendUp_aln (m : UpMsg) (s : State) : (sendUp m s).aln = s.aln := rfl
@[simp] theorem sendUp_ego (m : UpMsg) (s : State) : (sendUp m s).ego = s.ego := rfl
@[simp] theorem sendUp_vhe (m : UpMsg) (s : State) : (sendUp m s).vhe = s.vhe := rfl
@[simp] theorem sendUp_lanes (m : UpMsg) (s : State) : (sendUp m s).lanes = s.lanes := rfl
@[simp] theorem sendUp_grid (m : UpMsg) (s : State) : (sendUp m s).grid = s.grid := rfl
@[simp] theorem sendUp_cal (m : UpMsg) (s : State) : (sendUp m s).cal = s.cal := rfl
@[simp] theorem sendUp_slices (m : UpMsg) (s : State) : (sendUp m s).slices = s.slices := rfl
@[simp] theorem sendUp_anyPublished (m : UpMsg) (s : State) : (sendUp m s).anyPublished = s.anyPublished := rfl
@[simp] theorem sendUp_img (m : UpMsg) (s : State) : (sendUp m s).img = s.img := rfl
@[simp] theorem sendUp_fab (m : UpMsg) (s : State) : (sendUp m s).fab = s.fab := rfl
@[simp] theorem sendUp_attn (m : UpMsg) (s : State) : (sendUp m s).attn = s.attn := rfl
@[simp] theorem sendUp_slv (m : UpMsg) (s : State) : (sendUp m s).slv = s.slv := rfl
@[simp] theorem sendUp_govLower (m : UpMsg) (s : State) : (sendUp m s).govLower = s.govLower := rfl
@[simp] theorem sendUp_goldRes (m : UpMsg) (s : State) : (sendUp m s).goldRes = s.goldRes := rfl
@[simp] theorem sendUp_goldPending (m : UpMsg) (s : State) : (sendUp m s).goldPending = s.goldPending := rfl
@[simp] theorem sendUp_goldDeferrals (m : UpMsg) (s : State) : (sendUp m s).goldDeferrals = s.goldDeferrals := rfl
@[simp] theorem sendUp_goldRotation (m : UpMsg) (s : State) : (sendUp m s).goldRotation = s.goldRotation := rfl
@[simp] theorem sendUp_goldForced (m : UpMsg) (s : State) : (sendUp m s).goldForced = s.goldForced := rfl
@[simp] theorem sendUp_goldRecheck (m : UpMsg) (s : State) : (sendUp m s).goldRecheck = s.goldRecheck := rfl
@[simp] theorem sendUp_goldClear (m : UpMsg) (s : State) : (sendUp m s).goldClear = s.goldClear := rfl
@[simp] theorem sendUp_stopAbandon (m : UpMsg) (s : State) : (sendUp m s).stopAbandon = s.stopAbandon := rfl
@[simp] theorem sendUp_replaying (m : UpMsg) (s : State) : (sendUp m s).replaying = s.replaying := rfl
@[simp] theorem sendUp_runStart (m : UpMsg) (s : State) : (sendUp m s).runStart = s.runStart := rfl
@[simp] theorem sendUp_nextSeq (m : UpMsg) (s : State) : (sendUp m s).nextSeq = s.nextSeq := rfl
@[simp] theorem sendUp_halfNext (m : UpMsg) (s : State) : (sendUp m s).halfNext = s.halfNext := rfl
@[simp] theorem sendUp_lastTov (m : UpMsg) (s : State) : (sendUp m s).lastTov = s.lastTov := rfl
@[simp] theorem sendUp_mirror (m : UpMsg) (s : State) : (sendUp m s).mirror = s.mirror := rfl
@[simp] theorem sendUp_tol (m : UpMsg) (s : State) : (sendUp m s).tol = s.tol := rfl
@[simp] theorem sendUp_rcv (m : UpMsg) (s : State) : (sendUp m s).rcv = s.rcv := rfl
@[simp] theorem sendUp_esc (m : UpMsg) (s : State) : (sendUp m s).esc = s.esc := rfl
@[simp] theorem sendUp_bt (m : UpMsg) (s : State) : (sendUp m s).bt = s.bt := rfl
@[simp] theorem sendUp_cup (m : UpMsg) (s : State) : (sendUp m s).cup = s.cup := rfl
@[simp] theorem sendUp_links (m : UpMsg) (s : State) : (sendUp m s).links = s.links := rfl
@[simp] theorem sendUp_dbg (m : UpMsg) (s : State) : (sendUp m s).dbg = s.dbg := rfl
@[simp] theorem sendUp_rings (m : UpMsg) (s : State) : (sendUp m s).rings = s.rings := rfl
@[simp] theorem sendUp_mgmt (m : UpMsg) (s : State) : (sendUp m s).mgmt = s.mgmt := rfl

/-! ## ddrPut -/

@[simp] theorem ddrPut_pending (s : State) (a : Nat) (bs : List Nat) : (ddrPut s a bs).pending = s.pending := rfl
@[simp] theorem ddrPut_regs (s : State) (a : Nat) (bs : List Nat) : (ddrPut s a bs).regs = s.regs := rfl
@[simp] theorem ddrPut_heldLow (s : State) (a : Nat) (bs : List Nat) : (ddrPut s a bs).heldLow = s.heldLow := rfl
@[simp] theorem ddrPut_shadow (s : State) (a : Nat) (bs : List Nat) : (ddrPut s a bs).shadow = s.shadow := rfl
@[simp] theorem ddrPut_readData (s : State) (a : Nat) (bs : List Nat) : (ddrPut s a bs).readData = s.readData := rfl
@[simp] theorem ddrPut_readHigh (s : State) (a : Nat) (bs : List Nat) : (ddrPut s a bs).readHigh = s.readHigh := rfl
@[simp] theorem ddrPut_barData (s : State) (a : Nat) (bs : List Nat) : (ddrPut s a bs).barData = s.barData := rfl
@[simp] theorem ddrPut_out (s : State) (a : Nat) (bs : List Nat) : (ddrPut s a bs).out = s.out := rfl
@[simp] theorem ddrPut_bridgeUp (s : State) (a : Nat) (bs : List Nat) : (ddrPut s a bs).bridgeUp = s.bridgeUp := rfl
@[simp] theorem ddrPut_bridgeDown (s : State) (a : Nat) (bs : List Nat) : (ddrPut s a bs).bridgeDown = s.bridgeDown := rfl
@[simp] theorem ddrPut_spr (s : State) (a : Nat) (bs : List Nat) : (ddrPut s a bs).spr = s.spr := rfl
@[simp] theorem ddrPut_tapLfsr (s : State) (a : Nat) (bs : List Nat) : (ddrPut s a bs).tapLfsr = s.tapLfsr := rfl
@[simp] theorem ddrPut_dome (s : State) (a : Nat) (bs : List Nat) : (ddrPut s a bs).dome = s.dome := rfl
@[simp] theorem ddrPut_lpddr (s : State) (a : Nat) (bs : List Nat) : (ddrPut s a bs).lpddr = putBytes s.lpddr a bs := rfl
@[simp] theorem ddrPut_hostMem (s : State) (a : Nat) (bs : List Nat) : (ddrPut s a bs).hostMem = s.hostMem := rfl
@[simp] theorem ddrPut_vpData (s : State) (a : Nat) (bs : List Nat) : (ddrPut s a bs).vpData = s.vpData := rfl
@[simp] theorem ddrPut_freeCount (s : State) (a : Nat) (bs : List Nat) : (ddrPut s a bs).freeCount = s.freeCount := rfl
@[simp] theorem ddrPut_time (s : State) (a : Nat) (bs : List Nat) : (ddrPut s a bs).time = s.time := rfl
@[simp] theorem ddrPut_slew (s : State) (a : Nat) (bs : List Nat) : (ddrPut s a bs).slew = s.slew := rfl
@[simp] theorem ddrPut_stepped (s : State) (a : Nat) (bs : List Nat) : (ddrPut s a bs).stepped = s.stepped := rfl
@[simp] theorem ddrPut_cmpLate (s : State) (a : Nat) (bs : List Nat) : (ddrPut s a bs).cmpLate = s.cmpLate := rfl
@[simp] theorem ddrPut_holdSeen (s : State) (a : Nat) (bs : List Nat) : (ddrPut s a bs).holdSeen = s.holdSeen := rfl
@[simp] theorem ddrPut_trig (s : State) (a : Nat) (bs : List Nat) : (ddrPut s a bs).trig = s.trig := rfl
@[simp] theorem ddrPut_cap (s : State) (a : Nat) (bs : List Nat) : (ddrPut s a bs).cap = s.cap := rfl
@[simp] theorem ddrPut_ptp (s : State) (a : Nat) (bs : List Nat) : (ddrPut s a bs).ptp = s.ptp := rfl
@[simp] theorem ddrPut_cmds (s : State) (a : Nat) (bs : List Nat) : (ddrPut s a bs).cmds = s.cmds := rfl
@[simp] theorem ddrPut_pwr (s : State) (a : Nat) (bs : List Nat) : (ddrPut s a bs).pwr = s.pwr := rfl
@[simp] theorem ddrPut_pci (s : State) (a : Nat) (bs : List Nat) : (ddrPut s a bs).pci = s.pci := rfl
@[simp] theorem ddrPut_ing (s : State) (a : Nat) (bs : List Nat) : (ddrPut s a bs).ing = s.ing := rfl
@[simp] theorem ddrPut_heldUnits (s : State) (a : Nat) (bs : List Nat) : (ddrPut s a bs).heldUnits = s.heldUnits := rfl
@[simp] theorem ddrPut_aln (s : State) (a : Nat) (bs : List Nat) : (ddrPut s a bs).aln = s.aln := rfl
@[simp] theorem ddrPut_ego (s : State) (a : Nat) (bs : List Nat) : (ddrPut s a bs).ego = s.ego := rfl
@[simp] theorem ddrPut_vhe (s : State) (a : Nat) (bs : List Nat) : (ddrPut s a bs).vhe = s.vhe := rfl
@[simp] theorem ddrPut_lanes (s : State) (a : Nat) (bs : List Nat) : (ddrPut s a bs).lanes = s.lanes := rfl
@[simp] theorem ddrPut_grid (s : State) (a : Nat) (bs : List Nat) : (ddrPut s a bs).grid = s.grid := rfl
@[simp] theorem ddrPut_cal (s : State) (a : Nat) (bs : List Nat) : (ddrPut s a bs).cal = s.cal := rfl
@[simp] theorem ddrPut_slices (s : State) (a : Nat) (bs : List Nat) : (ddrPut s a bs).slices = s.slices := rfl
@[simp] theorem ddrPut_anyPublished (s : State) (a : Nat) (bs : List Nat) : (ddrPut s a bs).anyPublished = s.anyPublished := rfl
@[simp] theorem ddrPut_img (s : State) (a : Nat) (bs : List Nat) : (ddrPut s a bs).img = s.img := rfl
@[simp] theorem ddrPut_fab (s : State) (a : Nat) (bs : List Nat) : (ddrPut s a bs).fab = s.fab := rfl
@[simp] theorem ddrPut_attn (s : State) (a : Nat) (bs : List Nat) : (ddrPut s a bs).attn = s.attn := rfl
@[simp] theorem ddrPut_slv (s : State) (a : Nat) (bs : List Nat) : (ddrPut s a bs).slv = s.slv := rfl
@[simp] theorem ddrPut_govLower (s : State) (a : Nat) (bs : List Nat) : (ddrPut s a bs).govLower = s.govLower := rfl
@[simp] theorem ddrPut_goldRes (s : State) (a : Nat) (bs : List Nat) : (ddrPut s a bs).goldRes = s.goldRes := rfl
@[simp] theorem ddrPut_goldPending (s : State) (a : Nat) (bs : List Nat) : (ddrPut s a bs).goldPending = s.goldPending := rfl
@[simp] theorem ddrPut_goldDeferrals (s : State) (a : Nat) (bs : List Nat) : (ddrPut s a bs).goldDeferrals = s.goldDeferrals := rfl
@[simp] theorem ddrPut_goldRotation (s : State) (a : Nat) (bs : List Nat) : (ddrPut s a bs).goldRotation = s.goldRotation := rfl
@[simp] theorem ddrPut_goldForced (s : State) (a : Nat) (bs : List Nat) : (ddrPut s a bs).goldForced = s.goldForced := rfl
@[simp] theorem ddrPut_goldRecheck (s : State) (a : Nat) (bs : List Nat) : (ddrPut s a bs).goldRecheck = s.goldRecheck := rfl
@[simp] theorem ddrPut_goldClear (s : State) (a : Nat) (bs : List Nat) : (ddrPut s a bs).goldClear = s.goldClear := rfl
@[simp] theorem ddrPut_stopAbandon (s : State) (a : Nat) (bs : List Nat) : (ddrPut s a bs).stopAbandon = s.stopAbandon := rfl
@[simp] theorem ddrPut_replaying (s : State) (a : Nat) (bs : List Nat) : (ddrPut s a bs).replaying = s.replaying := rfl
@[simp] theorem ddrPut_runStart (s : State) (a : Nat) (bs : List Nat) : (ddrPut s a bs).runStart = s.runStart := rfl
@[simp] theorem ddrPut_nextSeq (s : State) (a : Nat) (bs : List Nat) : (ddrPut s a bs).nextSeq = s.nextSeq := rfl
@[simp] theorem ddrPut_halfNext (s : State) (a : Nat) (bs : List Nat) : (ddrPut s a bs).halfNext = s.halfNext := rfl
@[simp] theorem ddrPut_lastTov (s : State) (a : Nat) (bs : List Nat) : (ddrPut s a bs).lastTov = s.lastTov := rfl
@[simp] theorem ddrPut_mirror (s : State) (a : Nat) (bs : List Nat) : (ddrPut s a bs).mirror = s.mirror := rfl
@[simp] theorem ddrPut_tol (s : State) (a : Nat) (bs : List Nat) : (ddrPut s a bs).tol = s.tol := rfl
@[simp] theorem ddrPut_rcv (s : State) (a : Nat) (bs : List Nat) : (ddrPut s a bs).rcv = s.rcv := rfl
@[simp] theorem ddrPut_esc (s : State) (a : Nat) (bs : List Nat) : (ddrPut s a bs).esc = s.esc := rfl
@[simp] theorem ddrPut_bt (s : State) (a : Nat) (bs : List Nat) : (ddrPut s a bs).bt = s.bt := rfl
@[simp] theorem ddrPut_cup (s : State) (a : Nat) (bs : List Nat) : (ddrPut s a bs).cup = s.cup := rfl
@[simp] theorem ddrPut_links (s : State) (a : Nat) (bs : List Nat) : (ddrPut s a bs).links = s.links := rfl
@[simp] theorem ddrPut_dbg (s : State) (a : Nat) (bs : List Nat) : (ddrPut s a bs).dbg = s.dbg := rfl
@[simp] theorem ddrPut_rings (s : State) (a : Nat) (bs : List Nat) : (ddrPut s a bs).rings = s.rings := rfl
@[simp] theorem ddrPut_mgmt (s : State) (a : Nat) (bs : List Nat) : (ddrPut s a bs).mgmt = s.mgmt := rfl

/-! ## domePut -/

@[simp] theorem domePut_pending (s : State) (a : Nat) (bs : List Nat) : (domePut s a bs).pending = s.pending := rfl
@[simp] theorem domePut_regs (s : State) (a : Nat) (bs : List Nat) : (domePut s a bs).regs = s.regs := rfl
@[simp] theorem domePut_heldLow (s : State) (a : Nat) (bs : List Nat) : (domePut s a bs).heldLow = s.heldLow := rfl
@[simp] theorem domePut_shadow (s : State) (a : Nat) (bs : List Nat) : (domePut s a bs).shadow = s.shadow := rfl
@[simp] theorem domePut_readData (s : State) (a : Nat) (bs : List Nat) : (domePut s a bs).readData = s.readData := rfl
@[simp] theorem domePut_readHigh (s : State) (a : Nat) (bs : List Nat) : (domePut s a bs).readHigh = s.readHigh := rfl
@[simp] theorem domePut_barData (s : State) (a : Nat) (bs : List Nat) : (domePut s a bs).barData = s.barData := rfl
@[simp] theorem domePut_out (s : State) (a : Nat) (bs : List Nat) : (domePut s a bs).out = s.out := rfl
@[simp] theorem domePut_bridgeUp (s : State) (a : Nat) (bs : List Nat) : (domePut s a bs).bridgeUp = s.bridgeUp := rfl
@[simp] theorem domePut_bridgeDown (s : State) (a : Nat) (bs : List Nat) : (domePut s a bs).bridgeDown = s.bridgeDown := rfl
@[simp] theorem domePut_spr (s : State) (a : Nat) (bs : List Nat) : (domePut s a bs).spr = s.spr := rfl
@[simp] theorem domePut_tapLfsr (s : State) (a : Nat) (bs : List Nat) : (domePut s a bs).tapLfsr = s.tapLfsr := rfl
@[simp] theorem domePut_dome (s : State) (a : Nat) (bs : List Nat) : (domePut s a bs).dome = putBytes s.dome a bs := rfl
@[simp] theorem domePut_lpddr (s : State) (a : Nat) (bs : List Nat) : (domePut s a bs).lpddr = s.lpddr := rfl
@[simp] theorem domePut_hostMem (s : State) (a : Nat) (bs : List Nat) : (domePut s a bs).hostMem = s.hostMem := rfl
@[simp] theorem domePut_vpData (s : State) (a : Nat) (bs : List Nat) : (domePut s a bs).vpData = s.vpData := rfl
@[simp] theorem domePut_freeCount (s : State) (a : Nat) (bs : List Nat) : (domePut s a bs).freeCount = s.freeCount := rfl
@[simp] theorem domePut_time (s : State) (a : Nat) (bs : List Nat) : (domePut s a bs).time = s.time := rfl
@[simp] theorem domePut_slew (s : State) (a : Nat) (bs : List Nat) : (domePut s a bs).slew = s.slew := rfl
@[simp] theorem domePut_stepped (s : State) (a : Nat) (bs : List Nat) : (domePut s a bs).stepped = s.stepped := rfl
@[simp] theorem domePut_cmpLate (s : State) (a : Nat) (bs : List Nat) : (domePut s a bs).cmpLate = s.cmpLate := rfl
@[simp] theorem domePut_holdSeen (s : State) (a : Nat) (bs : List Nat) : (domePut s a bs).holdSeen = s.holdSeen := rfl
@[simp] theorem domePut_trig (s : State) (a : Nat) (bs : List Nat) : (domePut s a bs).trig = s.trig := rfl
@[simp] theorem domePut_cap (s : State) (a : Nat) (bs : List Nat) : (domePut s a bs).cap = s.cap := rfl
@[simp] theorem domePut_ptp (s : State) (a : Nat) (bs : List Nat) : (domePut s a bs).ptp = s.ptp := rfl
@[simp] theorem domePut_cmds (s : State) (a : Nat) (bs : List Nat) : (domePut s a bs).cmds = s.cmds := rfl
@[simp] theorem domePut_pwr (s : State) (a : Nat) (bs : List Nat) : (domePut s a bs).pwr = s.pwr := rfl
@[simp] theorem domePut_pci (s : State) (a : Nat) (bs : List Nat) : (domePut s a bs).pci = s.pci := rfl
@[simp] theorem domePut_ing (s : State) (a : Nat) (bs : List Nat) : (domePut s a bs).ing = s.ing := rfl
@[simp] theorem domePut_heldUnits (s : State) (a : Nat) (bs : List Nat) : (domePut s a bs).heldUnits = s.heldUnits := rfl
@[simp] theorem domePut_aln (s : State) (a : Nat) (bs : List Nat) : (domePut s a bs).aln = s.aln := rfl
@[simp] theorem domePut_ego (s : State) (a : Nat) (bs : List Nat) : (domePut s a bs).ego = s.ego := rfl
@[simp] theorem domePut_vhe (s : State) (a : Nat) (bs : List Nat) : (domePut s a bs).vhe = s.vhe := rfl
@[simp] theorem domePut_lanes (s : State) (a : Nat) (bs : List Nat) : (domePut s a bs).lanes = s.lanes := rfl
@[simp] theorem domePut_grid (s : State) (a : Nat) (bs : List Nat) : (domePut s a bs).grid = s.grid := rfl
@[simp] theorem domePut_cal (s : State) (a : Nat) (bs : List Nat) : (domePut s a bs).cal = s.cal := rfl
@[simp] theorem domePut_slices (s : State) (a : Nat) (bs : List Nat) : (domePut s a bs).slices = s.slices := rfl
@[simp] theorem domePut_anyPublished (s : State) (a : Nat) (bs : List Nat) : (domePut s a bs).anyPublished = s.anyPublished := rfl
@[simp] theorem domePut_img (s : State) (a : Nat) (bs : List Nat) : (domePut s a bs).img = s.img := rfl
@[simp] theorem domePut_fab (s : State) (a : Nat) (bs : List Nat) : (domePut s a bs).fab = s.fab := rfl
@[simp] theorem domePut_attn (s : State) (a : Nat) (bs : List Nat) : (domePut s a bs).attn = s.attn := rfl
@[simp] theorem domePut_slv (s : State) (a : Nat) (bs : List Nat) : (domePut s a bs).slv = s.slv := rfl
@[simp] theorem domePut_govLower (s : State) (a : Nat) (bs : List Nat) : (domePut s a bs).govLower = s.govLower := rfl
@[simp] theorem domePut_goldRes (s : State) (a : Nat) (bs : List Nat) : (domePut s a bs).goldRes = s.goldRes := rfl
@[simp] theorem domePut_goldPending (s : State) (a : Nat) (bs : List Nat) : (domePut s a bs).goldPending = s.goldPending := rfl
@[simp] theorem domePut_goldDeferrals (s : State) (a : Nat) (bs : List Nat) : (domePut s a bs).goldDeferrals = s.goldDeferrals := rfl
@[simp] theorem domePut_goldRotation (s : State) (a : Nat) (bs : List Nat) : (domePut s a bs).goldRotation = s.goldRotation := rfl
@[simp] theorem domePut_goldForced (s : State) (a : Nat) (bs : List Nat) : (domePut s a bs).goldForced = s.goldForced := rfl
@[simp] theorem domePut_goldRecheck (s : State) (a : Nat) (bs : List Nat) : (domePut s a bs).goldRecheck = s.goldRecheck := rfl
@[simp] theorem domePut_goldClear (s : State) (a : Nat) (bs : List Nat) : (domePut s a bs).goldClear = s.goldClear := rfl
@[simp] theorem domePut_stopAbandon (s : State) (a : Nat) (bs : List Nat) : (domePut s a bs).stopAbandon = s.stopAbandon := rfl
@[simp] theorem domePut_replaying (s : State) (a : Nat) (bs : List Nat) : (domePut s a bs).replaying = s.replaying := rfl
@[simp] theorem domePut_runStart (s : State) (a : Nat) (bs : List Nat) : (domePut s a bs).runStart = s.runStart := rfl
@[simp] theorem domePut_nextSeq (s : State) (a : Nat) (bs : List Nat) : (domePut s a bs).nextSeq = s.nextSeq := rfl
@[simp] theorem domePut_halfNext (s : State) (a : Nat) (bs : List Nat) : (domePut s a bs).halfNext = s.halfNext := rfl
@[simp] theorem domePut_lastTov (s : State) (a : Nat) (bs : List Nat) : (domePut s a bs).lastTov = s.lastTov := rfl
@[simp] theorem domePut_mirror (s : State) (a : Nat) (bs : List Nat) : (domePut s a bs).mirror = s.mirror := rfl
@[simp] theorem domePut_tol (s : State) (a : Nat) (bs : List Nat) : (domePut s a bs).tol = s.tol := rfl
@[simp] theorem domePut_rcv (s : State) (a : Nat) (bs : List Nat) : (domePut s a bs).rcv = s.rcv := rfl
@[simp] theorem domePut_esc (s : State) (a : Nat) (bs : List Nat) : (domePut s a bs).esc = s.esc := rfl
@[simp] theorem domePut_bt (s : State) (a : Nat) (bs : List Nat) : (domePut s a bs).bt = s.bt := rfl
@[simp] theorem domePut_cup (s : State) (a : Nat) (bs : List Nat) : (domePut s a bs).cup = s.cup := rfl
@[simp] theorem domePut_links (s : State) (a : Nat) (bs : List Nat) : (domePut s a bs).links = s.links := rfl
@[simp] theorem domePut_dbg (s : State) (a : Nat) (bs : List Nat) : (domePut s a bs).dbg = s.dbg := rfl
@[simp] theorem domePut_rings (s : State) (a : Nat) (bs : List Nat) : (domePut s a bs).rings = s.rings := rfl
@[simp] theorem domePut_mgmt (s : State) (a : Nat) (bs : List Nat) : (domePut s a bs).mgmt = s.mgmt := rfl

/-! ## updSpr -/

@[simp] theorem updSpr_pending (f : SpireState → SpireState) (s : State) : (updSpr f s).pending = s.pending := rfl
@[simp] theorem updSpr_regs (f : SpireState → SpireState) (s : State) : (updSpr f s).regs = s.regs := rfl
@[simp] theorem updSpr_heldLow (f : SpireState → SpireState) (s : State) : (updSpr f s).heldLow = s.heldLow := rfl
@[simp] theorem updSpr_shadow (f : SpireState → SpireState) (s : State) : (updSpr f s).shadow = s.shadow := rfl
@[simp] theorem updSpr_readData (f : SpireState → SpireState) (s : State) : (updSpr f s).readData = s.readData := rfl
@[simp] theorem updSpr_readHigh (f : SpireState → SpireState) (s : State) : (updSpr f s).readHigh = s.readHigh := rfl
@[simp] theorem updSpr_barData (f : SpireState → SpireState) (s : State) : (updSpr f s).barData = s.barData := rfl
@[simp] theorem updSpr_out (f : SpireState → SpireState) (s : State) : (updSpr f s).out = s.out := rfl
@[simp] theorem updSpr_bridgeUp (f : SpireState → SpireState) (s : State) : (updSpr f s).bridgeUp = s.bridgeUp := rfl
@[simp] theorem updSpr_bridgeDown (f : SpireState → SpireState) (s : State) : (updSpr f s).bridgeDown = s.bridgeDown := rfl
@[simp] theorem updSpr_spr (f : SpireState → SpireState) (s : State) : (updSpr f s).spr = f s.spr := rfl
@[simp] theorem updSpr_tapLfsr (f : SpireState → SpireState) (s : State) : (updSpr f s).tapLfsr = s.tapLfsr := rfl
@[simp] theorem updSpr_dome (f : SpireState → SpireState) (s : State) : (updSpr f s).dome = s.dome := rfl
@[simp] theorem updSpr_lpddr (f : SpireState → SpireState) (s : State) : (updSpr f s).lpddr = s.lpddr := rfl
@[simp] theorem updSpr_hostMem (f : SpireState → SpireState) (s : State) : (updSpr f s).hostMem = s.hostMem := rfl
@[simp] theorem updSpr_vpData (f : SpireState → SpireState) (s : State) : (updSpr f s).vpData = s.vpData := rfl
@[simp] theorem updSpr_freeCount (f : SpireState → SpireState) (s : State) : (updSpr f s).freeCount = s.freeCount := rfl
@[simp] theorem updSpr_time (f : SpireState → SpireState) (s : State) : (updSpr f s).time = s.time := rfl
@[simp] theorem updSpr_slew (f : SpireState → SpireState) (s : State) : (updSpr f s).slew = s.slew := rfl
@[simp] theorem updSpr_stepped (f : SpireState → SpireState) (s : State) : (updSpr f s).stepped = s.stepped := rfl
@[simp] theorem updSpr_cmpLate (f : SpireState → SpireState) (s : State) : (updSpr f s).cmpLate = s.cmpLate := rfl
@[simp] theorem updSpr_holdSeen (f : SpireState → SpireState) (s : State) : (updSpr f s).holdSeen = s.holdSeen := rfl
@[simp] theorem updSpr_trig (f : SpireState → SpireState) (s : State) : (updSpr f s).trig = s.trig := rfl
@[simp] theorem updSpr_cap (f : SpireState → SpireState) (s : State) : (updSpr f s).cap = s.cap := rfl
@[simp] theorem updSpr_ptp (f : SpireState → SpireState) (s : State) : (updSpr f s).ptp = s.ptp := rfl
@[simp] theorem updSpr_cmds (f : SpireState → SpireState) (s : State) : (updSpr f s).cmds = s.cmds := rfl
@[simp] theorem updSpr_pwr (f : SpireState → SpireState) (s : State) : (updSpr f s).pwr = s.pwr := rfl
@[simp] theorem updSpr_pci (f : SpireState → SpireState) (s : State) : (updSpr f s).pci = s.pci := rfl
@[simp] theorem updSpr_ing (f : SpireState → SpireState) (s : State) : (updSpr f s).ing = s.ing := rfl
@[simp] theorem updSpr_heldUnits (f : SpireState → SpireState) (s : State) : (updSpr f s).heldUnits = s.heldUnits := rfl
@[simp] theorem updSpr_aln (f : SpireState → SpireState) (s : State) : (updSpr f s).aln = s.aln := rfl
@[simp] theorem updSpr_ego (f : SpireState → SpireState) (s : State) : (updSpr f s).ego = s.ego := rfl
@[simp] theorem updSpr_vhe (f : SpireState → SpireState) (s : State) : (updSpr f s).vhe = s.vhe := rfl
@[simp] theorem updSpr_lanes (f : SpireState → SpireState) (s : State) : (updSpr f s).lanes = s.lanes := rfl
@[simp] theorem updSpr_grid (f : SpireState → SpireState) (s : State) : (updSpr f s).grid = s.grid := rfl
@[simp] theorem updSpr_cal (f : SpireState → SpireState) (s : State) : (updSpr f s).cal = s.cal := rfl
@[simp] theorem updSpr_slices (f : SpireState → SpireState) (s : State) : (updSpr f s).slices = s.slices := rfl
@[simp] theorem updSpr_anyPublished (f : SpireState → SpireState) (s : State) : (updSpr f s).anyPublished = s.anyPublished := rfl
@[simp] theorem updSpr_img (f : SpireState → SpireState) (s : State) : (updSpr f s).img = s.img := rfl
@[simp] theorem updSpr_fab (f : SpireState → SpireState) (s : State) : (updSpr f s).fab = s.fab := rfl
@[simp] theorem updSpr_attn (f : SpireState → SpireState) (s : State) : (updSpr f s).attn = s.attn := rfl
@[simp] theorem updSpr_slv (f : SpireState → SpireState) (s : State) : (updSpr f s).slv = s.slv := rfl
@[simp] theorem updSpr_govLower (f : SpireState → SpireState) (s : State) : (updSpr f s).govLower = s.govLower := rfl
@[simp] theorem updSpr_goldRes (f : SpireState → SpireState) (s : State) : (updSpr f s).goldRes = s.goldRes := rfl
@[simp] theorem updSpr_goldPending (f : SpireState → SpireState) (s : State) : (updSpr f s).goldPending = s.goldPending := rfl
@[simp] theorem updSpr_goldDeferrals (f : SpireState → SpireState) (s : State) : (updSpr f s).goldDeferrals = s.goldDeferrals := rfl
@[simp] theorem updSpr_goldRotation (f : SpireState → SpireState) (s : State) : (updSpr f s).goldRotation = s.goldRotation := rfl
@[simp] theorem updSpr_goldForced (f : SpireState → SpireState) (s : State) : (updSpr f s).goldForced = s.goldForced := rfl
@[simp] theorem updSpr_goldRecheck (f : SpireState → SpireState) (s : State) : (updSpr f s).goldRecheck = s.goldRecheck := rfl
@[simp] theorem updSpr_goldClear (f : SpireState → SpireState) (s : State) : (updSpr f s).goldClear = s.goldClear := rfl
@[simp] theorem updSpr_stopAbandon (f : SpireState → SpireState) (s : State) : (updSpr f s).stopAbandon = s.stopAbandon := rfl
@[simp] theorem updSpr_replaying (f : SpireState → SpireState) (s : State) : (updSpr f s).replaying = s.replaying := rfl
@[simp] theorem updSpr_runStart (f : SpireState → SpireState) (s : State) : (updSpr f s).runStart = s.runStart := rfl
@[simp] theorem updSpr_nextSeq (f : SpireState → SpireState) (s : State) : (updSpr f s).nextSeq = s.nextSeq := rfl
@[simp] theorem updSpr_halfNext (f : SpireState → SpireState) (s : State) : (updSpr f s).halfNext = s.halfNext := rfl
@[simp] theorem updSpr_lastTov (f : SpireState → SpireState) (s : State) : (updSpr f s).lastTov = s.lastTov := rfl
@[simp] theorem updSpr_mirror (f : SpireState → SpireState) (s : State) : (updSpr f s).mirror = s.mirror := rfl
@[simp] theorem updSpr_tol (f : SpireState → SpireState) (s : State) : (updSpr f s).tol = s.tol := rfl
@[simp] theorem updSpr_rcv (f : SpireState → SpireState) (s : State) : (updSpr f s).rcv = s.rcv := rfl
@[simp] theorem updSpr_esc (f : SpireState → SpireState) (s : State) : (updSpr f s).esc = s.esc := rfl
@[simp] theorem updSpr_bt (f : SpireState → SpireState) (s : State) : (updSpr f s).bt = s.bt := rfl
@[simp] theorem updSpr_cup (f : SpireState → SpireState) (s : State) : (updSpr f s).cup = s.cup := rfl
@[simp] theorem updSpr_links (f : SpireState → SpireState) (s : State) : (updSpr f s).links = s.links := rfl
@[simp] theorem updSpr_dbg (f : SpireState → SpireState) (s : State) : (updSpr f s).dbg = s.dbg := rfl
@[simp] theorem updSpr_rings (f : SpireState → SpireState) (s : State) : (updSpr f s).rings = s.rings := rfl
@[simp] theorem updSpr_mgmt (f : SpireState → SpireState) (s : State) : (updSpr f s).mgmt = s.mgmt := rfl

/-! ## updBt -/

@[simp] theorem updBt_pending (f : ButtressState → ButtressState) (s : State) : (updBt f s).pending = s.pending := rfl
@[simp] theorem updBt_regs (f : ButtressState → ButtressState) (s : State) : (updBt f s).regs = s.regs := rfl
@[simp] theorem updBt_heldLow (f : ButtressState → ButtressState) (s : State) : (updBt f s).heldLow = s.heldLow := rfl
@[simp] theorem updBt_shadow (f : ButtressState → ButtressState) (s : State) : (updBt f s).shadow = s.shadow := rfl
@[simp] theorem updBt_readData (f : ButtressState → ButtressState) (s : State) : (updBt f s).readData = s.readData := rfl
@[simp] theorem updBt_readHigh (f : ButtressState → ButtressState) (s : State) : (updBt f s).readHigh = s.readHigh := rfl
@[simp] theorem updBt_barData (f : ButtressState → ButtressState) (s : State) : (updBt f s).barData = s.barData := rfl
@[simp] theorem updBt_out (f : ButtressState → ButtressState) (s : State) : (updBt f s).out = s.out := rfl
@[simp] theorem updBt_bridgeUp (f : ButtressState → ButtressState) (s : State) : (updBt f s).bridgeUp = s.bridgeUp := rfl
@[simp] theorem updBt_bridgeDown (f : ButtressState → ButtressState) (s : State) : (updBt f s).bridgeDown = s.bridgeDown := rfl
@[simp] theorem updBt_spr (f : ButtressState → ButtressState) (s : State) : (updBt f s).spr = s.spr := rfl
@[simp] theorem updBt_tapLfsr (f : ButtressState → ButtressState) (s : State) : (updBt f s).tapLfsr = s.tapLfsr := rfl
@[simp] theorem updBt_dome (f : ButtressState → ButtressState) (s : State) : (updBt f s).dome = s.dome := rfl
@[simp] theorem updBt_lpddr (f : ButtressState → ButtressState) (s : State) : (updBt f s).lpddr = s.lpddr := rfl
@[simp] theorem updBt_hostMem (f : ButtressState → ButtressState) (s : State) : (updBt f s).hostMem = s.hostMem := rfl
@[simp] theorem updBt_vpData (f : ButtressState → ButtressState) (s : State) : (updBt f s).vpData = s.vpData := rfl
@[simp] theorem updBt_freeCount (f : ButtressState → ButtressState) (s : State) : (updBt f s).freeCount = s.freeCount := rfl
@[simp] theorem updBt_time (f : ButtressState → ButtressState) (s : State) : (updBt f s).time = s.time := rfl
@[simp] theorem updBt_slew (f : ButtressState → ButtressState) (s : State) : (updBt f s).slew = s.slew := rfl
@[simp] theorem updBt_stepped (f : ButtressState → ButtressState) (s : State) : (updBt f s).stepped = s.stepped := rfl
@[simp] theorem updBt_cmpLate (f : ButtressState → ButtressState) (s : State) : (updBt f s).cmpLate = s.cmpLate := rfl
@[simp] theorem updBt_holdSeen (f : ButtressState → ButtressState) (s : State) : (updBt f s).holdSeen = s.holdSeen := rfl
@[simp] theorem updBt_trig (f : ButtressState → ButtressState) (s : State) : (updBt f s).trig = s.trig := rfl
@[simp] theorem updBt_cap (f : ButtressState → ButtressState) (s : State) : (updBt f s).cap = s.cap := rfl
@[simp] theorem updBt_ptp (f : ButtressState → ButtressState) (s : State) : (updBt f s).ptp = s.ptp := rfl
@[simp] theorem updBt_cmds (f : ButtressState → ButtressState) (s : State) : (updBt f s).cmds = s.cmds := rfl
@[simp] theorem updBt_pwr (f : ButtressState → ButtressState) (s : State) : (updBt f s).pwr = s.pwr := rfl
@[simp] theorem updBt_pci (f : ButtressState → ButtressState) (s : State) : (updBt f s).pci = s.pci := rfl
@[simp] theorem updBt_ing (f : ButtressState → ButtressState) (s : State) : (updBt f s).ing = s.ing := rfl
@[simp] theorem updBt_heldUnits (f : ButtressState → ButtressState) (s : State) : (updBt f s).heldUnits = s.heldUnits := rfl
@[simp] theorem updBt_aln (f : ButtressState → ButtressState) (s : State) : (updBt f s).aln = s.aln := rfl
@[simp] theorem updBt_ego (f : ButtressState → ButtressState) (s : State) : (updBt f s).ego = s.ego := rfl
@[simp] theorem updBt_vhe (f : ButtressState → ButtressState) (s : State) : (updBt f s).vhe = s.vhe := rfl
@[simp] theorem updBt_lanes (f : ButtressState → ButtressState) (s : State) : (updBt f s).lanes = s.lanes := rfl
@[simp] theorem updBt_grid (f : ButtressState → ButtressState) (s : State) : (updBt f s).grid = s.grid := rfl
@[simp] theorem updBt_cal (f : ButtressState → ButtressState) (s : State) : (updBt f s).cal = s.cal := rfl
@[simp] theorem updBt_slices (f : ButtressState → ButtressState) (s : State) : (updBt f s).slices = s.slices := rfl
@[simp] theorem updBt_anyPublished (f : ButtressState → ButtressState) (s : State) : (updBt f s).anyPublished = s.anyPublished := rfl
@[simp] theorem updBt_img (f : ButtressState → ButtressState) (s : State) : (updBt f s).img = s.img := rfl
@[simp] theorem updBt_fab (f : ButtressState → ButtressState) (s : State) : (updBt f s).fab = s.fab := rfl
@[simp] theorem updBt_attn (f : ButtressState → ButtressState) (s : State) : (updBt f s).attn = s.attn := rfl
@[simp] theorem updBt_slv (f : ButtressState → ButtressState) (s : State) : (updBt f s).slv = s.slv := rfl
@[simp] theorem updBt_govLower (f : ButtressState → ButtressState) (s : State) : (updBt f s).govLower = s.govLower := rfl
@[simp] theorem updBt_goldRes (f : ButtressState → ButtressState) (s : State) : (updBt f s).goldRes = s.goldRes := rfl
@[simp] theorem updBt_goldPending (f : ButtressState → ButtressState) (s : State) : (updBt f s).goldPending = s.goldPending := rfl
@[simp] theorem updBt_goldDeferrals (f : ButtressState → ButtressState) (s : State) : (updBt f s).goldDeferrals = s.goldDeferrals := rfl
@[simp] theorem updBt_goldRotation (f : ButtressState → ButtressState) (s : State) : (updBt f s).goldRotation = s.goldRotation := rfl
@[simp] theorem updBt_goldForced (f : ButtressState → ButtressState) (s : State) : (updBt f s).goldForced = s.goldForced := rfl
@[simp] theorem updBt_goldRecheck (f : ButtressState → ButtressState) (s : State) : (updBt f s).goldRecheck = s.goldRecheck := rfl
@[simp] theorem updBt_goldClear (f : ButtressState → ButtressState) (s : State) : (updBt f s).goldClear = s.goldClear := rfl
@[simp] theorem updBt_stopAbandon (f : ButtressState → ButtressState) (s : State) : (updBt f s).stopAbandon = s.stopAbandon := rfl
@[simp] theorem updBt_replaying (f : ButtressState → ButtressState) (s : State) : (updBt f s).replaying = s.replaying := rfl
@[simp] theorem updBt_runStart (f : ButtressState → ButtressState) (s : State) : (updBt f s).runStart = s.runStart := rfl
@[simp] theorem updBt_nextSeq (f : ButtressState → ButtressState) (s : State) : (updBt f s).nextSeq = s.nextSeq := rfl
@[simp] theorem updBt_halfNext (f : ButtressState → ButtressState) (s : State) : (updBt f s).halfNext = s.halfNext := rfl
@[simp] theorem updBt_lastTov (f : ButtressState → ButtressState) (s : State) : (updBt f s).lastTov = s.lastTov := rfl
@[simp] theorem updBt_mirror (f : ButtressState → ButtressState) (s : State) : (updBt f s).mirror = s.mirror := rfl
@[simp] theorem updBt_tol (f : ButtressState → ButtressState) (s : State) : (updBt f s).tol = s.tol := rfl
@[simp] theorem updBt_rcv (f : ButtressState → ButtressState) (s : State) : (updBt f s).rcv = s.rcv := rfl
@[simp] theorem updBt_esc (f : ButtressState → ButtressState) (s : State) : (updBt f s).esc = s.esc := rfl
@[simp] theorem updBt_bt (f : ButtressState → ButtressState) (s : State) : (updBt f s).bt = f s.bt := rfl
@[simp] theorem updBt_cup (f : ButtressState → ButtressState) (s : State) : (updBt f s).cup = s.cup := rfl
@[simp] theorem updBt_links (f : ButtressState → ButtressState) (s : State) : (updBt f s).links = s.links := rfl
@[simp] theorem updBt_dbg (f : ButtressState → ButtressState) (s : State) : (updBt f s).dbg = s.dbg := rfl
@[simp] theorem updBt_rings (f : ButtressState → ButtressState) (s : State) : (updBt f s).rings = s.rings := rfl
@[simp] theorem updBt_mgmt (f : ButtressState → ButtressState) (s : State) : (updBt f s).mgmt = s.mgmt := rfl

/-! ## updCup -/

@[simp] theorem updCup_pending (f : CupolaState → CupolaState) (s : State) : (updCup f s).pending = s.pending := rfl
@[simp] theorem updCup_regs (f : CupolaState → CupolaState) (s : State) : (updCup f s).regs = s.regs := rfl
@[simp] theorem updCup_heldLow (f : CupolaState → CupolaState) (s : State) : (updCup f s).heldLow = s.heldLow := rfl
@[simp] theorem updCup_shadow (f : CupolaState → CupolaState) (s : State) : (updCup f s).shadow = s.shadow := rfl
@[simp] theorem updCup_readData (f : CupolaState → CupolaState) (s : State) : (updCup f s).readData = s.readData := rfl
@[simp] theorem updCup_readHigh (f : CupolaState → CupolaState) (s : State) : (updCup f s).readHigh = s.readHigh := rfl
@[simp] theorem updCup_barData (f : CupolaState → CupolaState) (s : State) : (updCup f s).barData = s.barData := rfl
@[simp] theorem updCup_out (f : CupolaState → CupolaState) (s : State) : (updCup f s).out = s.out := rfl
@[simp] theorem updCup_bridgeUp (f : CupolaState → CupolaState) (s : State) : (updCup f s).bridgeUp = s.bridgeUp := rfl
@[simp] theorem updCup_bridgeDown (f : CupolaState → CupolaState) (s : State) : (updCup f s).bridgeDown = s.bridgeDown := rfl
@[simp] theorem updCup_spr (f : CupolaState → CupolaState) (s : State) : (updCup f s).spr = s.spr := rfl
@[simp] theorem updCup_tapLfsr (f : CupolaState → CupolaState) (s : State) : (updCup f s).tapLfsr = s.tapLfsr := rfl
@[simp] theorem updCup_dome (f : CupolaState → CupolaState) (s : State) : (updCup f s).dome = s.dome := rfl
@[simp] theorem updCup_lpddr (f : CupolaState → CupolaState) (s : State) : (updCup f s).lpddr = s.lpddr := rfl
@[simp] theorem updCup_hostMem (f : CupolaState → CupolaState) (s : State) : (updCup f s).hostMem = s.hostMem := rfl
@[simp] theorem updCup_vpData (f : CupolaState → CupolaState) (s : State) : (updCup f s).vpData = s.vpData := rfl
@[simp] theorem updCup_freeCount (f : CupolaState → CupolaState) (s : State) : (updCup f s).freeCount = s.freeCount := rfl
@[simp] theorem updCup_time (f : CupolaState → CupolaState) (s : State) : (updCup f s).time = s.time := rfl
@[simp] theorem updCup_slew (f : CupolaState → CupolaState) (s : State) : (updCup f s).slew = s.slew := rfl
@[simp] theorem updCup_stepped (f : CupolaState → CupolaState) (s : State) : (updCup f s).stepped = s.stepped := rfl
@[simp] theorem updCup_cmpLate (f : CupolaState → CupolaState) (s : State) : (updCup f s).cmpLate = s.cmpLate := rfl
@[simp] theorem updCup_holdSeen (f : CupolaState → CupolaState) (s : State) : (updCup f s).holdSeen = s.holdSeen := rfl
@[simp] theorem updCup_trig (f : CupolaState → CupolaState) (s : State) : (updCup f s).trig = s.trig := rfl
@[simp] theorem updCup_cap (f : CupolaState → CupolaState) (s : State) : (updCup f s).cap = s.cap := rfl
@[simp] theorem updCup_ptp (f : CupolaState → CupolaState) (s : State) : (updCup f s).ptp = s.ptp := rfl
@[simp] theorem updCup_cmds (f : CupolaState → CupolaState) (s : State) : (updCup f s).cmds = s.cmds := rfl
@[simp] theorem updCup_pwr (f : CupolaState → CupolaState) (s : State) : (updCup f s).pwr = s.pwr := rfl
@[simp] theorem updCup_pci (f : CupolaState → CupolaState) (s : State) : (updCup f s).pci = s.pci := rfl
@[simp] theorem updCup_ing (f : CupolaState → CupolaState) (s : State) : (updCup f s).ing = s.ing := rfl
@[simp] theorem updCup_heldUnits (f : CupolaState → CupolaState) (s : State) : (updCup f s).heldUnits = s.heldUnits := rfl
@[simp] theorem updCup_aln (f : CupolaState → CupolaState) (s : State) : (updCup f s).aln = s.aln := rfl
@[simp] theorem updCup_ego (f : CupolaState → CupolaState) (s : State) : (updCup f s).ego = s.ego := rfl
@[simp] theorem updCup_vhe (f : CupolaState → CupolaState) (s : State) : (updCup f s).vhe = s.vhe := rfl
@[simp] theorem updCup_lanes (f : CupolaState → CupolaState) (s : State) : (updCup f s).lanes = s.lanes := rfl
@[simp] theorem updCup_grid (f : CupolaState → CupolaState) (s : State) : (updCup f s).grid = s.grid := rfl
@[simp] theorem updCup_cal (f : CupolaState → CupolaState) (s : State) : (updCup f s).cal = s.cal := rfl
@[simp] theorem updCup_slices (f : CupolaState → CupolaState) (s : State) : (updCup f s).slices = s.slices := rfl
@[simp] theorem updCup_anyPublished (f : CupolaState → CupolaState) (s : State) : (updCup f s).anyPublished = s.anyPublished := rfl
@[simp] theorem updCup_img (f : CupolaState → CupolaState) (s : State) : (updCup f s).img = s.img := rfl
@[simp] theorem updCup_fab (f : CupolaState → CupolaState) (s : State) : (updCup f s).fab = s.fab := rfl
@[simp] theorem updCup_attn (f : CupolaState → CupolaState) (s : State) : (updCup f s).attn = s.attn := rfl
@[simp] theorem updCup_slv (f : CupolaState → CupolaState) (s : State) : (updCup f s).slv = s.slv := rfl
@[simp] theorem updCup_govLower (f : CupolaState → CupolaState) (s : State) : (updCup f s).govLower = s.govLower := rfl
@[simp] theorem updCup_goldRes (f : CupolaState → CupolaState) (s : State) : (updCup f s).goldRes = s.goldRes := rfl
@[simp] theorem updCup_goldPending (f : CupolaState → CupolaState) (s : State) : (updCup f s).goldPending = s.goldPending := rfl
@[simp] theorem updCup_goldDeferrals (f : CupolaState → CupolaState) (s : State) : (updCup f s).goldDeferrals = s.goldDeferrals := rfl
@[simp] theorem updCup_goldRotation (f : CupolaState → CupolaState) (s : State) : (updCup f s).goldRotation = s.goldRotation := rfl
@[simp] theorem updCup_goldForced (f : CupolaState → CupolaState) (s : State) : (updCup f s).goldForced = s.goldForced := rfl
@[simp] theorem updCup_goldRecheck (f : CupolaState → CupolaState) (s : State) : (updCup f s).goldRecheck = s.goldRecheck := rfl
@[simp] theorem updCup_goldClear (f : CupolaState → CupolaState) (s : State) : (updCup f s).goldClear = s.goldClear := rfl
@[simp] theorem updCup_stopAbandon (f : CupolaState → CupolaState) (s : State) : (updCup f s).stopAbandon = s.stopAbandon := rfl
@[simp] theorem updCup_replaying (f : CupolaState → CupolaState) (s : State) : (updCup f s).replaying = s.replaying := rfl
@[simp] theorem updCup_runStart (f : CupolaState → CupolaState) (s : State) : (updCup f s).runStart = s.runStart := rfl
@[simp] theorem updCup_nextSeq (f : CupolaState → CupolaState) (s : State) : (updCup f s).nextSeq = s.nextSeq := rfl
@[simp] theorem updCup_halfNext (f : CupolaState → CupolaState) (s : State) : (updCup f s).halfNext = s.halfNext := rfl
@[simp] theorem updCup_lastTov (f : CupolaState → CupolaState) (s : State) : (updCup f s).lastTov = s.lastTov := rfl
@[simp] theorem updCup_mirror (f : CupolaState → CupolaState) (s : State) : (updCup f s).mirror = s.mirror := rfl
@[simp] theorem updCup_tol (f : CupolaState → CupolaState) (s : State) : (updCup f s).tol = s.tol := rfl
@[simp] theorem updCup_rcv (f : CupolaState → CupolaState) (s : State) : (updCup f s).rcv = s.rcv := rfl
@[simp] theorem updCup_esc (f : CupolaState → CupolaState) (s : State) : (updCup f s).esc = s.esc := rfl
@[simp] theorem updCup_bt (f : CupolaState → CupolaState) (s : State) : (updCup f s).bt = s.bt := rfl
@[simp] theorem updCup_cup (f : CupolaState → CupolaState) (s : State) : (updCup f s).cup = f s.cup := rfl
@[simp] theorem updCup_links (f : CupolaState → CupolaState) (s : State) : (updCup f s).links = s.links := rfl
@[simp] theorem updCup_dbg (f : CupolaState → CupolaState) (s : State) : (updCup f s).dbg = s.dbg := rfl
@[simp] theorem updCup_rings (f : CupolaState → CupolaState) (s : State) : (updCup f s).rings = s.rings := rfl
@[simp] theorem updCup_mgmt (f : CupolaState → CupolaState) (s : State) : (updCup f s).mgmt = s.mgmt := rfl

/-! ## updDbg -/

@[simp] theorem updDbg_pending (f : DebugState → DebugState) (s : State) : (updDbg f s).pending = s.pending := rfl
@[simp] theorem updDbg_regs (f : DebugState → DebugState) (s : State) : (updDbg f s).regs = s.regs := rfl
@[simp] theorem updDbg_heldLow (f : DebugState → DebugState) (s : State) : (updDbg f s).heldLow = s.heldLow := rfl
@[simp] theorem updDbg_shadow (f : DebugState → DebugState) (s : State) : (updDbg f s).shadow = s.shadow := rfl
@[simp] theorem updDbg_readData (f : DebugState → DebugState) (s : State) : (updDbg f s).readData = s.readData := rfl
@[simp] theorem updDbg_readHigh (f : DebugState → DebugState) (s : State) : (updDbg f s).readHigh = s.readHigh := rfl
@[simp] theorem updDbg_barData (f : DebugState → DebugState) (s : State) : (updDbg f s).barData = s.barData := rfl
@[simp] theorem updDbg_out (f : DebugState → DebugState) (s : State) : (updDbg f s).out = s.out := rfl
@[simp] theorem updDbg_bridgeUp (f : DebugState → DebugState) (s : State) : (updDbg f s).bridgeUp = s.bridgeUp := rfl
@[simp] theorem updDbg_bridgeDown (f : DebugState → DebugState) (s : State) : (updDbg f s).bridgeDown = s.bridgeDown := rfl
@[simp] theorem updDbg_spr (f : DebugState → DebugState) (s : State) : (updDbg f s).spr = s.spr := rfl
@[simp] theorem updDbg_tapLfsr (f : DebugState → DebugState) (s : State) : (updDbg f s).tapLfsr = s.tapLfsr := rfl
@[simp] theorem updDbg_dome (f : DebugState → DebugState) (s : State) : (updDbg f s).dome = s.dome := rfl
@[simp] theorem updDbg_lpddr (f : DebugState → DebugState) (s : State) : (updDbg f s).lpddr = s.lpddr := rfl
@[simp] theorem updDbg_hostMem (f : DebugState → DebugState) (s : State) : (updDbg f s).hostMem = s.hostMem := rfl
@[simp] theorem updDbg_vpData (f : DebugState → DebugState) (s : State) : (updDbg f s).vpData = s.vpData := rfl
@[simp] theorem updDbg_freeCount (f : DebugState → DebugState) (s : State) : (updDbg f s).freeCount = s.freeCount := rfl
@[simp] theorem updDbg_time (f : DebugState → DebugState) (s : State) : (updDbg f s).time = s.time := rfl
@[simp] theorem updDbg_slew (f : DebugState → DebugState) (s : State) : (updDbg f s).slew = s.slew := rfl
@[simp] theorem updDbg_stepped (f : DebugState → DebugState) (s : State) : (updDbg f s).stepped = s.stepped := rfl
@[simp] theorem updDbg_cmpLate (f : DebugState → DebugState) (s : State) : (updDbg f s).cmpLate = s.cmpLate := rfl
@[simp] theorem updDbg_holdSeen (f : DebugState → DebugState) (s : State) : (updDbg f s).holdSeen = s.holdSeen := rfl
@[simp] theorem updDbg_trig (f : DebugState → DebugState) (s : State) : (updDbg f s).trig = s.trig := rfl
@[simp] theorem updDbg_cap (f : DebugState → DebugState) (s : State) : (updDbg f s).cap = s.cap := rfl
@[simp] theorem updDbg_ptp (f : DebugState → DebugState) (s : State) : (updDbg f s).ptp = s.ptp := rfl
@[simp] theorem updDbg_cmds (f : DebugState → DebugState) (s : State) : (updDbg f s).cmds = s.cmds := rfl
@[simp] theorem updDbg_pwr (f : DebugState → DebugState) (s : State) : (updDbg f s).pwr = s.pwr := rfl
@[simp] theorem updDbg_pci (f : DebugState → DebugState) (s : State) : (updDbg f s).pci = s.pci := rfl
@[simp] theorem updDbg_ing (f : DebugState → DebugState) (s : State) : (updDbg f s).ing = s.ing := rfl
@[simp] theorem updDbg_heldUnits (f : DebugState → DebugState) (s : State) : (updDbg f s).heldUnits = s.heldUnits := rfl
@[simp] theorem updDbg_aln (f : DebugState → DebugState) (s : State) : (updDbg f s).aln = s.aln := rfl
@[simp] theorem updDbg_ego (f : DebugState → DebugState) (s : State) : (updDbg f s).ego = s.ego := rfl
@[simp] theorem updDbg_vhe (f : DebugState → DebugState) (s : State) : (updDbg f s).vhe = s.vhe := rfl
@[simp] theorem updDbg_lanes (f : DebugState → DebugState) (s : State) : (updDbg f s).lanes = s.lanes := rfl
@[simp] theorem updDbg_grid (f : DebugState → DebugState) (s : State) : (updDbg f s).grid = s.grid := rfl
@[simp] theorem updDbg_cal (f : DebugState → DebugState) (s : State) : (updDbg f s).cal = s.cal := rfl
@[simp] theorem updDbg_slices (f : DebugState → DebugState) (s : State) : (updDbg f s).slices = s.slices := rfl
@[simp] theorem updDbg_anyPublished (f : DebugState → DebugState) (s : State) : (updDbg f s).anyPublished = s.anyPublished := rfl
@[simp] theorem updDbg_img (f : DebugState → DebugState) (s : State) : (updDbg f s).img = s.img := rfl
@[simp] theorem updDbg_fab (f : DebugState → DebugState) (s : State) : (updDbg f s).fab = s.fab := rfl
@[simp] theorem updDbg_attn (f : DebugState → DebugState) (s : State) : (updDbg f s).attn = s.attn := rfl
@[simp] theorem updDbg_slv (f : DebugState → DebugState) (s : State) : (updDbg f s).slv = s.slv := rfl
@[simp] theorem updDbg_govLower (f : DebugState → DebugState) (s : State) : (updDbg f s).govLower = s.govLower := rfl
@[simp] theorem updDbg_goldRes (f : DebugState → DebugState) (s : State) : (updDbg f s).goldRes = s.goldRes := rfl
@[simp] theorem updDbg_goldPending (f : DebugState → DebugState) (s : State) : (updDbg f s).goldPending = s.goldPending := rfl
@[simp] theorem updDbg_goldDeferrals (f : DebugState → DebugState) (s : State) : (updDbg f s).goldDeferrals = s.goldDeferrals := rfl
@[simp] theorem updDbg_goldRotation (f : DebugState → DebugState) (s : State) : (updDbg f s).goldRotation = s.goldRotation := rfl
@[simp] theorem updDbg_goldForced (f : DebugState → DebugState) (s : State) : (updDbg f s).goldForced = s.goldForced := rfl
@[simp] theorem updDbg_goldRecheck (f : DebugState → DebugState) (s : State) : (updDbg f s).goldRecheck = s.goldRecheck := rfl
@[simp] theorem updDbg_goldClear (f : DebugState → DebugState) (s : State) : (updDbg f s).goldClear = s.goldClear := rfl
@[simp] theorem updDbg_stopAbandon (f : DebugState → DebugState) (s : State) : (updDbg f s).stopAbandon = s.stopAbandon := rfl
@[simp] theorem updDbg_replaying (f : DebugState → DebugState) (s : State) : (updDbg f s).replaying = s.replaying := rfl
@[simp] theorem updDbg_runStart (f : DebugState → DebugState) (s : State) : (updDbg f s).runStart = s.runStart := rfl
@[simp] theorem updDbg_nextSeq (f : DebugState → DebugState) (s : State) : (updDbg f s).nextSeq = s.nextSeq := rfl
@[simp] theorem updDbg_halfNext (f : DebugState → DebugState) (s : State) : (updDbg f s).halfNext = s.halfNext := rfl
@[simp] theorem updDbg_lastTov (f : DebugState → DebugState) (s : State) : (updDbg f s).lastTov = s.lastTov := rfl
@[simp] theorem updDbg_mirror (f : DebugState → DebugState) (s : State) : (updDbg f s).mirror = s.mirror := rfl
@[simp] theorem updDbg_tol (f : DebugState → DebugState) (s : State) : (updDbg f s).tol = s.tol := rfl
@[simp] theorem updDbg_rcv (f : DebugState → DebugState) (s : State) : (updDbg f s).rcv = s.rcv := rfl
@[simp] theorem updDbg_esc (f : DebugState → DebugState) (s : State) : (updDbg f s).esc = s.esc := rfl
@[simp] theorem updDbg_bt (f : DebugState → DebugState) (s : State) : (updDbg f s).bt = s.bt := rfl
@[simp] theorem updDbg_cup (f : DebugState → DebugState) (s : State) : (updDbg f s).cup = s.cup := rfl
@[simp] theorem updDbg_links (f : DebugState → DebugState) (s : State) : (updDbg f s).links = s.links := rfl
@[simp] theorem updDbg_dbg (f : DebugState → DebugState) (s : State) : (updDbg f s).dbg = f s.dbg := rfl
@[simp] theorem updDbg_rings (f : DebugState → DebugState) (s : State) : (updDbg f s).rings = s.rings := rfl
@[simp] theorem updDbg_mgmt (f : DebugState → DebugState) (s : State) : (updDbg f s).mgmt = s.mgmt := rfl

/-! ## updFab -/

@[simp] theorem updFab_pending (f : FabricState → FabricState) (s : State) : (updFab f s).pending = s.pending := rfl
@[simp] theorem updFab_regs (f : FabricState → FabricState) (s : State) : (updFab f s).regs = s.regs := rfl
@[simp] theorem updFab_heldLow (f : FabricState → FabricState) (s : State) : (updFab f s).heldLow = s.heldLow := rfl
@[simp] theorem updFab_shadow (f : FabricState → FabricState) (s : State) : (updFab f s).shadow = s.shadow := rfl
@[simp] theorem updFab_readData (f : FabricState → FabricState) (s : State) : (updFab f s).readData = s.readData := rfl
@[simp] theorem updFab_readHigh (f : FabricState → FabricState) (s : State) : (updFab f s).readHigh = s.readHigh := rfl
@[simp] theorem updFab_barData (f : FabricState → FabricState) (s : State) : (updFab f s).barData = s.barData := rfl
@[simp] theorem updFab_out (f : FabricState → FabricState) (s : State) : (updFab f s).out = s.out := rfl
@[simp] theorem updFab_bridgeUp (f : FabricState → FabricState) (s : State) : (updFab f s).bridgeUp = s.bridgeUp := rfl
@[simp] theorem updFab_bridgeDown (f : FabricState → FabricState) (s : State) : (updFab f s).bridgeDown = s.bridgeDown := rfl
@[simp] theorem updFab_spr (f : FabricState → FabricState) (s : State) : (updFab f s).spr = s.spr := rfl
@[simp] theorem updFab_tapLfsr (f : FabricState → FabricState) (s : State) : (updFab f s).tapLfsr = s.tapLfsr := rfl
@[simp] theorem updFab_dome (f : FabricState → FabricState) (s : State) : (updFab f s).dome = s.dome := rfl
@[simp] theorem updFab_lpddr (f : FabricState → FabricState) (s : State) : (updFab f s).lpddr = s.lpddr := rfl
@[simp] theorem updFab_hostMem (f : FabricState → FabricState) (s : State) : (updFab f s).hostMem = s.hostMem := rfl
@[simp] theorem updFab_vpData (f : FabricState → FabricState) (s : State) : (updFab f s).vpData = s.vpData := rfl
@[simp] theorem updFab_freeCount (f : FabricState → FabricState) (s : State) : (updFab f s).freeCount = s.freeCount := rfl
@[simp] theorem updFab_time (f : FabricState → FabricState) (s : State) : (updFab f s).time = s.time := rfl
@[simp] theorem updFab_slew (f : FabricState → FabricState) (s : State) : (updFab f s).slew = s.slew := rfl
@[simp] theorem updFab_stepped (f : FabricState → FabricState) (s : State) : (updFab f s).stepped = s.stepped := rfl
@[simp] theorem updFab_cmpLate (f : FabricState → FabricState) (s : State) : (updFab f s).cmpLate = s.cmpLate := rfl
@[simp] theorem updFab_holdSeen (f : FabricState → FabricState) (s : State) : (updFab f s).holdSeen = s.holdSeen := rfl
@[simp] theorem updFab_trig (f : FabricState → FabricState) (s : State) : (updFab f s).trig = s.trig := rfl
@[simp] theorem updFab_cap (f : FabricState → FabricState) (s : State) : (updFab f s).cap = s.cap := rfl
@[simp] theorem updFab_ptp (f : FabricState → FabricState) (s : State) : (updFab f s).ptp = s.ptp := rfl
@[simp] theorem updFab_cmds (f : FabricState → FabricState) (s : State) : (updFab f s).cmds = s.cmds := rfl
@[simp] theorem updFab_pwr (f : FabricState → FabricState) (s : State) : (updFab f s).pwr = s.pwr := rfl
@[simp] theorem updFab_pci (f : FabricState → FabricState) (s : State) : (updFab f s).pci = s.pci := rfl
@[simp] theorem updFab_ing (f : FabricState → FabricState) (s : State) : (updFab f s).ing = s.ing := rfl
@[simp] theorem updFab_heldUnits (f : FabricState → FabricState) (s : State) : (updFab f s).heldUnits = s.heldUnits := rfl
@[simp] theorem updFab_aln (f : FabricState → FabricState) (s : State) : (updFab f s).aln = s.aln := rfl
@[simp] theorem updFab_ego (f : FabricState → FabricState) (s : State) : (updFab f s).ego = s.ego := rfl
@[simp] theorem updFab_vhe (f : FabricState → FabricState) (s : State) : (updFab f s).vhe = s.vhe := rfl
@[simp] theorem updFab_lanes (f : FabricState → FabricState) (s : State) : (updFab f s).lanes = s.lanes := rfl
@[simp] theorem updFab_grid (f : FabricState → FabricState) (s : State) : (updFab f s).grid = s.grid := rfl
@[simp] theorem updFab_cal (f : FabricState → FabricState) (s : State) : (updFab f s).cal = s.cal := rfl
@[simp] theorem updFab_slices (f : FabricState → FabricState) (s : State) : (updFab f s).slices = s.slices := rfl
@[simp] theorem updFab_anyPublished (f : FabricState → FabricState) (s : State) : (updFab f s).anyPublished = s.anyPublished := rfl
@[simp] theorem updFab_img (f : FabricState → FabricState) (s : State) : (updFab f s).img = s.img := rfl
@[simp] theorem updFab_fab (f : FabricState → FabricState) (s : State) : (updFab f s).fab = f s.fab := rfl
@[simp] theorem updFab_attn (f : FabricState → FabricState) (s : State) : (updFab f s).attn = s.attn := rfl
@[simp] theorem updFab_slv (f : FabricState → FabricState) (s : State) : (updFab f s).slv = s.slv := rfl
@[simp] theorem updFab_govLower (f : FabricState → FabricState) (s : State) : (updFab f s).govLower = s.govLower := rfl
@[simp] theorem updFab_goldRes (f : FabricState → FabricState) (s : State) : (updFab f s).goldRes = s.goldRes := rfl
@[simp] theorem updFab_goldPending (f : FabricState → FabricState) (s : State) : (updFab f s).goldPending = s.goldPending := rfl
@[simp] theorem updFab_goldDeferrals (f : FabricState → FabricState) (s : State) : (updFab f s).goldDeferrals = s.goldDeferrals := rfl
@[simp] theorem updFab_goldRotation (f : FabricState → FabricState) (s : State) : (updFab f s).goldRotation = s.goldRotation := rfl
@[simp] theorem updFab_goldForced (f : FabricState → FabricState) (s : State) : (updFab f s).goldForced = s.goldForced := rfl
@[simp] theorem updFab_goldRecheck (f : FabricState → FabricState) (s : State) : (updFab f s).goldRecheck = s.goldRecheck := rfl
@[simp] theorem updFab_goldClear (f : FabricState → FabricState) (s : State) : (updFab f s).goldClear = s.goldClear := rfl
@[simp] theorem updFab_stopAbandon (f : FabricState → FabricState) (s : State) : (updFab f s).stopAbandon = s.stopAbandon := rfl
@[simp] theorem updFab_replaying (f : FabricState → FabricState) (s : State) : (updFab f s).replaying = s.replaying := rfl
@[simp] theorem updFab_runStart (f : FabricState → FabricState) (s : State) : (updFab f s).runStart = s.runStart := rfl
@[simp] theorem updFab_nextSeq (f : FabricState → FabricState) (s : State) : (updFab f s).nextSeq = s.nextSeq := rfl
@[simp] theorem updFab_halfNext (f : FabricState → FabricState) (s : State) : (updFab f s).halfNext = s.halfNext := rfl
@[simp] theorem updFab_lastTov (f : FabricState → FabricState) (s : State) : (updFab f s).lastTov = s.lastTov := rfl
@[simp] theorem updFab_mirror (f : FabricState → FabricState) (s : State) : (updFab f s).mirror = s.mirror := rfl
@[simp] theorem updFab_tol (f : FabricState → FabricState) (s : State) : (updFab f s).tol = s.tol := rfl
@[simp] theorem updFab_rcv (f : FabricState → FabricState) (s : State) : (updFab f s).rcv = s.rcv := rfl
@[simp] theorem updFab_esc (f : FabricState → FabricState) (s : State) : (updFab f s).esc = s.esc := rfl
@[simp] theorem updFab_bt (f : FabricState → FabricState) (s : State) : (updFab f s).bt = s.bt := rfl
@[simp] theorem updFab_cup (f : FabricState → FabricState) (s : State) : (updFab f s).cup = s.cup := rfl
@[simp] theorem updFab_links (f : FabricState → FabricState) (s : State) : (updFab f s).links = s.links := rfl
@[simp] theorem updFab_dbg (f : FabricState → FabricState) (s : State) : (updFab f s).dbg = s.dbg := rfl
@[simp] theorem updFab_rings (f : FabricState → FabricState) (s : State) : (updFab f s).rings = s.rings := rfl
@[simp] theorem updFab_mgmt (f : FabricState → FabricState) (s : State) : (updFab f s).mgmt = s.mgmt := rfl

/-! ## updGrid -/

@[simp] theorem updGrid_pending (f : GridState → GridState) (s : State) : (updGrid f s).pending = s.pending := rfl
@[simp] theorem updGrid_regs (f : GridState → GridState) (s : State) : (updGrid f s).regs = s.regs := rfl
@[simp] theorem updGrid_heldLow (f : GridState → GridState) (s : State) : (updGrid f s).heldLow = s.heldLow := rfl
@[simp] theorem updGrid_shadow (f : GridState → GridState) (s : State) : (updGrid f s).shadow = s.shadow := rfl
@[simp] theorem updGrid_readData (f : GridState → GridState) (s : State) : (updGrid f s).readData = s.readData := rfl
@[simp] theorem updGrid_readHigh (f : GridState → GridState) (s : State) : (updGrid f s).readHigh = s.readHigh := rfl
@[simp] theorem updGrid_barData (f : GridState → GridState) (s : State) : (updGrid f s).barData = s.barData := rfl
@[simp] theorem updGrid_out (f : GridState → GridState) (s : State) : (updGrid f s).out = s.out := rfl
@[simp] theorem updGrid_bridgeUp (f : GridState → GridState) (s : State) : (updGrid f s).bridgeUp = s.bridgeUp := rfl
@[simp] theorem updGrid_bridgeDown (f : GridState → GridState) (s : State) : (updGrid f s).bridgeDown = s.bridgeDown := rfl
@[simp] theorem updGrid_spr (f : GridState → GridState) (s : State) : (updGrid f s).spr = s.spr := rfl
@[simp] theorem updGrid_tapLfsr (f : GridState → GridState) (s : State) : (updGrid f s).tapLfsr = s.tapLfsr := rfl
@[simp] theorem updGrid_dome (f : GridState → GridState) (s : State) : (updGrid f s).dome = s.dome := rfl
@[simp] theorem updGrid_lpddr (f : GridState → GridState) (s : State) : (updGrid f s).lpddr = s.lpddr := rfl
@[simp] theorem updGrid_hostMem (f : GridState → GridState) (s : State) : (updGrid f s).hostMem = s.hostMem := rfl
@[simp] theorem updGrid_vpData (f : GridState → GridState) (s : State) : (updGrid f s).vpData = s.vpData := rfl
@[simp] theorem updGrid_freeCount (f : GridState → GridState) (s : State) : (updGrid f s).freeCount = s.freeCount := rfl
@[simp] theorem updGrid_time (f : GridState → GridState) (s : State) : (updGrid f s).time = s.time := rfl
@[simp] theorem updGrid_slew (f : GridState → GridState) (s : State) : (updGrid f s).slew = s.slew := rfl
@[simp] theorem updGrid_stepped (f : GridState → GridState) (s : State) : (updGrid f s).stepped = s.stepped := rfl
@[simp] theorem updGrid_cmpLate (f : GridState → GridState) (s : State) : (updGrid f s).cmpLate = s.cmpLate := rfl
@[simp] theorem updGrid_holdSeen (f : GridState → GridState) (s : State) : (updGrid f s).holdSeen = s.holdSeen := rfl
@[simp] theorem updGrid_trig (f : GridState → GridState) (s : State) : (updGrid f s).trig = s.trig := rfl
@[simp] theorem updGrid_cap (f : GridState → GridState) (s : State) : (updGrid f s).cap = s.cap := rfl
@[simp] theorem updGrid_ptp (f : GridState → GridState) (s : State) : (updGrid f s).ptp = s.ptp := rfl
@[simp] theorem updGrid_cmds (f : GridState → GridState) (s : State) : (updGrid f s).cmds = s.cmds := rfl
@[simp] theorem updGrid_pwr (f : GridState → GridState) (s : State) : (updGrid f s).pwr = s.pwr := rfl
@[simp] theorem updGrid_pci (f : GridState → GridState) (s : State) : (updGrid f s).pci = s.pci := rfl
@[simp] theorem updGrid_ing (f : GridState → GridState) (s : State) : (updGrid f s).ing = s.ing := rfl
@[simp] theorem updGrid_heldUnits (f : GridState → GridState) (s : State) : (updGrid f s).heldUnits = s.heldUnits := rfl
@[simp] theorem updGrid_aln (f : GridState → GridState) (s : State) : (updGrid f s).aln = s.aln := rfl
@[simp] theorem updGrid_ego (f : GridState → GridState) (s : State) : (updGrid f s).ego = s.ego := rfl
@[simp] theorem updGrid_vhe (f : GridState → GridState) (s : State) : (updGrid f s).vhe = s.vhe := rfl
@[simp] theorem updGrid_lanes (f : GridState → GridState) (s : State) : (updGrid f s).lanes = s.lanes := rfl
@[simp] theorem updGrid_grid (f : GridState → GridState) (s : State) : (updGrid f s).grid = f s.grid := rfl
@[simp] theorem updGrid_cal (f : GridState → GridState) (s : State) : (updGrid f s).cal = s.cal := rfl
@[simp] theorem updGrid_slices (f : GridState → GridState) (s : State) : (updGrid f s).slices = s.slices := rfl
@[simp] theorem updGrid_anyPublished (f : GridState → GridState) (s : State) : (updGrid f s).anyPublished = s.anyPublished := rfl
@[simp] theorem updGrid_img (f : GridState → GridState) (s : State) : (updGrid f s).img = s.img := rfl
@[simp] theorem updGrid_fab (f : GridState → GridState) (s : State) : (updGrid f s).fab = s.fab := rfl
@[simp] theorem updGrid_attn (f : GridState → GridState) (s : State) : (updGrid f s).attn = s.attn := rfl
@[simp] theorem updGrid_slv (f : GridState → GridState) (s : State) : (updGrid f s).slv = s.slv := rfl
@[simp] theorem updGrid_govLower (f : GridState → GridState) (s : State) : (updGrid f s).govLower = s.govLower := rfl
@[simp] theorem updGrid_goldRes (f : GridState → GridState) (s : State) : (updGrid f s).goldRes = s.goldRes := rfl
@[simp] theorem updGrid_goldPending (f : GridState → GridState) (s : State) : (updGrid f s).goldPending = s.goldPending := rfl
@[simp] theorem updGrid_goldDeferrals (f : GridState → GridState) (s : State) : (updGrid f s).goldDeferrals = s.goldDeferrals := rfl
@[simp] theorem updGrid_goldRotation (f : GridState → GridState) (s : State) : (updGrid f s).goldRotation = s.goldRotation := rfl
@[simp] theorem updGrid_goldForced (f : GridState → GridState) (s : State) : (updGrid f s).goldForced = s.goldForced := rfl
@[simp] theorem updGrid_goldRecheck (f : GridState → GridState) (s : State) : (updGrid f s).goldRecheck = s.goldRecheck := rfl
@[simp] theorem updGrid_goldClear (f : GridState → GridState) (s : State) : (updGrid f s).goldClear = s.goldClear := rfl
@[simp] theorem updGrid_stopAbandon (f : GridState → GridState) (s : State) : (updGrid f s).stopAbandon = s.stopAbandon := rfl
@[simp] theorem updGrid_replaying (f : GridState → GridState) (s : State) : (updGrid f s).replaying = s.replaying := rfl
@[simp] theorem updGrid_runStart (f : GridState → GridState) (s : State) : (updGrid f s).runStart = s.runStart := rfl
@[simp] theorem updGrid_nextSeq (f : GridState → GridState) (s : State) : (updGrid f s).nextSeq = s.nextSeq := rfl
@[simp] theorem updGrid_halfNext (f : GridState → GridState) (s : State) : (updGrid f s).halfNext = s.halfNext := rfl
@[simp] theorem updGrid_lastTov (f : GridState → GridState) (s : State) : (updGrid f s).lastTov = s.lastTov := rfl
@[simp] theorem updGrid_mirror (f : GridState → GridState) (s : State) : (updGrid f s).mirror = s.mirror := rfl
@[simp] theorem updGrid_tol (f : GridState → GridState) (s : State) : (updGrid f s).tol = s.tol := rfl
@[simp] theorem updGrid_rcv (f : GridState → GridState) (s : State) : (updGrid f s).rcv = s.rcv := rfl
@[simp] theorem updGrid_esc (f : GridState → GridState) (s : State) : (updGrid f s).esc = s.esc := rfl
@[simp] theorem updGrid_bt (f : GridState → GridState) (s : State) : (updGrid f s).bt = s.bt := rfl
@[simp] theorem updGrid_cup (f : GridState → GridState) (s : State) : (updGrid f s).cup = s.cup := rfl
@[simp] theorem updGrid_links (f : GridState → GridState) (s : State) : (updGrid f s).links = s.links := rfl
@[simp] theorem updGrid_dbg (f : GridState → GridState) (s : State) : (updGrid f s).dbg = s.dbg := rfl
@[simp] theorem updGrid_rings (f : GridState → GridState) (s : State) : (updGrid f s).rings = s.rings := rfl
@[simp] theorem updGrid_mgmt (f : GridState → GridState) (s : State) : (updGrid f s).mgmt = s.mgmt := rfl

/-! ## updMirror -/

@[simp] theorem updMirror_pending (f : MirrorState → MirrorState) (s : State) : (updMirror f s).pending = s.pending := rfl
@[simp] theorem updMirror_regs (f : MirrorState → MirrorState) (s : State) : (updMirror f s).regs = s.regs := rfl
@[simp] theorem updMirror_heldLow (f : MirrorState → MirrorState) (s : State) : (updMirror f s).heldLow = s.heldLow := rfl
@[simp] theorem updMirror_shadow (f : MirrorState → MirrorState) (s : State) : (updMirror f s).shadow = s.shadow := rfl
@[simp] theorem updMirror_readData (f : MirrorState → MirrorState) (s : State) : (updMirror f s).readData = s.readData := rfl
@[simp] theorem updMirror_readHigh (f : MirrorState → MirrorState) (s : State) : (updMirror f s).readHigh = s.readHigh := rfl
@[simp] theorem updMirror_barData (f : MirrorState → MirrorState) (s : State) : (updMirror f s).barData = s.barData := rfl
@[simp] theorem updMirror_out (f : MirrorState → MirrorState) (s : State) : (updMirror f s).out = s.out := rfl
@[simp] theorem updMirror_bridgeUp (f : MirrorState → MirrorState) (s : State) : (updMirror f s).bridgeUp = s.bridgeUp := rfl
@[simp] theorem updMirror_bridgeDown (f : MirrorState → MirrorState) (s : State) : (updMirror f s).bridgeDown = s.bridgeDown := rfl
@[simp] theorem updMirror_spr (f : MirrorState → MirrorState) (s : State) : (updMirror f s).spr = s.spr := rfl
@[simp] theorem updMirror_tapLfsr (f : MirrorState → MirrorState) (s : State) : (updMirror f s).tapLfsr = s.tapLfsr := rfl
@[simp] theorem updMirror_dome (f : MirrorState → MirrorState) (s : State) : (updMirror f s).dome = s.dome := rfl
@[simp] theorem updMirror_lpddr (f : MirrorState → MirrorState) (s : State) : (updMirror f s).lpddr = s.lpddr := rfl
@[simp] theorem updMirror_hostMem (f : MirrorState → MirrorState) (s : State) : (updMirror f s).hostMem = s.hostMem := rfl
@[simp] theorem updMirror_vpData (f : MirrorState → MirrorState) (s : State) : (updMirror f s).vpData = s.vpData := rfl
@[simp] theorem updMirror_freeCount (f : MirrorState → MirrorState) (s : State) : (updMirror f s).freeCount = s.freeCount := rfl
@[simp] theorem updMirror_time (f : MirrorState → MirrorState) (s : State) : (updMirror f s).time = s.time := rfl
@[simp] theorem updMirror_slew (f : MirrorState → MirrorState) (s : State) : (updMirror f s).slew = s.slew := rfl
@[simp] theorem updMirror_stepped (f : MirrorState → MirrorState) (s : State) : (updMirror f s).stepped = s.stepped := rfl
@[simp] theorem updMirror_cmpLate (f : MirrorState → MirrorState) (s : State) : (updMirror f s).cmpLate = s.cmpLate := rfl
@[simp] theorem updMirror_holdSeen (f : MirrorState → MirrorState) (s : State) : (updMirror f s).holdSeen = s.holdSeen := rfl
@[simp] theorem updMirror_trig (f : MirrorState → MirrorState) (s : State) : (updMirror f s).trig = s.trig := rfl
@[simp] theorem updMirror_cap (f : MirrorState → MirrorState) (s : State) : (updMirror f s).cap = s.cap := rfl
@[simp] theorem updMirror_ptp (f : MirrorState → MirrorState) (s : State) : (updMirror f s).ptp = s.ptp := rfl
@[simp] theorem updMirror_cmds (f : MirrorState → MirrorState) (s : State) : (updMirror f s).cmds = s.cmds := rfl
@[simp] theorem updMirror_pwr (f : MirrorState → MirrorState) (s : State) : (updMirror f s).pwr = s.pwr := rfl
@[simp] theorem updMirror_pci (f : MirrorState → MirrorState) (s : State) : (updMirror f s).pci = s.pci := rfl
@[simp] theorem updMirror_ing (f : MirrorState → MirrorState) (s : State) : (updMirror f s).ing = s.ing := rfl
@[simp] theorem updMirror_heldUnits (f : MirrorState → MirrorState) (s : State) : (updMirror f s).heldUnits = s.heldUnits := rfl
@[simp] theorem updMirror_aln (f : MirrorState → MirrorState) (s : State) : (updMirror f s).aln = s.aln := rfl
@[simp] theorem updMirror_ego (f : MirrorState → MirrorState) (s : State) : (updMirror f s).ego = s.ego := rfl
@[simp] theorem updMirror_vhe (f : MirrorState → MirrorState) (s : State) : (updMirror f s).vhe = s.vhe := rfl
@[simp] theorem updMirror_lanes (f : MirrorState → MirrorState) (s : State) : (updMirror f s).lanes = s.lanes := rfl
@[simp] theorem updMirror_grid (f : MirrorState → MirrorState) (s : State) : (updMirror f s).grid = s.grid := rfl
@[simp] theorem updMirror_cal (f : MirrorState → MirrorState) (s : State) : (updMirror f s).cal = s.cal := rfl
@[simp] theorem updMirror_slices (f : MirrorState → MirrorState) (s : State) : (updMirror f s).slices = s.slices := rfl
@[simp] theorem updMirror_anyPublished (f : MirrorState → MirrorState) (s : State) : (updMirror f s).anyPublished = s.anyPublished := rfl
@[simp] theorem updMirror_img (f : MirrorState → MirrorState) (s : State) : (updMirror f s).img = s.img := rfl
@[simp] theorem updMirror_fab (f : MirrorState → MirrorState) (s : State) : (updMirror f s).fab = s.fab := rfl
@[simp] theorem updMirror_attn (f : MirrorState → MirrorState) (s : State) : (updMirror f s).attn = s.attn := rfl
@[simp] theorem updMirror_slv (f : MirrorState → MirrorState) (s : State) : (updMirror f s).slv = s.slv := rfl
@[simp] theorem updMirror_govLower (f : MirrorState → MirrorState) (s : State) : (updMirror f s).govLower = s.govLower := rfl
@[simp] theorem updMirror_goldRes (f : MirrorState → MirrorState) (s : State) : (updMirror f s).goldRes = s.goldRes := rfl
@[simp] theorem updMirror_goldPending (f : MirrorState → MirrorState) (s : State) : (updMirror f s).goldPending = s.goldPending := rfl
@[simp] theorem updMirror_goldDeferrals (f : MirrorState → MirrorState) (s : State) : (updMirror f s).goldDeferrals = s.goldDeferrals := rfl
@[simp] theorem updMirror_goldRotation (f : MirrorState → MirrorState) (s : State) : (updMirror f s).goldRotation = s.goldRotation := rfl
@[simp] theorem updMirror_goldForced (f : MirrorState → MirrorState) (s : State) : (updMirror f s).goldForced = s.goldForced := rfl
@[simp] theorem updMirror_goldRecheck (f : MirrorState → MirrorState) (s : State) : (updMirror f s).goldRecheck = s.goldRecheck := rfl
@[simp] theorem updMirror_goldClear (f : MirrorState → MirrorState) (s : State) : (updMirror f s).goldClear = s.goldClear := rfl
@[simp] theorem updMirror_stopAbandon (f : MirrorState → MirrorState) (s : State) : (updMirror f s).stopAbandon = s.stopAbandon := rfl
@[simp] theorem updMirror_replaying (f : MirrorState → MirrorState) (s : State) : (updMirror f s).replaying = s.replaying := rfl
@[simp] theorem updMirror_runStart (f : MirrorState → MirrorState) (s : State) : (updMirror f s).runStart = s.runStart := rfl
@[simp] theorem updMirror_nextSeq (f : MirrorState → MirrorState) (s : State) : (updMirror f s).nextSeq = s.nextSeq := rfl
@[simp] theorem updMirror_halfNext (f : MirrorState → MirrorState) (s : State) : (updMirror f s).halfNext = s.halfNext := rfl
@[simp] theorem updMirror_lastTov (f : MirrorState → MirrorState) (s : State) : (updMirror f s).lastTov = s.lastTov := rfl
@[simp] theorem updMirror_mirror (f : MirrorState → MirrorState) (s : State) : (updMirror f s).mirror = f s.mirror := rfl
@[simp] theorem updMirror_tol (f : MirrorState → MirrorState) (s : State) : (updMirror f s).tol = s.tol := rfl
@[simp] theorem updMirror_rcv (f : MirrorState → MirrorState) (s : State) : (updMirror f s).rcv = s.rcv := rfl
@[simp] theorem updMirror_esc (f : MirrorState → MirrorState) (s : State) : (updMirror f s).esc = s.esc := rfl
@[simp] theorem updMirror_bt (f : MirrorState → MirrorState) (s : State) : (updMirror f s).bt = s.bt := rfl
@[simp] theorem updMirror_cup (f : MirrorState → MirrorState) (s : State) : (updMirror f s).cup = s.cup := rfl
@[simp] theorem updMirror_links (f : MirrorState → MirrorState) (s : State) : (updMirror f s).links = s.links := rfl
@[simp] theorem updMirror_dbg (f : MirrorState → MirrorState) (s : State) : (updMirror f s).dbg = s.dbg := rfl
@[simp] theorem updMirror_rings (f : MirrorState → MirrorState) (s : State) : (updMirror f s).rings = s.rings := rfl
@[simp] theorem updMirror_mgmt (f : MirrorState → MirrorState) (s : State) : (updMirror f s).mgmt = s.mgmt := rfl

end Sys2Proof.Machine
end

