-- ==== Sys2Proof/Laws/Ops.lean ====
section
/-! SUPPORT. What each shared operation can do, said once: the fields it may change, the memory it keeps, and the form it
preserves. -/
namespace Sys2Proof.Machine

/-! ## Registers -/

/-- A field write is a word write. -/
theorem fset_frame (s : State) (a : Nat) (f : Bits) (v : Nat) : fset s a f v = { s with regs := (fset s a f v).regs } := rfl

theorem bumpBy_frame (s : State) (a : Nat) (f : Bits) (k : Nat) : bumpBy s a f k = { s with regs := (bumpBy s a f k).regs } := rfl

theorem regsWf_bumpBy {s : State} (h : RegsWf s) (a : Nat) (f : Bits) (k : Nat) : RegsWf (bumpBy s a f k) := regsWf_fset h a f _

/-- A saturating counter adds until its largest value. -/
theorem fget_bumpBy_same {s : State} (h : RegsWf s) {f : Bits} (hf : f.fits) (a k : Nat) :
    fget (bumpBy s a f k) a f = min (2 ^ bitsWidth f - 1) (fget s a f + k) := by
  have hp : 0 < 2 ^ bitsWidth f := Nat.pow_pos (by decide)
  unfold bumpBy
  rw [fget_fset_same h hf]
  unfold clampNat
  split <;> (rw [Nat.mod_eq_of_lt (by omega)]; omega)

theorem rd_fset_ne {s : State} (h : RegsWf s) {a b : Nat} (f : Bits) (v : Nat) (hb : b ≠ a) : rd (fset s a f v) b = rd s b :=
  rd_wr_ne h _ hb

theorem wr64_frame (s : State) (a v : Nat) : wr64 s a v = { s with regs := (wr64 s a v).regs } := rfl

theorem regsWf_wr64 {s : State} (h : RegsWf s) (a v : Nat) : RegsWf (wr64 s a v) := regsWf_wr (regsWf_wr h a _) _ _

/-- Only the RW fields of a register change. -/
theorem storeRw_frame (a : Nat) (v : Word) (s : State) : storeRw a v s = { s with regs := (storeRw a v s).regs } := by
  unfold storeRw; split <;> rfl

theorem regsWf_storeRw {s : State} (h : RegsWf s) (a : Nat) (v : Word) : RegsWf (storeRw a v s) := by
  unfold storeRw
  split
  · exact regsWf_wr h a _
  · exact h

theorem rd_storeRw_ne {s : State} (h : RegsWf s) {a b : Nat} (v : Word) (hb : b ≠ a) : rd (storeRw a v s) b = rd s b := by
  unfold storeRw
  split
  · exact rd_wr_ne h _ hb
  · rfl

/-- A clear-on-read counter gives its value and is 0. -/
theorem takeCount_frame (a : Nat) (s : State) : (takeCount a s).2 = { s with regs := (takeCount a s).2.regs } := rfl

theorem takeCounts_frame (as : List Nat) (s : State) :
    (takeCounts as s).2 = { s with regs := (takeCounts as s).2.regs } := by
  induction as generalizing s with
  | nil => rfl
  | cons a as ih => exact ih (takeCount a s).2

theorem takeCounts_length (as : List Nat) (s : State) : (takeCounts as s).1.length = as.length := by
  induction as generalizing s with
  | nil => rfl
  | cons a as ih => simp [takeCounts, ih]

theorem regsWf_takeCounts {s : State} (h : RegsWf s) (as : List Nat) : RegsWf (takeCounts as s).2 := by
  induction as generalizing s with
  | nil => exact h
  | cons a as ih => exact ih (regsWf_wr h a 0)

theorem rd_takeCounts_ne {s : State} (h : RegsWf s) {as : List Nat} {b : Nat} (hb : b ∉ as) :
    rd (takeCounts as s).2 b = rd s b := by
  induction as generalizing s with
  | nil => rfl
  | cons a as ih =>
    simp only [List.mem_cons, not_or] at hb
    exact (ih (regsWf_wr h a 0) hb.2).trans (rd_wr_ne h 0 hb.1)

/-! ## Byte memories -/

/-- A block write keeps the canonical form. -/
theorem cellsWf_putBytes {m : List Host.Cell} (a : Nat) (bs : List Nat) (h : cellsWf emptyByte m = true) :
    cellsWf emptyByte (putBytes m a bs) = true := by
  induction bs generalizing m a with
  | nil => exact h
  | cons b bs ih => exact ih (a + 1) (cellsWf_cellsSet a _ h)

/-- A block write leaves every byte outside the block alone. -/
theorem putBytes_outside {m : List Host.Cell} {a x : Nat} {bs : List Nat} (h : cellsWf emptyByte m = true)
    (hx : x < a ∨ a + bs.length ≤ x) : cellsGet emptyByte (putBytes m a bs) x = cellsGet emptyByte m x := by
  induction bs generalizing m a with
  | nil => rfl
  | cons b bs ih =>
    simp only [List.length_cons] at hx
    rw [putBytes, ih (cellsWf_cellsSet a _ h) (by omega), cellsGet_cellsSet_ne _ h (by omega)]

/-- A block write stores its bytes. -/
theorem putBytes_inside {m : List Host.Cell} {a k : Nat} {bs : List Nat} (h : cellsWf emptyByte m = true) (hk : k < bs.length) :
    (cellsGet emptyByte (putBytes m a bs) (a + k)).toNat = nth bs k 0 % 256 := by
  induction bs generalizing m a k with
  | nil => simp at hk
  | cons b bs ih =>
    have hw := cellsWf_cellsSet (d := emptyByte) a (BitVec.ofNat 8 b) h
    cases k with
    | zero =>
      show (cellsGet emptyByte (putBytes (cellsSet emptyByte m a (BitVec.ofNat 8 b)) (a + 1) bs) a).toNat = _
      rw [putBytes_outside hw (by omega), cellsGet_cellsSet_same a _ h]; simp [nth]
    | succ k =>
      have hk' : k < bs.length := by simpa using hk
      have := ih (a := a + 1) hw hk'
      rw [putBytes, show a + (k + 1) = a + 1 + k by omega, this]
      simp [nth]

theorem ddrByte_ddrPut_inside {s : State} (h : cellsWf emptyByte s.lpddr = true) {a k : Nat} {bs : List Nat}
    (hk : k < bs.length) : ddrByte (ddrPut s a bs) (a + k) = nth bs k 0 % 256 := putBytes_inside h hk

theorem ddrByte_ddrPut_outside {s : State} (h : cellsWf emptyByte s.lpddr = true) {a x : Nat} {bs : List Nat}
    (hx : x < a ∨ a + bs.length ≤ x) : ddrByte (ddrPut s a bs) x = ddrByte s x :=
  congrArg BitVec.toNat (putBytes_outside h hx)

theorem domeByte_domePut_inside {s : State} (h : cellsWf emptyByte s.dome = true) {a k : Nat} {bs : List Nat}
    (hk : k < bs.length) : domeByte (domePut s a bs) (a + k) = nth bs k 0 % 256 := putBytes_inside h hk

theorem domeByte_domePut_outside {s : State} (h : cellsWf emptyByte s.dome = true) {a x : Nat} {bs : List Nat}
    (hx : x < a ∨ a + bs.length ≤ x) : domeByte (domePut s a bs) x = domeByte s x :=
  congrArg BitVec.toNat (putBytes_outside h hx)

/-- A block read gives as many bytes as were asked for. -/
theorem getBytes_length (m : List Host.Cell) (a n : Nat) : (getBytes m a n).length = n := by
  induction n generalizing a with
  | zero => rfl
  | succ n ih => simp [getBytes, ih]

/-- Two memories that agree on a block read alike there. -/
theorem getBytes_congr {m m' : List Host.Cell} {a n : Nat}
    (h : ∀ x, a ≤ x → x < a + n → cellsGet emptyByte m x = cellsGet emptyByte m' x) : getBytes m a n = getBytes m' a n := by
  induction n generalizing a with
  | zero => rfl
  | succ n ih => simp only [getBytes]; rw [h a (by omega) (by omega), ih (fun x h1 h2 => h x (by omega) (by omega))]

/-- A write into host memory changes nothing else. -/
theorem hostPut_frame (s : State) (a : Nat) (ws : List Nat) : hostPut s a ws = { s with hostMem := (hostPut s a ws).hostMem } := by
  induction ws generalizing s a with
  | nil => rfl
  | cons w ws ih => exact ih { s with hostMem := cellsSet emptyWord s.hostMem a (BitVec.ofNat 32 w) } (a + 4)

theorem cellsWf_hostPut {s : State} (a : Nat) (ws : List Nat) (h : cellsWf emptyWord s.hostMem = true) :
    cellsWf emptyWord (hostPut s a ws).hostMem = true := by
  induction ws generalizing s a with
  | nil => exact h
  | cons w ws ih => exact ih (s := { s with hostMem := cellsSet emptyWord s.hostMem a (BitVec.ofNat 32 w) }) (a + 4) (cellsWf_cellsSet a _ h)

/-! ## Interrupts, the event log and faults -/

/-- An interrupt sends a message or sets its pending bit. -/
theorem raiseIrq_frame (v : Nat) (s : State) :
    raiseIrq v s = { s with regs := (raiseIrq v s).regs, out := (raiseIrq v s).out } := by unfold raiseIrq; split <;> rfl

theorem regsWf_raiseIrq {s : State} (h : RegsWf s) (v : Nat) : RegsWf (raiseIrq v s) := by
  unfold raiseIrq
  split
  · exact regsWf_fset h _ _ _
  · exact h

theorem rd_raiseIrq_ne {s : State} (h : RegsWf s) (v : Nat) {a : Nat} (ha : a ≠ MSIX_PBA) : rd (raiseIrq v s) a = rd s a := by
  unfold raiseIrq
  split
  · exact rd_fset_ne h _ _ ha
  · rfl

/-- The entry of an event: its eight words. -/
abbrev logWords (code block x y : Nat) (s : State) : List Nat :=
  [fget s CUP_LOG_NEXT fWord] ++ t96Words (time16 s)
    ++ [code % 2 ^ 16 + Config.logSeverity code % 4 * 2 ^ 16 + block % 256 * 2 ^ 24, x, y]

/-- A log entry is stored, an entry it overwrites is counted, and the next sequence number rises. -/
theorem logEvent_eq (code block x y : Nat) (s : State) : logEvent code block x y s = fset
    (if fget s CUP_LOG_NEXT fWord < 32768
      then ddrPutWords s (logBase + fget s CUP_LOG_NEXT fWord % 32768 * 32) (logWords code block x y s)
      else bump (ddrPutWords s (logBase + fget s CUP_LOG_NEXT fWord % 32768 * 32) (logWords code block x y s)) CUP_LOG_OVERWRITES)
    CUP_LOG_NEXT fWord (fget s CUP_LOG_NEXT fWord + 1) := by unfold logEvent; simp only

/-- A log entry goes to LPDDR5X and the log's counts. -/
theorem logEvent_shape (code block x y : Nat) (s : State) : ∃ r, logEvent code block x y s = { s with
    regs := r, lpddr := putBytes s.lpddr (logBase + fget s CUP_LOG_NEXT fWord % 32768 * 32) (bytesOfWords (logWords code block x y s)) } := by
  rw [logEvent_eq]
  generalize logWords code block x y s = ws
  generalize logBase + fget s CUP_LOG_NEXT fWord % 32768 * 32 = a
  generalize fget s CUP_LOG_NEXT fWord = q
  split <;> exact ⟨_, rfl⟩

theorem logEvent_frame (code block x y : Nat) (s : State) : logEvent code block x y s
    = { s with regs := (logEvent code block x y s).regs, lpddr := (logEvent code block x y s).lpddr } := by
  obtain ⟨r, h⟩ := logEvent_shape code block x y s
  rw [h]

theorem lpddr_logEvent (code block x y : Nat) (s : State) : (logEvent code block x y s).lpddr
    = putBytes s.lpddr (logBase + fget s CUP_LOG_NEXT fWord % 32768 * 32) (bytesOfWords (logWords code block x y s)) := by
  obtain ⟨r, h⟩ := logEvent_shape code block x y s
  rw [h]

theorem regsWf_logEvent {s : State} (h : RegsWf s) (code block x y : Nat) : RegsWf (logEvent code block x y s) := by
  rw [logEvent_eq]
  generalize logWords code block x y s = ws
  generalize logBase + fget s CUP_LOG_NEXT fWord % 32768 * 32 = a
  generalize fget s CUP_LOG_NEXT fWord = q
  split
  · exact regsWf_fset (s := ddrPutWords s a ws) h _ _ _
  · exact regsWf_fset (regsWf_bumpBy (s := ddrPutWords s a ws) h _ _ _) _ _ _

theorem rd_logEvent_ne {s : State} (h : RegsWf s) (code block x y : Nat) {b : Nat} (h1 : b ≠ CUP_LOG_NEXT) (h2 : b ≠ CUP_LOG_OVERWRITES) :
    rd (logEvent code block x y s) b = rd s b := by
  rw [logEvent_eq]
  generalize logWords code block x y s = ws
  generalize logBase + fget s CUP_LOG_NEXT fWord % 32768 * 32 = a
  generalize fget s CUP_LOG_NEXT fWord = q
  split
  · exact rd_fset_ne (s := ddrPutWords s a ws) h _ _ h1
  · exact (rd_fset_ne (regsWf_bumpBy (s := ddrPutWords s a ws) h _ _ _) _ _ h1).trans (rd_fset_ne (s := ddrPutWords s a ws) h _ _ h2)

theorem toBytes_length (n v : Nat) : (toBytes n v).length = n := by
  induction n generalizing v with
  | zero => rfl
  | succ n ih => simp [toBytes, ih]

theorem bytesOfWords_length (ws : List Nat) : (bytesOfWords ws).length = 4 * ws.length := by
  induction ws with
  | nil => rfl
  | cons w ws ih =>
    have : bytesOfWords (w :: ws) = toBytes 4 w ++ bytesOfWords ws := rfl
    rw [this, List.length_append, toBytes_length, ih, List.length_cons]
    omega

/-- A log entry changes no byte outside the log's ring. -/
theorem ddrByte_logEvent_outside {s : State} (h : cellsWf emptyByte s.lpddr = true) (code block x y : Nat) {a : Nat}
    (ha : a < 0x03F00000 ∨ 0x04000000 ≤ a) : ddrByte (logEvent code block x y s) a = ddrByte s a := by
  unfold ddrByte
  rw [lpddr_logEvent, putBytes_outside h]
  have hm := Nat.mod_lt (fget s CUP_LOG_NEXT fWord) (show 0 < 32768 by decide)
  rw [bytesOfWords_length]
  simp only [logWords, logBase, t96Words, List.length_append, List.length_cons, List.length_nil]
  omega

theorem cellsWf_logEvent {s : State} (h : cellsWf emptyByte s.lpddr = true) (code block x y : Nat) :
    cellsWf emptyByte (logEvent code block x y s).lpddr = true := by
  rw [lpddr_logEvent]; exact cellsWf_putBytes _ _ h

theorem accessErr_frame (bit addr : Nat) (ag : Agent) (s : State) : accessErr bit addr ag s
    = { s with regs := (accessErr bit addr ag s).regs, lpddr := (accessErr bit addr ag s).lpddr, out := (accessErr bit addr ag s).out } := by
  unfold accessErr
  rw [raiseIrq_frame, logEvent_frame]
  rfl

theorem regsWf_accessErr {s : State} (h : RegsWf s) (bit addr : Nat) (ag : Agent) : RegsWf (accessErr bit addr ag s) :=
  regsWf_raiseIrq (regsWf_logEvent (regsWf_fset h _ _ _) _ _ _ _) _

theorem reportFault_frame (bit unit : Nat) (s : State) :
    reportFault bit unit s = { s with bridgeUp := s.bridgeUp ++ [.fault bit unit] } := rfl

theorem ledgerErr_frame (a : Nat) (f : Bits) (bit unit : Nat) (s : State) : ledgerErr a f bit unit s
    = { s with regs := (ledgerErr a f bit unit s).regs, out := (ledgerErr a f bit unit s).out
               bridgeUp := s.bridgeUp ++ [.fault bit unit] } := by
  unfold ledgerErr
  rw [reportFault_frame, raiseIrq_frame]
  rfl

theorem regsWf_ledgerErr {s : State} (h : RegsWf s) (a : Nat) (f : Bits) (bit unit : Nat) : RegsWf (ledgerErr a f bit unit s) :=
  regsWf_raiseIrq (s := fon s a f) (regsWf_fset h a f 1) 7

/-! ## Free values and messages -/

theorem drawFree_frame (s : State) : (drawFree s).2 = { s with freeCount := s.freeCount + 1 } := rfl

theorem latchWords_frame (l : List (Nat × Nat)) (s : State) : latchWords l s = { s with shadow := (latchWords l s).shadow } := rfl

/-- Taking a message from the bridge changes only its queue. -/
theorem takeUp_frame (p : UpMsg → Bool) (s : State) : (takeUp p s).2 = { s with bridgeUp := (takeUp p s).2.bridgeUp } := by
  unfold takeUp; split <;> rfl
theorem takeDown_frame (p : DownMsg → Bool) (s : State) : (takeDown p s).2 = { s with bridgeDown := (takeDown p s).2.bridgeDown } := by
  unfold takeDown; split <;> rfl

/-! ## Command packets -/

/-- Giving a reply changes only the commands in execution. -/
theorem setReply_frame (p : Path) (r : Option Reply) (s : State) : setReply p r s = { s with cmds := (setReply p r s).cmds } := by
  cases r <;> rfl

theorem samePath_refl (p : Path) : samePath p p = true := by cases p <;> simp [samePath]

theorem samePath_trans {p q r : Path} (h1 : samePath p q = true) (h2 : samePath q r = true) : samePath p r = true := by
  cases p <;> cases q <;> cases r <;> simp_all [samePath]

/-- While nothing runs on a path, a reply to that path touches no command. -/
theorem setReply_idle {p : Path} {cs : List Running} (h : cs.find? (fun r => samePath r.head.path p) = none) (x : Reply) :
    cs.map (fun c => if samePath c.head.path p && c.reply.isNone then { c with reply := some x } else c) = cs := by
  rw [List.find?_eq_none] at h
  conv => rhs; rw [← List.map_id cs]
  refine List.map_congr_left fun c hc => ?_
  have := h c hc
  simp only [Bool.not_eq_true] at this
  simp [this]

/-- A path that can take a command has none in execution. -/
theorem pathFree_idle {p : Path} {s : State} (h : pathFree p s = true) : runningOn p s = none := by
  unfold pathFree at h; simp only [Bool.and_eq_true, Option.isNone_iff_eq_none] at h; exact h.1

/-- A command that passes its checks and answers at once stands as its path's reply, when its meaning leaves the commands in
execution alone. -/
theorem execOp_ok {h : CmdHead} {op : Nat} {f : List Nat → State → CmdOut} {ps : List Word} {s t : State} {x : Reply}
    (hi : pathFree h.path s = true) (hc : headCheck h op s = none)
    (hf : f (ps.map BitVec.toNat) { s with cmds := s.cmds ++ [⟨h, headWord0 h op, op, ps.map BitVec.toNat, upNs s, none⟩] } = (t, some x))
    (ht : t.cmds = s.cmds ++ [⟨h, headWord0 h op, op, ps.map BitVec.toNat, upNs s, none⟩]) :
    execOp h op f ps s = { t with cmds := s.cmds ++ [⟨h, headWord0 h op, op, ps.map BitVec.toNat, upNs s, some x⟩] } := by
  unfold execOp runPacket
  simp only [hi, hc, Bool.not_true, Bool.false_eq_true, if_false, hf]
  unfold setReply
  simp only [ht, List.map_append, setReply_idle (pathFree_idle hi), List.map_cons, List.map_nil, samePath_refl,
    Option.isNone_none, Bool.and_self, if_true]

/-- A command whose path cannot take it is not executed. -/
theorem execOp_busy {h : CmdHead} {op : Nat} {f : List Nat → State → CmdOut} {ps : List Word} {s : State}
    (hi : pathFree h.path s = false) : execOp h op f ps s = s := by
  unfold execOp; simp [hi]

/-- A command that a check turns away is answered with the check's status, and nothing else changes. -/
theorem execOp_refused {h : CmdHead} {op : Nat} {f : List Nat → State → CmdOut} {ps : List Word} {s : State} {st : Nat}
    (hi : pathFree h.path s = true) (hc : headCheck h op s = some st) : execOp h op f ps s
      = { s with cmds := s.cmds ++ [⟨h, headWord0 h op, op, ps.map BitVec.toNat, upNs s, some ⟨st, []⟩⟩] } := by
  unfold execOp runPacket
  simp only [hi, hc, Bool.not_true, Bool.false_eq_true, if_false, fail]
  unfold setReply
  simp only [List.map_append, setReply_idle (pathFree_idle hi), List.map_cons, List.map_nil, samePath_refl,
    Option.isNone_none, Bool.and_self, if_true]

end Sys2Proof.Machine
end

