-- ==== Sys2Proof/Laws/Frames.lean ====
section
/-! SUPPORT. What the operations of the time base, Buttress, the Spire's outputs, the credits and the dies' guards can do. -/
namespace Sys2Proof.Machine

/-! ## Which die acts -/

/-- A guarded event acts or is discarded; it answers a next state either way. -/
theorem onMain_run {f : State → State} {s : State} (h : mainRuns s = true) : onMain f s = .next (f s) := by simp [onMain, h]
theorem onMain_idle {f : State → State} {s : State} (h : mainRuns s = false) : onMain f s = .next s := by simp [onMain, h]
theorem onCupola_run {f : State → State} {s : State} (h : cupolaRuns s = true) : onCupola f s = .next (f s) := by simp [onCupola, h]
theorem onCupola_idle {f : State → State} {s : State} (h : cupolaRuns s = false) : onCupola f s = .next s := by simp [onCupola, h]
theorem onSpire_run {f : State → State} {s : State} (h : spireRuns s = true) : onSpire f s = .next (f s) := by simp [onSpire, h]
theorem onSpire_idle {f : State → State} {s : State} (h : spireRuns s = false) : onSpire f s = .next s := by simp [onSpire, h]
theorem onFirmware_run {f : State → State} {s : State} (h : firmwareRuns s = true) : onFirmware f s = .next (f s) := by
  simp [onFirmware, h]
theorem onAgent_run {ag : Agent} {f : State → State} {s : State} (h : agentUp ag s = true) : onAgent ag f s = .next (f s) := by
  simp [onAgent, h]

/-- Cupola runs only while the main die does. -/
theorem mainRuns_of_cupolaRuns {s : State} (h : cupolaRuns s = true) : mainRuns s = true := by
  simp only [cupolaRuns, Bool.and_eq_true] at h; exact h.1
theorem cupolaRuns_of_firmwareRuns {s : State} (h : firmwareRuns s = true) : cupolaRuns s = true := by
  simp only [firmwareRuns, Bool.and_eq_true] at h; exact h.1

/-- A command that passes its checks and answers at once, as a step. -/
theorem onCmd_ok {h : CmdHead} {op : Nat} {f : List Nat → State → CmdOut} {ps : List Word} {s t : State} {x : Reply}
    (hr : cupolaRuns s = true) (hi : pathFree h.path s = true) (hc : headCheck h op s = none)
    (hf : f (ps.map BitVec.toNat) { s with cmds := s.cmds ++ [⟨h, headWord0 h op, op, ps.map BitVec.toNat, upNs s, none⟩] } = (t, some x))
    (ht : t.cmds = s.cmds ++ [⟨h, headWord0 h op, op, ps.map BitVec.toNat, upNs s, none⟩]) :
    onCmd h op f ps s
      = .next { t with cmds := s.cmds ++ [⟨h, headWord0 h op, op, ps.map BitVec.toNat, upNs s, some x⟩] } := by
  unfold onCmd; rw [onCupola_run hr, execOp_ok hi hc hf ht]

/-! ## Time -/

/-- Belfry cycles change the time, the pending slew and the status register. -/
theorem elapse_shape (n : Nat) (s : State) : ∃ r b, elapse n s = { s with
    regs := r, holdSeen := b
    time := ((s.time : Int) + ((n : Int) * cycleBase s + slewTaken n s)).toNat % timeModulus
    slew := s.slew - slewTaken n s } := ⟨_, _, rfl⟩

theorem regsWf_slewStatus {s : State} (h : RegsWf s) : RegsWf (slewStatus s) :=
  regsWf_fset (regsWf_fset h _ _ _) _ _ _

theorem regsWf_elapse {s : State} (h : RegsWf s) (n : Nat) : RegsWf (elapse n s) :=
  regsWf_slewStatus (s := { s with
    time := ((s.time : Int) + ((n : Int) * cycleBase s + slewTaken n s)).toNat % timeModulus, slew := s.slew - slewTaken n s }) h

/-- A time already reached changes nothing. -/
theorem runTo_past {target : Nat} {s : State} (h : target ≤ s.time) : runTo target s = s := by simp [runTo, h]

theorem runTo_shape (target : Nat) (s : State) : ∃ r b t k, runTo target s = { s with regs := r, holdSeen := b, time := t, slew := k } := by
  unfold runTo
  split
  · exact ⟨_, _, _, _, rfl⟩
  · obtain ⟨r, b, h⟩ := elapse_shape (cyclesTo target s) s
    exact ⟨r, b, _, _, h⟩

theorem regsWf_runTo {s : State} (h : RegsWf s) (target : Nat) : RegsWf (runTo target s) := by
  unfold runTo
  split
  · exact h
  · exact regsWf_elapse h _

/-! ## Buttress -/

theorem showBt_frame (s : State) : showBt s = { s with regs := (showBt s).regs } := rfl
theorem regsWf_showBt {s : State} (h : RegsWf s) : RegsWf (showBt s) := regsWf_fset (regsWf_fset h _ _ _) _ _ _

theorem btEvent_shape (code t : Nat) (s : State) : ∃ r l, btEvent code t s = { s with regs := r, lpddr := l } := by
  obtain ⟨r, h⟩ := logEvent_shape code blkCup (targetId t) (targetSlot t s) s
  exact ⟨r, _, h⟩

/-- Flagging a target changes the queue, CUP_SPARE and the log. -/
theorem flagTarget_shape (t cause : Nat) (s : State) : ∃ r l b, flagTarget t cause s = { s with regs := r, lpddr := l, bt := b } := by
  unfold flagTarget
  split
  · exact ⟨_, _, _, rfl⟩
  split
  · exact ⟨_, _, _, rfl⟩
  · obtain ⟨r, l, h⟩ := btEvent_shape 0x0401 t (showBt (updBt (fun b => { b with queue := b.queue ++ [(t, cause)] }) s))
    rw [h]
    exact ⟨r, l, _, rfl⟩

/-! ## The Spire's outputs -/

theorem validLow_shape (s : State) : ∃ r p, validLow s = { s with regs := r, spr := p } := ⟨_, _, rfl⟩

/-- The SPR region follows the Spire: only SPR_STATE and the time since VALID rose change. -/
theorem sprFollow_shape (s : State) : ∃ r p, sprFollow s = { s with regs := r, spr := p } := by
  unfold sprFollow
  simp only
  split
  · exact ⟨_, _, rfl⟩
  · exact ⟨_, _, rfl⟩

/-! ## Credits -/

theorem vcTxSet_frame (l v a o : Nat) (s : State) : vcTxSet l v a o s = { s with regs := (vcTxSet l v a o s).regs } := rfl
theorem vcRxSet_frame (l v f h r : Nat) (s : State) : vcRxSet l v f h r s = { s with regs := (vcRxSet l v f h r s).regs } := rfl
theorem tolSend_frame (l v n : Nat) (s : State) : tolSend l v n s = { s with regs := (tolSend l v n s).regs } := rfl
theorem linkUpd_frame (l : Nat) (f : TolLink → TolLink) (s : State) : linkUpd l f s = { s with links := (linkUpd l f s).links } := rfl

/-! ## The queue -/

/-- A step carries out the command at the front. -/
theorem step_front {s : State} {c : Instr} {r : List Instr} (h : s.pending = c :: r) : step s = exec c { s with pending := r } := by
  simp [step, h]

end Sys2Proof.Machine
end

