-- ==== Sys2Proof/Tests/Slice0.lean ====
section
/-! SUPPORT. Small tests: each check of WellFormed refuses an ill-formed command, and single commands give the figures of the
manual's own tables and worked examples. -/
namespace Sys2Proof.Tests

open Sys2Proof Sys2Proof.Machine

/-- A packet header on ring 0. -/
def head0 : CmdHead := ⟨.ring 0, false, 0, 0, 0⟩
/-- The state after a command. -/
def after (c : Instr) (s : State) : State := match exec c s with | .next t => t | _ => s
/-- A state at a linear count. -/
def atNs (n : Nat) (s : State) : State := { s with time := n * unitsPerNs }
/-- The status of the last reply. -/
def lastStatus (s : State) : Option Nat := s.cmds.getLast?.bind (fun c => c.reply.map Reply.status)
/-- The words of the last reply. -/
def lastWords (s : State) : Option (List Nat) := s.cmds.getLast?.bind (fun c => c.reply.map Reply.words)

/-! ## WellFormed -/

theorem test_wf_register_address : (Instr.registerWrite .host 0x03FFFFFC 0 none 0).wf = true
    ∧ (Instr.registerWrite .host 0x04000000 0 none 0).wf = false := by decide
theorem test_wf_cross_increment : (Instr.rcRead .host 0 false 0xFFFFFFFF).wf = true ∧ (Instr.rcRead .host 0 false 0x100000000).wf = false
    ∧ (Instr.rcRead .host 0x04000000 true 0).wf = false := by decide
theorem test_wf_access_size : (Instr.badSizeAccess .host 0 3 false 0 0).wf = true ∧ (Instr.badSizeAccess .host 0 0 false 0 0).wf = false := by decide
theorem test_wf_addresses : (Instr.unmappedAccess .host 0x04000000 true 0).wf = false ∧ (Instr.lowWordRead .host 0x04000000).wf = false
    ∧ (Instr.lowWordWrite .host 0x04000000 0).wf = false ∧ (Instr.highWordWrite .host 0x04000000 0).wf = false
    ∧ (Instr.broadcastWrite .host 0x04000000 0).wf = false ∧ (Instr.groupWrite .host 0x04000000 0).wf = false
    ∧ (Instr.poolConfigWrite .host 0x04000000 0).wf = false := by decide
theorem test_wf_bar : (Instr.barMemoryAccess false true 0x07FFFFFF 1 [255] .good).wf = true
    ∧ (Instr.barMemoryAccess false true 0x07FFFFFF 2 [255, 0] .good).wf = false
    ∧ (Instr.barMemoryAccess true true 0 1 [256] .good).wf = false ∧ (Instr.barMemoryAccess true true 0 2 [0] .good).wf = false := by decide
theorem test_wf_canaries : (Instr.rateUpdate (List.replicate 64 0)).wf = true ∧ (Instr.rateUpdate []).wf = false := by decide
theorem test_wf_ptp_frame : (Instr.ptpFrameRx 0 0 1 ⟨0, 0, 0, .other⟩ [0] []).wf = true
    ∧ (Instr.ptpFrameRx 0 0 0 ⟨0, 0, 0, .other⟩ [0] []).wf = false ∧ (Instr.ptpFrameRx 0 0 1 ⟨0, 0, 0, .other⟩ [] [256]).wf = false := by decide
theorem test_wf_pause : (Instr.pauseFrameRx 0 [7] 0xFFFF [255]).wf = true ∧ (Instr.pauseFrameRx 0 [7] 0x10000 []).wf = false
    ∧ (Instr.pauseFrameRx 0 [7] 0 [256]).wf = false := by decide
theorem test_wf_packet_bytes : (Instr.packetStart 0 0 (.eth 0 0 0 none) [256] []).wf = false
    ∧ (Instr.packetStart 0 0 (.eth 0 0 0 none) [] [256]).wf = false ∧ (Instr.consumerPacketDone 0 [256]).wf = false
    ∧ (Instr.packetEnd 0 [256] false).wf = false
    ∧ (Instr.packetTimeout 0 [256]).wf = false ∧ (Instr.linkLoss 0 [256]).wf = false ∧ (Instr.packetEnd 0 [255] false).wf = true := by decide
theorem test_wf_golden_values : (Instr.fuseEnd [0xFFFFFFFF]).wf = true ∧ (Instr.fuseEnd [0x100000000]).wf = false := by decide
theorem test_wf_item_unit : (Instr.itemStart 0 0 255 ⟨0, 0, 0, 0, 0, 0, 0, 0, 0, 0, 0⟩).wf = true
    ∧ (Instr.itemStart 0 0 256 ⟨0, 0, 0, 0, 0, 0, 0, 0, 0, 0, 0⟩).wf = false := by decide
theorem test_wf_request : (Instr.tagGrant ⟨.host, true, true, 0, 128, 0⟩).wf = true
    ∧ (Instr.tagGrant ⟨.host, true, true, 0, 129, 0⟩).wf = false ∧ (Instr.tagGrant ⟨.host, true, true, 0, 0, 0⟩).wf = false
    ∧ (Instr.tagGrant ⟨.host, true, true, 2 ^ 34, 1, 0⟩).wf = false := by decide
set_option maxRecDepth 20000 in
theorem test_wf_packets : (Instr.mctpMessage 0 (List.replicate 1025 0)).wf = false
    ∧ (Instr.tollisMgmtPacket 0 (List.replicate 1025 0)).wf = false ∧ (Instr.mctpMessage 0 []).wf = true := by decide
theorem test_wf_fetched_slot : (Instr.commandFetch 0 [] false).wf = true := by decide
theorem test_wf_fetched_slot_long (ps : List Word) (h : ps.length = 8193) : (Instr.commandFetch 0 ps false).wf = false := by
  simp [Instr.wf, h]
theorem test_wf_spire_inputs : (Instr.spireImuSample 0 [256]).wf = false ∧ (Instr.spireWheelFrame 0 (2 ^ 29) []).wf = false
    ∧ (Instr.spireWheelFrame 0 0 (List.replicate 9 0)).wf = false ∧ (Instr.spireWheelFrame 0 0 [256]).wf = false
    ∧ (Instr.spireWheelFrame 0 0 [255]).wf = true := by decide
theorem test_wf_release : (Instr.resetRelease [0x2FF]).wf = true ∧ (Instr.resetRelease [0x300]).wf = false := by decide
theorem test_wf_adverts : (Instr.linkRetrainDone 0 [1, 2, 3, 4]).wf = true ∧ (Instr.linkRetrainDone 0 [1, 2, 3]).wf = false := by decide
theorem test_wf_window_bytes : (Instr.rxwinWrite 0 4 0 [256]).wf = false ∧ (Instr.rxwinWrite 0 4 0 [255]).wf = true := by decide
theorem test_wf_sensors : (Instr.monitorTask (List.replicate 24 0) (List.replicate 16 0) (List.replicate 6 0)).wf = true
    ∧ (Instr.monitorTask [] (List.replicate 16 0) (List.replicate 6 0)).wf = false := by decide
theorem test_wf_spdm : (Instr.getCertificate 0 0x10000 0).wf = false ∧ (Instr.getCertificate 0 0 0x10000).wf = false
    ∧ (Instr.challenge 0 []).wf = false ∧ (Instr.challenge 0 (List.replicate 32 256)).wf = false
    ∧ (Instr.getMeasurements 0 true []).wf = false ∧ (Instr.challenge 0 (List.replicate 32 255)).wf = true := by decide
theorem test_wf_frame_number : (Instr.frameStart 0 0 0xFFFF 0).wf = true ∧ (Instr.frameStart 0 0 0x10000 0).wf = false := by decide
theorem test_wf_command_header : (Instr.timeGet ⟨.ring 0, false, 0xFFFF, 0xFFFF, 0xFFFF⟩ []).wf = true
    ∧ (Instr.timeGet ⟨.ring 0, false, 0x10000, 0, 0⟩ []).wf = false ∧ (Instr.timeGet ⟨.ring 0, false, 0, 0x10000, 0⟩ []).wf = false
    ∧ (Instr.timeGet ⟨.ring 0, false, 0, 0, 0x10000⟩ []).wf = false := by decide
theorem test_wf_command_length (ps : List Word) (h : ps.length = 4095) : (Instr.echo head0 ps).wf = false := by
  simp [Instr.wf, commandOk, h]

/-! ## Words and formats -/

set_option maxRecDepth 20000 in
/-- The check value of CRC-32C. -/
theorem test_crc32c : crc32c [0x31, 0x32, 0x33, 0x34, 0x35, 0x36, 0x37, 0x38, 0x39] = 0xE3069283 := by decide
/-- R179's example: 0b0101 in MXFP4 is 3.0; the dozer's activation 0x48 in E4M3 is 4.0. -/
theorem test_elements : elemVal 7 0b0101 = .num 3 ∧ elemVal 3 0x48 = .num 4 := by decide +kernel
/-- The planter's range scanner: 32 + 7,754 bytes round up to 7,808 (R77). -/
theorem test_packet_space : round32 (32 + 7754) = 7808 := by decide
/-- The planter's bad descriptor: unit 0x0209 is array 9, in partition ARRAY1 (R366). -/
theorem test_unit : unitFlat 0x0209 = some 57 ∧ flatUnit 57 = 0x0209 ∧ flatPart 57 = 4 := by decide
/-- R38's example: the low count at SEC 1,000. -/
theorem test_low_count : lin32 (atNs (10 ^ 12) State.reset) = 0xD4A51000 := by decide

/-! ## Commands -/

/-- The sprayer's trigger: written 409.75 ms late, it sets LATE_START and its next edge is m = 13 (R51). -/
theorem test_trig_late_start :
    let s := fset (fset (fset (atNs (10 ^ 12 + 410000000) State.reset) (BLF_TRIG_START 3) fWord 0xD4A8E090) (BLF_TRIG_PERIOD 3) fWord 33333333)
      (BLF_TRIG_PERIOD_FRAC 3) BLF_TRIG_PERIOD_FRAC_PERIOD_FRAC 0x5555
    let s := fset s (BLF_TRIG_WIDTH 3) BLF_TRIG_WIDTH_WIDTH 20000
    let t := after (.trigModeWrite .host 3 1) s
    fbit t (BLF_TRIG_STATUS 3) BLF_TRIG_STATUS_LATE_START = true
      ∧ (trigGet 3 t).next = some ((10 ^ 12 + 250000) * 65536 + 13 * (33333333 * 65536 + 0x5555)) := by decide
/-- The sprayer's interrupt: 1.09 s ahead it waits; 2.59 s ahead it is taken as past, and fires LATE (R48). -/
theorem test_compare_wrap :
    let s := fset (atNs (10 ^ 12 + 410000000) State.reset) (BLF_CMP_VAL 8) fWord 772620032
    let u := fset (atNs (10 ^ 12 + 410000000) State.reset) (BLF_CMP_VAL 8) fWord ((3977587328 + 2590000000) % 2 ^ 32)
    fbit (after (.cmpFire 8) (after (.cmpArm .host 8 1) s)) (BLF_CMP_STATUS 8) BLF_CMP_STATUS_LATE = false
      ∧ fbit (after (.cmpFire 8) (after (.cmpArm .host 8 1) u)) (BLF_CMP_STATUS 8) BLF_CMP_STATUS_LATE = true := by decide
/-- The sprayer starts: the run is ARMED, and no boundary may lie within 100 µs (R301). -/
theorem test_start :
    let t := after (.start head0 [1]) (atNs 999198601200 { State.reset with img := { State.reset.img with active := some ⟨0x0C000000, 4096, 0⟩ } })
    runState t = stArmed ∧ t.runStart = 999198701200 := by decide +kernel
/-- The boom cameras of the 48 m sprayer: group 2 reaches ING4 to ING11 and no other (R34). -/
theorem test_group_write :
    let t := after (.groupWrite .host 0x003E2010 0x12345678) (after (.registerWrite .host 0x003DF008 0x0FF0 none 0) State.reset)
    rd t (ING_GRP_MASK 2) = 0x0FF0 ∧ rd t 0x00300010 = rd State.reset 0x00300010 := by decide
/-- A write of an agent to a Completer-Abort size sets BAD_SIZE (R4). -/
theorem test_bad_size : rd (after (.badSizeAccess .host 0x00000003 4 true 0 0) State.reset) DEV_ACCESS_ERR = 1 := by decide
/-- ECHO returns its words (R298). -/
theorem test_echo : lastWords (after (.echo head0 [7, 8]) State.reset) = some [7, 8] := by decide
/-- An opcode of group 2 over MCTP is AUTH (R290). -/
theorem test_path : lastStatus (after (.regRead ⟨.mctp 9, false, 0, 0, 0⟩ [0, 1]) State.reset) = some stAuth := by decide
/-- The dozer's update: FW_ACTIVATE writes copy B with the next sequence, ACTIVE 1, TRIAL 1, CONFIRMED 0 (R424). -/
theorem test_fw_activate :
    (after (.fwActivate head0 [0]) { State.reset with cup := { State.reset.cup with committed := some 1 } }).cup.descB
      = some ⟨1, true, false, 0, 0, 1⟩ := by decide
/-- The pump example: with THERM_WARN set the target falls by 5 mV (R407). -/
theorem test_vcore_warn :
    (after .vcoreTask (fon State.reset CUP_STATUS CUP_STATUS_THERM_WARN)).cup.target = State.reset.cup.target - 5 := by decide
/-- The bench: LNT6 with STRETCH is 0x6EE6 (R443). -/
theorem test_lnt_select :
    let s := updSpr (fun p => { p with scopes := 15 }) (fset State.reset LNT_STATUS LNT_STATUS_SCOPE 15)
    rd (after (.lntSelect head0 [0x40, 0x6EE6]) s) (LNT_SEL 6) = 0x6EE6 := by decide
/-- An idle step lets one nanosecond pass (R39). -/
theorem test_idle : (match step State.reset with | .next t => lin t | _ => 0) = 1 := by decide
/-- A command at the front of the queue leaves the queue's rest. -/
theorem test_queue : (match step { State.reset with pending := [.xtsCapture .host 0, .coldReq .host] } with
    | .next t => t.pending | _ => []) = [.coldReq .host] := by decide
/-- No row of the table has bits. -/
theorem test_no_word : decodeTableWord 32 0 = none := rfl

end Sys2Proof.Tests
end

