-- ==== Sys2Proof/Tests/Witness.lean ====
section
/-! SUPPORT. States and operands that meet the hypotheses of the statements. -/
namespace Sys2Proof.Tests

open Sys2Proof Sys2Proof.Machine

/-- A plain packet header on a path. -/
def hd (p : Path) : CmdHead := ⟨p, false, 1, 0, 0⟩
/-- A state whose run state is RUNNING. -/
def inRun (s : State) : State := fset s DEV_RUN DEV_RUN_STATE stRunning
/-- A state with a PTP mode. -/
def inPtp (m : Nat) (s : State) : State := fset s BLF_CTRL BLF_CTRL_PTP_MODE m
/-- Compare n armed with IRQ_EN, a reload, and its vector unmasked. -/
def armed (n reload : Nat) (s : State) : State :=
  fset (wr (fset s (BLF_CMP_RELOAD n) fWord reload) (BLF_CMP_CTRL n) 3) (MSIX_CTRL n) MSIX_CTRL_MASK 0
/-- Generator n in PERIODIC mode. -/
def trigOn (n : Nat) (s : State) : State := fset s (BLF_TRIG_MODE n) BLF_TRIG_MODE_MODE 1
/-- Generator n with a pulse in progress and an edge due at 1 ns. -/
def trigDue (n : Nat) (s : State) : State := trigSet n ⟨0, some 65536, true, 0, false, 0⟩ (trigOn n s)
/-- Pin n captures both edges. -/
def capOn (n : Nat) (s : State) : State := fset s (BLF_CAP_CFG n) BLF_CAP_CFG_EDGE 3

/-- Port p enabled in HOST mode. -/
def hostPtp (p : Nat) (s : State) : State := fset (inPtp 2 s) (BLF_PORT_CFG p) BLF_PORT_CFG_EN 1
/-- A host frame with STAMP_REQ waits on port 2. -/
def txWaits (s : State) : State := { s with ptp := { s.ptp with txFrames := [⟨2, 9, true, []⟩] } }
/-- Port p is the slave port in INTERNAL mode. -/
def slaveOn (p : Nat) (s : State) : State := fset (inPtp 1 s) BLF_STATUS BLF_STATUS_SLAVE_PORT p
/-- Port p is a master in INTERNAL mode. -/
def masterOn (p : Nat) (s : State) : State :=
  fset (fset (inPtp 1 s) (BLF_PORT_CFG p) BLF_PORT_CFG_EN 1) (BLF_PORT_STATE p) BLF_PORT_STATE_STATE portMaster
/-- A packet in progress at the start of bank 0. -/
def onePacket : Packet := ⟨0, 0, false, false, false, false, 0, 0, 0, 0, 0, 0, 32, false, false, false, 0, []⟩
/-- CAN channel 24 enabled with its bank 0 filling. -/
def canOn (s : State) : State := chSet 24 { IngChan.reset with bank0 := .filling } (fon s (ING_CTRL 24) ING_CTRL_EN)
/-- The same with both banks full. -/
def canFull (s : State) : State :=
  chSet 24 { IngChan.reset with bank0 := .filling, bank1 := .ready, offset := 65536, packets := [{ onePacket with ended := true }] } (canOn s)
/-- The same with a packet in progress. -/
def canOpen (s : State) : State := chSet 24 { IngChan.reset with bank0 := .filling, packets := [onePacket] } (canOn s)
/-- The same with a packet the consumer has. -/
def canTaken (s : State) : State :=
  chSet 24 { IngChan.reset with bank0 := .filling, packets := [{ onePacket with taken := true, ended := true, used := true }] } (canOn s)
/-- The integrator in a mode, with one sample of specific force. -/
def inEgo (m : Nat) (s : State) : State := { s with ego := { EgoState.reset with mode := m, forceCount := 1 } }
/-- The integrator on its backup IMU. -/
def onBackup (s : State) : State := { s with ego := { EgoState.reset with mode := egoFull, onBackup := true } }
/-- The integrator with both sources at time 0 and a knot due at 0. -/
def egoPast (s : State) : State := { s with ego := { EgoState.reset with mode := egoFull, imuTime := some 0, wheelTime := some 0 } }
/-- Channel n aligned by its sensor's time. -/
def sensorOn (n : Nat) (s : State) : State := fon (fon s (SLC_CH_CFG n) SLC_CH_CFG_EN) (SLC_CH_CFG n) SLC_CH_CFG_TIME_SRC
/-- One open slice with ToV 1 ms. -/
def oneSlice (s : State) : State := { s with slices := [freshSlice 0 0 1000000 s] }
/-- Words that EGO_CONFIG accepts. -/
def egoConfigWords : List Word :=
  [0, 0x01F400C8, 0x00C800C8, 0x012C03E8, 1000, 0, 0x02040200, 0x000A0806, 0, 0, 0x210, 0x02040200, 0x000A0806, 0, 0, 0x210]
  ++ List.replicate 16 0
/-- Compare n armed and at its target. -/
def dueNow (n : Nat) (s : State) : State := fset (fset s (BLF_CMP_VAL n) fWord 0) (BLF_CMP_CTRL n) BLF_CMP_CTRL_ARM 1
/-- One closed slice with the stages of one mask begun and of another ended. -/
def inStages (begun ended : Nat) (s : State) : State :=
  { s with slices := [{ freshSlice 0 0 0 s with closed := true, begun := begun, finished := ended }] }
/-- One published slice that waits for its verdict. -/
def published (s : State) : State :=
  { s with slices := [{ freshSlice 0 0 0 s with closed := true, begun := 255, finished := 255, hdr := List.replicate 64 0 }] }
/-- The PCIe link is up. -/
def linkUp1 (s : State) : State := { s with pwr := { s.pwr with pcieUp := true } }
/-- An active work list. -/
def withList (s : State) : State := { s with img := { s.img with active := some ⟨0x04000000, 4096, 0⟩ } }
/-- One calibration update of sensor 23 in a phase. -/
def withCal (p : CalPhase) (s : State) : State :=
  { s with cal := { s.cal with updates := [⟨0, 0, 23, 0, [], p, vzero, vzero, 0⟩] } }
/-- A slice in its camera phase, on a list of one array item of that stage for unit 5. -/
def oneItem (s : State) : State :=
  { s with
    lpddr := [(0x04000020, 0x80), (0x04000040, 0x0C), (0x04000041, 5), (0x040000A0, 1), (0x040000A4, 64)]
    slices := [{ freshSlice 0 0 0 s with closed := true, begun := 11, finished := 2, strips := [⟨0, 0, 8⟩], list := some ⟨0x04000000, 4096, 0⟩ }] }
/-- A vector item in progress on vector core 0. -/
def running1 (s : State) : State :=
  { s with fab := { s.fab with items :=
    [⟨0, 0, [1], 80, 0, false, false, false, false, false, 0, ⟨0, 0, 0, 0, 0, 0, 0, 0, 0, 0, 0⟩⟩] } }
/-- A read of LPDDR5X by array 0. -/
def aRead : MemReq := ⟨.unit 48, true, false, 0x10000000, 64, 0⟩
/-- The tag of a write of four bytes by array 0. -/
def aWrite (ddr : Bool) : TagRec :=
  ⟨⟨.unit 48, ddr, true, if ddr then 0x10000000 else 0x10000, 4, 0⟩, [1, 2, 3, 4], false, false, false, none, 0⟩
/-- That tag alone in use. -/
def oneTag (ddr : Bool) (s : State) : State := { s with fab := { s.fab with tags := [aWrite ddr] } }
/-- All 128 tags of vector core 0's DMA in use. -/
def manyTags (s : State) : State := { s with fab := { s.fab with tags := List.replicate 128 { aWrite false with req := { aRead with from_ := .unit 80 } } } }
/-- A tag whose release is crossing. -/
def returningTag (s : State) : State := { s with fab := { s.fab with tags := [{ aWrite true with returning := some 0 }] } }
/-- Every array held in reset. -/
def noArrays (s : State) : State := { s with heldUnits := (List.range 32).map (· + 48) }
/-- A work-list image with an empty variant 0 at 0x0C000000. -/
def aList (s : State) : State :=
  { s with lpddr := [(0x0C000000, 0x44), (0x0C000001, 0x4C), (0x0C000002, 0x57), (0x0C000003, 0x4C), (0x0C000004, 1),
      (0x0C000006, 1), (0x0C00000A, 1), (0x0C000014, 16), (0x0C000020, 0x80)] }
/-- An attention item of an operation in progress, its descriptor at the start of the active list. -/
def anAttn (op : Nat) (s : State) : State :=
  { fon s ATN_CTRL ATN_CTRL_EN with
    lpddr := cellsSet emptyByte [] 0x0C000000 (BitVec.ofNat 8 op)
    img := { s.img with active := some ⟨0x0C000000, 4096, 0⟩ }
    fab := { s.fab with items := [⟨0, 0, [], flatAttention, 0, false, false, false, false, false, 0, ⟨0, 0, 0, 0, 0, 0, 0, 0, 0, 0, 0⟩⟩] } }
/-- General slot 4096 open with room for 16 tokens. -/
def openSeq (s : State) : State := { s with dome := [(hdrAddr 4096, 1), (hdrAddr 4096 + 20, 16)] }
/-- A migration of page 7 to page 9, before or after step 3. -/
def migrating (done : Bool) (s : State) : State := { s with attn := { s.attn with mig := some ⟨7, 9, 4096, true, done, 0⟩ } }
/-- A pool of two pages, page 0 ALLOC, with no reserve. -/
def onePage (s : State) : State :=
  { fset (fset s ATN_POOL_PAGES ATN_POOL_PAGES_PAGES 2) ATN_TRACK_CFG ATN_TRACK_CFG_MAX_TRACKS 0 with dome := [(ownerAddr 0 + 3, 16)] }
/-- A legal pool base and KV format. -/
def poolAt (s : State) : State :=
  fset (fset (wr64 s ATN_POOL_BASE_LO (2 ^ 34)) ATN_KVFMT ATN_KVFMT_H_KV 8) ATN_TRACK_CFG ATN_TRACK_CFG_MAX_TRACKS 0
/-- A legal CMD_CFG: 16 slots of 64 bytes in each queue, enabled. -/
def aRingWord : Word := 0x89
/-- Pair 3 enabled. -/
def ringOn (s : State) : State := wr s (CMD_CFG 3) aRingWord
/-- Pair 3 enabled with one packet waiting, the link up. -/
def fetchable (s : State) : State := linkUp1 (fset (ringOn s) (CMD_SQ_TAIL 3) CMD_SQ_TAIL_SQ_TAIL 1)
/-- An ECHO that has been answered. -/
def answered1 (p : Path) (s : State) : State := { s with cmds := [executed (hd p) 0x0104 [] State.reset (some ⟨stOk, []⟩)] }
/-- An endpoint's kept reply. -/
def kept (p : Path) (s : State) : State := { s with mgmt := { s.mgmt with replies := [⟨p, 1, 5, 0, [1]⟩] } }
/-- A solver model image of one state and one input, without rows, of 168 bytes at 0x0C000000. -/
def aModel (s : State) : State :=
  { s with lpddr :=
      [(0x0C000000, 49), (0x0C000001, 67), (0x0C000002, 80), (0x0C000003, 77), (0x0C000004, 1),
      (0x0C000008, 1), (0x0C000009, 1), (0x0C00000C, 2), (0x0C000010, 232), (0x0C000011, 3), (0x0C000014, 16),
      (0x0C000015, 16), (0x0C000018, 64), (0x0C00001C, 5), (0x0C000020, 144), (0x0C000041, 16),
      (0x0C000044, 144), (0x0C000050, 1), (0x0C000051, 16), (0x0C000054, 148), (0x0C000060, 3),
      (0x0C000061, 16), (0x0C000064, 152), (0x0C000070, 5), (0x0C000071, 16), (0x0C000074, 156),
      (0x0C000080, 11), (0x0C000081, 16), (0x0C000084, 160), (0x0C0000A4, 204), (0x0C0000A5, 103),
      (0x0C0000A6, 243), (0x0C0000A7, 194)] }
/-- Its CRC. -/
def aModelCrc : Nat := 0xc2f367cc
/-- A work-list image of 172 bytes at 0x0C000000, with its CRC. -/
def aShortList (s : State) : State :=
  { s with lpddr :=
      [(0x0C000000, 68), (0x0C000001, 76), (0x0C000002, 87), (0x0C000003, 76), (0x0C000004, 1),
      (0x0C000006, 1), (0x0C00000A, 1), (0x0C000014, 16), (0x0C000020, 128), (0x0C0000A8, 148),
      (0x0C0000A9, 19), (0x0C0000AA, 113), (0x0C0000AB, 139)] }
/-- The solver on, its active model the empty image at 0x0C000000. -/
def withModel (s : State) : State :=
  { fon s SLV_CTRL SLV_CTRL_EN with img := { s.img with slvActive := some (0x0C000000, 168) } }
/-- A solve in progress. -/
def oneSolve (seq : Nat) (test : Option Nat) (s : State) : State :=
  { s with slv := { s.slv with job := some ⟨seq, test, 0, 0, 0x0C000000, [], [], 0, 2, true, 0, 0, [], [], false, ⟨[], []⟩, [],
    false, false, false, false⟩ } }
/-- Words that SLV_CONFIG accepts: the reset values with EN. -/
def slvWords : List Word := [1, 700, 0x00043200, 0x35800000, 0x38800000, 0x35800000, 0x37800000, 0x33800000, 0]
/-- An active list with a footprint of 8,192 bytes. -/
def testList (s : State) : State := { withList s with lpddr := [(0x0400000D, 0x20)] }
/-- One message waits on the bridge for the Spire. -/
def fromMain (m : UpMsg) (s : State) : State := { s with bridgeUp := [m] }
/-- The Spire has had a tick at 0. -/
def ticked (s : State) : State := updSpr (fun p => { p with ticks := [(0, 0)], suspended := false }) s
/-- The Spire watches slice 3, with a mask of stages that have kicked. -/
def window (kicked : Nat) (s : State) : State := updSpr (fun p => { p with slices := [⟨3, 0, true, 1000000, kicked, 0, 0, false⟩] }) s
/-- VALID has been high since 0. -/
def validHeld (s : State) : State := updSpr (fun p => { p with validAt := some 0 }) s
/-- A proposal for sensor 17 waits on the bridge, and its slice 3 has been judged. -/
def proposed (s : State) : State :=
  updSpr (fun p => { p with verdicts := [⟨3, true, 0, 0⟩] }) (fromMain (.calStep 3 17 vzero vzero 0 9 (vzero, vzero, 0)) s)
/-- A header copy waits. -/
def oneCopy (s : State) : State := updSpr (fun p => { p with copies := [⟨List.replicate 64 0, [], [], [], none, 0⟩] }) s
/-- Words that pass SAFE_CONFIG's validation: one state and one input. -/
def sprWords : List Word := [0x53504346, 0x11] ++ List.replicate 384 0
/-- A configuration with a wheel of identifier 5 in entry 3. -/
def sprCfg (s : State) : State := updSpr (fun p => { p with config := [0x53504346, 0x11] ++ List.replicate 30 0 ++ [5, 0x10000] }) s
/-- A left and a right wheel whose speeds differ, and a yaw rate of 0. -/
def yawOff (s : State) : State := updSpr (fun p => { p with
  config := [0x53504346, 0x11, 0, 0, 0, 0, 0, 0x05DC0000] ++ List.replicate 18 0 ++ [1, 0x10000, 0x80000002, 0x10000]
  refs := { p.refs with wheels := [some (0, 0), some (0, 10), none, none], differs := true, bad := false, since := 0, yaw := 0, bias := 0 } }) s
/-- A recovery of unit 31, or of partition 0, or of the device, at a step. -/
def aRecovery (level : Nat) (step : RcvStep) : Recovery :=
  ⟨level, 3, 64, 0, 31, step, 0, 0, 0, false, 0, false, [], [], 0, 0, none, 0, 0, false, false, false, [], []⟩
/-- That recovery alone is in progress. -/
def inReset (level : Nat) (step : RcvStep) (s : State) : State := { s with rcv := [aRecovery level step] }
/-- A boot under way. -/
def bootAt (loaded : Bool) (s : State) : State :=
  { s with pwr := { s.pwr with booted := false }, cup := { s.cup with loaded := loaded } }
/-- A replay with two suspects. -/
def replayOf (s : State) : State :=
  { s with rcv := [{ aRecovery 3 .replay with replay := true, suspects := [(7, 0), (8, 0)] }] }
/-- One refused context, in the last entry. -/
def refused (c : Nat) (s : State) : State :=
  fon (fset s (RST_REFUSED 15) RST_REFUSED_CONTEXT c) (RST_REFUSED 15) RST_REFUSED_VALID
/-- Link 1 is UP, with credits of channel 4 in every state and a receive window of 8,192 bytes. -/
def linkUp (s : State) : State :=
  let s1 := fset (fset (vcRxSet 1 4 3 2 1 (vcTxSet 1 4 5 6 s)) (TOL_STATUS 1) TOL_STATUS_STATE 2) (TOL_RXWIN_BYTES 1) TOL_RXWIN_BYTES_BYTES 8192
  linkUpd 1 (fun t => { t with returning := [(4, 0)] }) s1
/-- A run of job 9 shared over link 1. -/
def jobbed (s : State) : State := fon (fset (inRun (linkUp s)) TOL_JOB TOL_JOB_JOB_ID 9) (TOL_CTRL 1) TOL_CTRL_JOB_EN
/-- Nominal voltages. -/
def niceVolts : List Nat := [750, 750, 750, 750, 750, 750, 850, 850, 1800, 1800, 500, 500, 500, 500, 1050, 1050]
/-- The link up with MCTP on, an agreement, and a chain in slot 1. -/
def spdmAt (k : Nat) (s : State) : State :=
  { linkUp1 (fon s CMD_MCTP CMD_MCTP_EN) with cup := { s.cup with spdm := k, cert := some [1, 2, 3] } }
/-- Scopes unlocked on both dies. -/
def scopesAt (k : Nat) (s : State) : State := updSpr (fun p => { p with scopes := k }) (fset s LNT_STATUS LNT_STATUS_SCOPE k)

/-! StepRunsTheFrontCommand -/
theorem wit_step_front : ({ State.reset with pending := [Instr.sliceClose] } : State).pending = [Instr.sliceClose] := rfl

/-! AnEmptyQueueLetsOneBelfryCyclePass -/
theorem wit_step_idle : State.reset.pending = [] ∧ mainRuns State.reset = true := by decide
theorem wit_step_idle_frozen : ({ State.reset with pwr := { State.reset.pwr with frozen := true } } : State).pending = []
    ∧ mainRuns { State.reset with pwr := { State.reset.pwr with frozen := true } } = false := by decide

/-! EveryStepKeepsTheInvariant -/
theorem wit_step_inv : Inv State.reset := ⟨⟨by decide, by decide, by decide, by decide⟩,
  ⟨by decide, by decide, by decide, by decide, by decide, by decide, by decide, by decide⟩⟩

/-! EveryCommandKeepsTheQueueAndDrawsFreshValues -/
theorem wit_queue : exec .alignEnd { State.reset with pwr := { State.reset.pwr with frozen := true } }
    = .next { State.reset with pwr := { State.reset.pwr with frozen := true } } := rfl

/-! NothingHappensOnAFrozenMainDie -/
theorem wit_frozen : ({ State.reset with pwr := { State.reset.pwr with frozen := true } } : State).pwr.frozen = true
    ∧ onMainDie .sliceBoundary = true := by decide

/-! PhaseAdjustmentStepsOrSlews -/
theorem wit_adjust_idle : agentUp .host { State.reset with heldLow := [(BLF_ADJ_LO, 5)] } = true
    ∧ cellsWf resetWord State.reset.regs = true ∧ ptpMode State.reset ≠ ptpInternal
    ∧ assocGet [(BLF_ADJ_LO, (5 : Word))] BLF_ADJ_LO = some 5 ∧ running State.reset = false := by decide
theorem wit_adjust_running : agentUp .jtag (inRun State.reset) = true ∧ RegsCanonical (inRun State.reset)
    ∧ ptpMode (inRun State.reset) ≠ ptpInternal ∧ running (inRun State.reset) = true := by decide

/-! RateWritesAreClampedAndRefusedInInternalMode -/
theorem wit_rate : assocGet [(BLF_RATE_LO, (0xFFFFFFFF : Word))] BLF_RATE_LO = some 0xFFFFFFFF
    ∧ (signed 64 (0xFFFFFFFF + 2 ^ 32 * 0x20)).natAbs > 140737488355 := by decide
theorem wit_rate_back : ((0 : Word).toNat + 2 ^ 32 * (0 : Word).toNat = rd64 (inPtp 1 State.reset) BLF_RATE_LO)
    ∧ ((1 : Word).toNat + 2 ^ 32 * (0 : Word).toNat ≠ rd64 (inPtp 1 State.reset) BLF_RATE_LO) := by decide
theorem wit_rate_internal : agentUp .cupola (inPtp 1 State.reset) = true ∧ RegsCanonical (inPtp 1 State.reset)
    ∧ ptpMode (inPtp 1 State.reset) = ptpInternal := by decide

/-! ComparesFireReloadAndArm -/
theorem wit_cmp_once : mainRuns (armed 9 0 State.reset) = true ∧ RegsCanonical (armed 9 0 State.reset)
    ∧ fbit (armed 9 0 State.reset) (BLF_CMP_CTRL 9) BLF_CMP_CTRL_ARM = true
    ∧ fget (armed 9 0 State.reset) (BLF_CMP_RELOAD 9) fWord = 0
    ∧ fbit (armed 9 0 State.reset) (BLF_CMP_CTRL 9) BLF_CMP_CTRL_IRQ_EN = true
    ∧ fbit (armed 9 0 State.reset) (MSIX_CTRL 9) MSIX_CTRL_MASK = false := by decide
theorem wit_cmp_reload : fbit (armed 15 7 State.reset) (BLF_CMP_CTRL 15) BLF_CMP_CTRL_ARM = true
    ∧ fget (armed 15 7 State.reset) (BLF_CMP_RELOAD 15) fWord ≠ 0 := by decide
theorem wit_cmp_ahead : cmpReached 9 (fset State.reset (BLF_CMP_VAL 9) fWord 1000) = false
    ∧ cmpLateAt 9 (fset State.reset (BLF_CMP_VAL 9) fWord 1000) = none := by decide
theorem wit_cmp_owned : agentUp .host State.reset = true ∧ (7 : Fin 16).val < 8 ∧ 8 ≤ (8 : Fin 16).val := by decide

/-! TriggerGeneratorsKeepTheirScheduleWhileOn -/
theorem wit_trig_on : agentUp .host (trigOn 3 State.reset) = true ∧ RegsCanonical (trigOn 3 State.reset)
    ∧ fget (trigOn 3 State.reset) (BLF_TRIG_MODE 3) BLF_TRIG_MODE_MODE = 1 ∧ getBits BLF_TRIG_MODE_MODE 2 = 2
    ∧ getBits BLF_TRIG_MODE_MODE 0 = 0 := by decide
theorem wit_trig_off : fget (fset State.reset (BLF_TRIG_WIDTH 0) BLF_TRIG_WIDTH_WIDTH 7) (BLF_TRIG_MODE 0) BLF_TRIG_MODE_MODE = 0
    ∧ fget (fset State.reset (BLF_TRIG_WIDTH 0) BLF_TRIG_WIDTH_WIDTH 7) (BLF_TRIG_WIDTH 0) BLF_TRIG_WIDTH_WIDTH < 8 := by decide

/-! TriggerEdgesPulsesCapturesAndSlewRun -/
theorem wit_trig_next : (trigGet 3 (trigDue 3 State.reset)).next = some 65536 ∧ mainRuns (trigDue 3 State.reset) = true
    ∧ (trigGet 3 (trigDue 3 State.reset)).active = true := by decide
theorem wit_cap : capJudge 31 false (time16 (capOn 31 State.reset) + 9) 100 (capOn 31 State.reset)
      = .stamped (time16 (capOn 31 State.reset) + 9)
    ∧ fbit (capOn 31 State.reset) (BLF_CAP_CFG 31) BLF_CAP_CFG_BIND_EN = false
    ∧ (capGet 31 (capOn 31 State.reset)).fifo.length < 16 ∧ ppsOn (capOn 31 State.reset) = false := by decide
theorem wit_cap_pop : (capGet 0 { State.reset with cap := ⟨[⟨77, true⟩], none⟩ :: State.reset.cap.drop 1 }).fifo = [⟨77, true⟩] := by decide
theorem wit_slew : fget State.reset BLF_STEP_LIMIT fWord * unitsPerNs ≥ 1
    ∧ fget State.reset BLF_CTRL BLF_CTRL_SLEW_PPM * unitsPerNs / 10 ^ 6 ≠ 0 := by decide

/-! PtpFramesAndStampsWaitInTheirQueues -/
theorem wit_ptp_host : mainRuns (hostPtp 7 State.reset) = true ∧ portEn 7 (hostPtp 7 State.reset) = true
    ∧ ptpMode (hostPtp 7 State.reset) = ptpHost ∧ (chGet 23 (hostPtp 7 State.reset)).packets = [] ∧ RegsCanonical (hostPtp 7 State.reset) := by decide
theorem wit_tx_stamp : takeOne (fun f => f.port == 2) (txWaits State.reset).ptp.txFrames = some (⟨2, 9, true, []⟩, [])
    ∧ (txWaits State.reset).ptp.txFrames.find? (fun f => f.port == 2) = some ⟨2, 9, true, []⟩
    ∧ pausedPrio 2 (framePrio ⟨2, 9, true, []⟩) (txWaits State.reset) = false
    ∧ (txWaits State.reset).ptp.txStamps.length < 32 := by decide
theorem wit_txq_pop : agentUp .host State.reset = true
    ∧ ({ State.reset.ptp with txStamps := [⟨1, 0, false, 5⟩] } : PtpState).txStamps = [⟨1, 0, false, 5⟩] := by decide

/-! HoldoverBeginsWhenTheMasterIsLost -/
theorem wit_slave : ptpMode (slaveOn 0 State.reset) = ptpInternal ∧ (slavePort (slaveOn 0 State.reset)).isSome = true ∧ freeMaster (slaveOn 0 State.reset) = false
    ∧ fbit (slaveOn 0 State.reset) BLF_STATUS BLF_STATUS_HOLDOVER = false ∧ mainRuns (slaveOn 0 State.reset) = true
    ∧ RegsCanonical (slaveOn 0 State.reset) := by decide
theorem wit_slave_heard : portEn 9 (setPortState 9 portSlave (masterOn 9 State.reset)) = true
    ∧ portState 9 (setPortState 9 portSlave (masterOn 9 State.reset)) = portSlave
    ∧ (slavePort (setPortState 9 portSlave (masterOn 9 State.reset))).isSome = true := by decide
theorem wit_host_mode : ptpMode (inPtp 2 State.reset) = ptpHost ∧ freeMaster (inPtp 2 State.reset) = false
    ∧ freeMaster (fset (inPtp 2 State.reset) BLF_CTRL BLF_CTRL_ROLE 2) = true ∧ RegsCanonical (inPtp 2 State.reset) := by decide
theorem wit_pps : ppsOn (fset (fset (inPtp 1 State.reset) BLF_CTRL BLF_CTRL_ROLE 2) BLF_CTRL BLF_CTRL_PPS_EN 1) = true := by decide

/-! MessageIntervalsAndPausesActPerPriority -/
theorem wit_master : ptpMode (masterOn 7 State.reset) = ptpInternal ∧ portEn 7 (masterOn 7 State.reset) = true
    ∧ fget (masterOn 7 State.reset) (BLF_PORT_STATE 7) BLF_PORT_STATE_STATE = portMaster
    ∧ fbit (masterOn 7 State.reset) (BLF_PORT_CFG 7) BLF_PORT_CFG_SYNC_2STEP = false
    ∧ pausedPrio 7 0 (masterOn 7 State.reset) = false ∧ (masterOn 7 State.reset).ing.length = 32 := by decide
theorem wit_paused : pausedPrio 0 0 (pauseRx 0 [0] 5 [] State.reset) = true ∧ (chGet 16 State.reset).heldPtp = []
    ∧ (chGet 16 State.reset).packets = [] := by decide
theorem wit_held_sync : (chGet 23 (originate 7 ⟨.sync, 0, 0⟩ (pauseRx 7 [0] 5 [] State.reset))).heldPtp = [⟨.sync, 0, 0⟩] := by decide

/-! TimeOpcodesReportTheTimeBase -/
theorem wit_ready_time : cupolaRuns State.reset = true ∧ pathFree (.ring 0) State.reset = true
    ∧ headCheck (hd (.ring 0)) 0x0301 State.reset = none ∧ headCheck (hd (.ring 3)) 0x0307 State.reset = none
    ∧ headCheck (hd (.ring 1)) 0x0311 State.reset = none ∧ headCheck (hd (.ring 1)) 0x030B State.reset = none := by decide

/-! TimeSetAndAdjustFollowTheRunState -/
theorem wit_ready_set : headCheck (hd (.ring 0)) 0x0302 State.reset = none ∧ headCheck (hd (.ring 2)) 0x0303 (inRun State.reset) = none
    ∧ headCheck (hd (.ring 2)) 0x0304 (inPtp 1 State.reset) = none ∧ running (inRun State.reset) = true
    ∧ cupolaRuns (inRun State.reset) = true ∧ RegsCanonical (inRun State.reset)
    ∧ 10 ^ 9 ≤ (1000000000 : Word).toNat ∧ (999999999 : Word).toNat < 10 ^ 9 := by decide

/-! TimeConfigurationOpcodesStoreTheirImages -/
theorem wit_time_config : headCheck (hd (.ring 0)) 0x030A State.reset = none ∧ headCheck (hd (.ring 0)) 0x0309 State.reset = none
    ∧ headCheck (hd (.ring 0)) 0x0306 State.reset = none ∧ headCheck (hd (.ring 0)) 0x0305 State.reset = none
    ∧ headCheck (hd (.ring 0)) 0x0308 State.reset = none ∧ headCheck (hd (.ring 0)) 0x0310 State.reset = none := by decide
theorem wit_ptp_config : getBits BLF_CTRL_SLEW_PPM (0x64000 : Word) ≤ 100 ∧ 1 ≤ getBits BLF_CTRL_SLEW_PPM (0x64000 : Word)
    ∧ getBits BLF_LOCK_COUNT (0x100032 : Word) ≠ 0 ∧ intervalsOk 0x00F900F9 = true
    ∧ ctrlFrozen 0x64000 State.reset = false ∧ fget State.reset (BLF_TRIG_MODE 15) BLF_TRIG_MODE_MODE = 0
    ∧ trigImageBad 15 [0x100, 5, 0xFFFF, 2000, 1, 8, 999999] = false := by decide

/-! IngressPacketsArePlacedAndDroppedWhole -/
theorem wit_can_start : fbit (canOn State.reset) (ING_CTRL 24) ING_CTRL_EN = true ∧ unitHeld 24 (canOn State.reset) = false
    ∧ inProgress (chGet 24 (canOn State.reset)) = false ∧ (chGet 24 (canOn State.reset)).passage = none
    ∧ fbit (canOn State.reset) (ING_CTRL 24) ING_CTRL_FLUSH = false ∧ canAccepts 24 5 false false (canOn State.reset) = true
    ∧ bankGet (chGet 24 (canOn State.reset)).fill (chGet 24 (canOn State.reset)) = .filling
    ∧ startOffset (chGet 24 (canOn State.reset)) + knownNeed 64 ≤ bankBytes
    ∧ consumerTakes 24 (canOn State.reset) = false ∧ (∀ q ∈ (chGet 24 (canOn State.reset)).packets, q.taken = q.used) := by decide
theorem wit_can_full : place (knownNeed 64) (chGet 24 (canFull State.reset)) = .full
    ∧ bankGet (chGet 24 (canFull State.reset)).fill (chGet 24 (canFull State.reset)) = .filling
    ∧ consumerTakes 24 (canFull State.reset) = false ∧ (∀ q ∈ (chGet 24 (canFull State.reset)).packets, q.taken = q.used) := by decide
theorem wit_can_end : (chGet 24 (canOpen State.reset)).packets.getLast? = some onePacket ∧ onePacket.ended = false
    ∧ consumerTakes 24 (canOpen State.reset) = false ∧ (∀ q ∈ (chGet 24 (canOpen State.reset)).packets, q.taken = q.used)
    ∧ fbit (canOpen State.reset) (ING_CTRL 24) ING_CTRL_FLUSH = false := by decide

/-! ConsumersFlushesAndBanksGiveSpaceBack -/
theorem wit_consumer : (chGet 24 (canTaken State.reset)).packets = [{ onePacket with taken := true, ended := true, used := true }]
    ∧ inProgress (chGet 24 (canTaken State.reset)) = false := by decide
theorem wit_flush : fbit (fon State.reset (ING_CTRL 31) ING_CTRL_FLUSH) (ING_CTRL 31) ING_CTRL_FLUSH = true
    ∧ (chGet 31 State.reset).flushed = false ∧ inProgress (chGet 31 State.reset) = false
    ∧ consumerOn (chGet 31 State.reset) = none := by decide
theorem wit_stop : bankGet 0 (chGet 24 (chSet 24 { IngChan.reset with bank0 := .filling } State.reset)) = .filling
    ∧ bankHolds 0 (chGet 24 (chSet 24 { IngChan.reset with bank0 := .filling } State.reset)) = false
    ∧ fbit State.reset (ING_CTRL 24) ING_CTRL_EN = false := by decide
theorem wit_passage : (chGet 0 (chSet 0 { IngChan.reset with bank1 := .inFlight, passage := some (1, .ready) } State.reset)).passage
    = some (1, .ready) := by decide

/-! LinksEncodersAndReadsFeedTheirChannels -/
theorem wit_link : (n : Fin 32) → n = 27 → n.val < 28 ∧ inProgress (chGet 27 State.reset) = false ∧ slavePort State.reset = none
    ∧ consumerTakes 27 State.reset = false ∧ (∀ q ∈ (chGet 27 State.reset).packets, q.taken = q.used) := by decide
theorem wit_encoder : bitOf 7 (fget (fset State.reset (ING_ENC_CFG 1) ING_ENC_CFG_EN 0x80) (ING_ENC_CFG 1) ING_ENC_CFG_EN) = true
    ∧ (chGet 31 State.reset).inputs.length = 8 ∧ capFilter 1 ≤ 4 ∧ unitHeld 31 State.reset = false := by decide
theorem wit_spi : fbit (fon (fon State.reset (ING_CTRL 28) ING_CTRL_EN) (ING_SPI_CFG 0) ING_SPI_CFG_PERIODIC) (ING_CTRL 28) ING_CTRL_EN = true
    ∧ fbit (fon (fon State.reset (ING_CTRL 28) ING_CTRL_EN) (ING_SPI_CFG 0) ING_SPI_CFG_PERIODIC) (ING_SPI_CFG 0) ING_SPI_CFG_PERIODIC = true
    ∧ fbit (fon State.reset (ING_CTRL 30) ING_CTRL_EN) (ING_CTRL 30) ING_CTRL_EN = true ∧ consumerTakes 30 State.reset = false
    ∧ (chGet 29 State.reset).packets = [] ∧ consumerTakes 29 State.reset = false := by decide
theorem wit_frame_start : fbit (fon State.reset (ING_CTRL 15) ING_CTRL_EN) (ING_CTRL (15 : Fin 16)) ING_CTRL_EN = true
    ∧ unitHeld (15 : Fin 16) State.reset = false ∧ (chGet 15 State.reset).frameNo.length = 4
    ∧ (chGet 15 State.reset).frameStamp.length = 4 := by decide
theorem wit_pfc : pfcOn 16 (fset (fon State.reset (ING_CTRL 16) ING_CTRL_PFC_EN) (ING_STATUS 16) ING_STATUS_XOFF 1) = true
    ∧ fbit (fset (fon State.reset (ING_CTRL 16) ING_CTRL_PFC_EN) (ING_STATUS 16) ING_STATUS_XOFF 1) (ING_STATUS 16) ING_STATUS_XOFF = true := by decide

/-! IngressOpcodesConfigureAndReportChannels -/
theorem wit_ing_ops : partFenced partIngress State.reset = false ∧ headCheck (hd (.ring 0)) 0x0407 State.reset = none
    ∧ headCheck (hd (.ring 0)) 0x0401 State.reset = none ∧ headCheck (hd (.ring 0)) 0x0402 State.reset = none
    ∧ headCheck (hd (.ring 0)) 0x0403 State.reset = none ∧ headCheck (hd (.ring 0)) 0x0404 State.reset = none
    ∧ headCheck (hd (.ring 0)) 0x0405 State.reset = none ∧ State.reset.heldUnits = [] := by decide
theorem wit_ing_config : cutOk 64 = true ∧ wmOk 0x10000000 = true ∧ reservedSet (ING_WM 31) 0x10000000 = false
    ∧ maxframeOk 65504 = true ∧ reservedSet (ING_MAXFRAME 31) 65504 = false ∧ reservedSet (ING_PFC 31) 0xFFFF00FF = false
    ∧ 1 ≤ getBits ING_PFC_QUANTA 0xFFFF00FF ∧ fbit State.reset (ING_CTRL 31) ING_CTRL_EN = false := by decide
theorem wit_ing_source : sourceLive 16 0 = false ∧ sourceRefused 16 0 1 = false := by decide
theorem wit_ing_fenced : partFenced partIngress (fset State.reset RST_FENCE RST_FENCE_PARTITIONS 1) = true
    ∧ headCheck (hd (.ring 0)) 0x0406 (fset State.reset RST_FENCE RST_FENCE_PARTITIONS 1) = none := by decide

/-! EgoMotionModesFollowTheirSources -/
theorem wit_ego : mainRuns (inEgo egoInit State.reset) = true ∧ unitHeld flatEgo (inEgo egoInit State.reset) = false
    ∧ (inEgo egoInit State.reset).ego.mode = egoInit ∧ (inEgo egoInit State.reset).ego.forceCount ≠ 0 := by decide
theorem wit_ego_sources : (inEgo egoWheelOnly State.reset).ego.mode = egoWheelOnly ∧ (inEgo egoFull State.reset).ego.mode = egoFull
    ∧ fbit (fon (inEgo egoFull State.reset) SLC_EGO_CFG SLC_EGO_CFG_IMU_BACKUP) SLC_EGO_CFG SLC_EGO_CFG_IMU_BACKUP = true
    ∧ (inEgo egoFull State.reset).ego.onBackup = false ∧ (inEgo egoLost State.reset).ego.mode = egoLost
    ∧ fbit (fset (inEgo egoFull State.reset) SLC_EGO_CFG SLC_EGO_CFG_IMU_BACKUP 0) SLC_EGO_CFG SLC_EGO_CFG_IMU_BACKUP = false
    ∧ fbit (fon (inEgo egoFull State.reset) SLC_EGO_CFG SLC_EGO_CFG_ZUPT_EN) SLC_EGO_CFG SLC_EGO_CFG_ZUPT_EN = true
    ∧ (onBackup State.reset).ego.onBackup = true ∧ mainRuns (onBackup State.reset) = true := by decide

/-! KnotsSensorClocksAndSilenceRunOnTime -/
theorem wit_knot : knotsOn (inEgo egoLost State.reset) = true ∧ knotsOn (egoPast State.reset) = true
    ∧ sourcesPast (egoPast State.reset).ego.nextKnot (egoPast State.reset) = true ∧ (egoPast State.reset).ego.mode ≠ egoLost := by decide
theorem wit_window : fget State.reset SLC_SYNC SLC_SYNC_WIN ≠ 0 ∧ State.reset.aln.length = 32 := by decide
theorem wit_window_channel : chanEn 17 (sensorOn 17 State.reset) = true ∧ sensorTimed 17 (sensorOn 17 State.reset) = true
    ∧ (signed 32 (fget (fset (sensorOn 17 State.reset) (SLC_CH_OFFSET_EST 17) fWord 2000000) (SLC_CH_OFFSET_EST 17) fWord)).natAbs
      > syncTheta 17 (sensorOn 17 State.reset) := by decide
theorem wit_silent : consuming (oneSlice (sensorOn 31 State.reset)) = true ∧ chanEn 31 (oneSlice (sensorOn 31 State.reset)) = true
    ∧ (alnGet 31 (oneSlice (sensorOn 31 State.reset))).silent = false ∧ (alnGet 31 (oneSlice (sensorOn 31 State.reset))).unsync = false := by decide

/-! AlignmentOpcodesConfigureOutsideARun -/
theorem wit_slc_ready : headCheck (hd (.ring 0)) 0x0420 State.reset = none ∧ headCheck (hd (.ring 0)) 0x0421 State.reset = none
    ∧ headCheck (hd (.ring 0)) 0x0422 State.reset = none ∧ headCheck (hd (.ring 0)) 0x0423 State.reset = none
    ∧ headCheck (hd (.ring 0)) 0x0424 State.reset = none ∧ headCheck (hd (.ring 0)) 0x0425 State.reset = none
    ∧ headCheck (hd (.ring 0)) 0x0426 State.reset = none ∧ partFenced partFusion State.reset = false
    ∧ headCheck (hd (.ring 0)) 0x0422 (inRun State.reset) = none ∧ headCheck (hd (.ring 0)) 0x0426 (inRun State.reset) = none := by decide
theorem wit_slc_channel : slcCfgOk 31 5 = true ∧ framePeriodOk 1000 = true ∧ strideOk 0x00100000 = true
    ∧ slcPointsOk 0x00100000 0x0C080400 0x00010000 = true ∧ slcFmtOk 5 0x00010000 = true
    ∧ fbit State.reset (ING_CTRL 31) ING_CTRL_EN = false
    ∧ (∀ p ∈ [(SLC_CH_CFG 31, 5), (SLC_CH_NOMLAT 31, 0), (SLC_CH_FRAME_PERIOD 31, 1000), (SLC_CH_POINT 31, 0x00100000),
      (SLC_CH_OFFS 31, 0x0C080400), (SLC_CH_FMT 31, 0x00010000), (SLC_CH_HDR_T_OFF 31, 0)], reservedSet p.1 p.2 = false) := by decide
theorem wit_slc_limits : slcGlobalOk 0 40 = true ∧ slcGlobalOk 4 1000 = true ∧ slcGlobalOk 8 0x00010001 = true
    ∧ (∀ p ∈ [(SLC_CLOSE, 40), (SLC_LATE_LIMIT, 1000), (SLC_SYNC, 0x00010001), (SLC_VOBJ, 0)], reservedSet p.1 p.2 = false) := by decide
theorem wit_ego_config : egoConfigWords.length = 32 ∧ (∀ i < 32, reservedSet (nth egoAddrs i 0) (param egoConfigWords i) = false)
    ∧ egoOk 0x04 (param egoConfigWords 1) State.reset = true ∧ egoOk 0x08 (param egoConfigWords 2) State.reset = true
    ∧ egoOk 0x0C (param egoConfigWords 3) State.reset = true ∧ egoImuOk (egoConfigWords.map BitVec.toNat) State.reset = true := by decide
theorem wit_ego_get : (0xFFFFFFFF : Word).toNat + 2 ^ 32 * (0xFFFFFFFF : Word).toNat = 2 ^ 64 - 1
    ∧ ([Knot.mk 125000 Pose.still].getLast?.getD (Knot.mk 125000 Pose.still)).t ≤ (Knot.mk 125000 Pose.still).t := by decide
theorem wit_slc_fenced : partFenced partFusion (fset State.reset RST_FENCE RST_FENCE_PARTITIONS 2) = true
    ∧ headCheck (hd (.ring 0)) 0x0423 (fset State.reset RST_FENCE RST_FENCE_PARTITIONS 2) = none := by decide
theorem wit_ego_reset : fbit (fon State.reset SLC_EGO_CFG SLC_EGO_CFG_EN) SLC_EGO_CFG SLC_EGO_CFG_EN = true
    ∧ running (fon State.reset SLC_EGO_CFG SLC_EGO_CFG_EN) = false := by decide

/-! SlicesOpenCloseAndTheHandshakeRateIsMeasured -/
theorem wit_boundary : fbit (dueNow 0 (inRun State.reset)) (BLF_CMP_CTRL 0) BLF_CMP_CTRL_ARM = true
    ∧ cmpReached 0 (dueNow 0 (inRun State.reset)) = true ∧ cmpLateAt 0 (dueNow 0 (inRun State.reset)) = none ∧ runState (dueNow 0 (inRun State.reset)) = stRunning
    ∧ fbit (dueNow 0 (inRun State.reset)) DEV_RUN DEV_RUN_HALF_PENDING = false ∧ mainRuns (dueNow 0 (inRun State.reset)) = true := by decide
theorem wit_close : fbit (dueNow 2 State.reset) (BLF_CMP_CTRL 2) BLF_CMP_CTRL_ARM = true ∧ cmpReached 2 (dueNow 2 State.reset) = true
    ∧ cmpLateAt 2 (dueNow 2 State.reset) = none
    ∧ (freshSlice 0 0 0 State.reset).closed = false ∧ (freshSlice 0 0 0 State.reset).tov ≤ lin (dueNow 2 State.reset) := by decide
theorem wit_rates : (List.replicate 64 8000).length = 64 := by decide

/-! StagesBeginOnTheOldestReadySlice -/
theorem wit_stage_begin : mayGoOn (inStages 3 2 State.reset) = true ∧ unitsUp [flatVhe, flatCamera, flatProjection] (inStages 3 2 State.reset) = true
    ∧ (stageDue sgVoxel (hasEnded sgAlign) (inStages 3 2 State.reset)).isSome = true
    ∧ (stageDue sgCamera (hasBegun sgAlign) (inStages 3 2 State.reset)).isSome = true
    ∧ (stageDue sgFuse (fun r => hasEnded sgVoxel r && hasEnded sgCamera r) (inStages 15 14 State.reset)).isSome = true
    ∧ fbit (inStages 3 2 State.reset) VHE_STATUS VHE_STATUS_CLEARING = false ∧ mainRuns (inStages 3 2 State.reset) = true := by decide
theorem wit_insert : ((inStages 7 2 State.reset).slices.find? (stageOn sgVoxel)).isSome = true
    ∧ unitsUp [flatVhe] (inStages 7 2 State.reset) = true := by decide

/-! StagesEndWithAKickAndTheirSection -/
theorem wit_stage_end : (stageEnding sgAlign (inStages 3 0 State.reset)).isSome = true
    ∧ (stageEnding sgVoxel (inStages 7 2 State.reset)).isSome = true ∧ (stageEnding sgCamera (inStages 11 2 State.reset)).isSome = true
    ∧ (stageEnding sgFuse (inStages 31 14 State.reset)).isSome = true ∧ (inStages 3 0 State.reset).stopAbandon = false
    ∧ (∀ r ∈ (inStages 3 0 State.reset).slices, r.closed = true ∧ r.golden = false)
    ∧ (inStages 7 2 State.reset).vhe.todo = [] ∧ unitsUp [flatAligner, flatEgo, flatDeskew] (inStages 3 0 State.reset) = true := by decide

/-! RecordsArePublishedAndCompleted -/
theorem wit_publish : (stageEnding sgPublish (inStages 255 126 State.reset)).isSome = true
    ∧ unitsUp [flatPublisher] (inStages 255 126 State.reset) = true
    ∧ (∀ r ∈ (inStages 255 126 State.reset).slices, r.chans.length = 32) := by decide
theorem wit_verdict : ((published State.reset).slices.find? awaits).isSome = true ∧ lin (published State.reset) ≤ 1000000 := by decide
theorem wit_take_verdict : takeDown (fun m => match m with | .verdict .. => true | _ => false)
      { published State.reset with bridgeDown := [.verdict 0 1 0] } = (some (.verdict 0 1 0), { published State.reset with bridgeDown := [] }) := rfl

/-! TheMirrorCopiesRecordsInOrder -/
theorem wit_mirror_start : ({ State.reset.mirror with queue := [7] } : MirrorState).queue = 7 :: []
    ∧ State.reset.mirror.copying = none ∧ State.reset.mirror.unreleased < fget State.reset CMD_MIR_CFG CMD_MIR_CFG_MIR_SLOTS
    ∧ (linkUp1 State.reset).pwr.pcieUp = true ∧ fget State.reset CMD_MIR_CFG CMD_MIR_CFG_MIR_SLOTS = 8 := by decide
theorem wit_mirror_head : getBits CMD_MIR_IDX_HEAD_HEAD 1 = (fget State.reset CMD_MIR_IDX_HEAD CMD_MIR_IDX_HEAD_HEAD + 1) % 8
    ∧ agentUp .cupola State.reset = true := by decide

/-! RunControlOpcodesDriveTheRunState -/
theorem wit_run_ops : headCheck (hd (.ring 0)) 0x0601 (withList State.reset) = none ∧ headCheck (hd (.ring 0)) 0x0602 State.reset = none
    ∧ headCheck (hd (.ring 0)) 0x0603 State.reset = none ∧ runState (withList State.reset) = stIdle
    ∧ (withList State.reset).img.active.isSome = true ∧ fbit (withList State.reset) CMD_RES_CTRL CMD_RES_CTRL_VALID = true
    ∧ headCheck (hd (.ring 0)) 0x0602 (inRun State.reset) = none ∧ headCheck (hd (.ring 0)) 0x0601 (inRun State.reset) = none
    ∧ headCheck (hd (.ring 0)) 0x0603 (inRun State.reset) = none ∧ running (inRun State.reset) = true
    ∧ opWaiting 0x0602 (inRun State.reset) = false ∧ (inRun State.reset).slices = []
    ∧ headCheck (hd (.ring 0)) 0x0602 (inStages 1 0 (inRun State.reset)) = none ∧ (inStages 1 0 (inRun State.reset)).slices ≠ []
    ∧ fbit (inRun State.reset) DEV_RUN DEV_RUN_HALF_PENDING = false := by decide

/-! FramesMeshesAndTheClearOfTheVheComplete -/
theorem wit_lane : State.reset.lanes.length = 16 ∧ (laneGet 15 State.reset).bufs.length = 3
    ∧ (laneGet 15 (laneSet 15 { Lane.reset with cur := some 2, meshing := true } State.reset)).cur = some 2
    ∧ (laneGet 15 (laneSet 15 { Lane.reset with cur := some 2, meshing := true } State.reset)).meshing = true
    ∧ fbit (fon State.reset (CAM_CFG 15) CAM_CFG_EN) (CAM_CFG (15 : Fin 16)) CAM_CFG_EN = true
    ∧ unitHeld flatVhe State.reset = false ∧ alignerTakes (oneSlice State.reset) = true
    ∧ featured (bufGet 2 (bufSet 2 { FrameBuf.reset with st := .features } Lane.reset)) = true := by decide

/-! CalibrationStepsAreProposedAnsweredOrSkipped -/
theorem wit_cal_solve : (withCal .residuals State.reset).cal.updates.find? (fun v => v.phase == .residuals && solveReturned v.seq (withCal .residuals State.reset))
      = some ⟨0, 0, 23, 0, [], .residuals, vzero, vzero, 0⟩ ∧ lin (withCal .residuals State.reset) ≤ 880000
    ∧ pipeHeld (withCal .residuals State.reset) = false ∧ unitFenced flatFactor (withCal .residuals State.reset) = false
    ∧ unitHeld flatFactor (withCal .residuals State.reset) = false
    ∧ 0 + 880000 < lin { withCal .residuals State.reset with time := 2 ^ 69 } ∧ calRunning (withCal .residuals State.reset) = none
    ∧ calRunning (withCal .solving State.reset) = some ⟨0, 0, 23, 0, [], .solving, vzero, vzero, 0⟩ := by decide
theorem wit_cal_reply : (withCal .sent State.reset).cal.updates.find? (fun v => v.seq == 0 && v.sensor == 23 && v.phase == .sent)
      = some ⟨0, 0, 23, 0, [], .sent, vzero, vzero, 0⟩
    ∧ (withCal .sent State.reset).cal.updates.find? (fun v => v.phase == .proposed || v.phase == .sent)
      = some ⟨0, 0, 23, 0, [], .sent, vzero, vzero, 0⟩ := by decide

/-! ItemsStartCompleteAndRunOver -/
theorem wit_item_start : mainRuns (oneItem State.reset) = true ∧ (inStage 3 (oneItem State.reset)).isSome = true ∧ (∀ r ∈ (oneItem State.reset).slices, r.strips ≠ [])
    ∧ wlCount ⟨0x04000000, 4096, 0⟩ 0 (oneItem State.reset) = 1
    ∧ itStage (wlItem ⟨0x04000000, 4096, 0⟩ 0 0 (oneItem State.reset)) = 3
    ∧ unitFits (wlItem ⟨0x04000000, 4096, 0⟩ 0 0 (oneItem State.reset)) 5 = true
    ∧ waitMet (wlItem ⟨0x04000000, 4096, 0⟩ 0 0 (oneItem State.reset)) (oneItem State.reset) = true
    ∧ contextRefused (itContext (wlItem ⟨0x04000000, 4096, 0⟩ 0 0 (oneItem State.reset))) (oneItem State.reset) = false
    ∧ unitRefuses (itemFlat (itUnit (wlItem ⟨0x04000000, 4096, 0⟩ 0 0 (oneItem State.reset))) 5) (oneItem State.reset) = false
    ∧ fbit (oneItem State.reset) ATN_STATUS ATN_STATUS_REBUILDING = false := by decide
theorem wit_item_refused : unitRefuses 48 (noArrays State.reset) = true
    ∧ classHasUnit unitArray (noArrays State.reset) = false := by decide
theorem wit_item_runs : (running1 State.reset).fab.items.find? (fun i => i.unit == 80 && !i.overrun && !i.waits)
      = some ⟨0, 0, [1], 80, 0, false, false, false, false, false, 0, ⟨0, 0, 0, 0, 0, 0, 0, 0, 0, 0, 0⟩⟩ ∧ itemOn 80 (running1 State.reset) = (running1 State.reset).fab.items.head? := by decide

/-! TagsAreGrantedUsedAndReturned -/
theorem wit_tag_grant : reqOk aRead = true ∧ mayAsk aRead State.reset = true ∧ tagFree aRead State.reset = true := by decide
set_option maxRecDepth 4000 in
theorem wit_tag_full : tagFree { aRead with from_ := .unit 80 } (manyTags State.reset) = false := by decide
theorem wit_tag_write : (oneTag false State.reset).fab.tags[0]? = some (aWrite false) ∧ mayComplete 0 (aWrite false) (oneTag false State.reset) = true
    ∧ mayComplete 0 (aWrite true) (oneTag true State.reset) = true ∧ (aWrite true).data ≠ []
    ∧ ieccTop (aWrite true).req.addr State.reset = false ∧ inImage (aWrite true).req.addr 4 State.reset = false := by decide
theorem wit_tag_return : (returningTag State.reset).fab.tags.findIdx? (fun g => g.returning.isSome) = some 0
    ∧ ({ State.reset.fab with rewrites := [8064] } : FabricState).rewrites.find? (fun a => domeBank a == (63 : Fin 64).val) = some 8064 := by decide

/-! ImagesAreLoadedActivatedAndUnloaded -/
theorem wit_images_ready : headCheck (hd (.ring 0)) 0x0501 State.reset = none ∧ headCheck (hd (.ring 0)) 0x0502 State.reset = none
    ∧ headCheck (hd (.ring 0)) 0x0503 State.reset = none ∧ headCheck (hd (.ring 0)) 0x0504 State.reset = none
    ∧ headCheck (hd (.ring 0)) 0x0505 State.reset = none ∧ headCheck (hd (.ring 0)) 0x0506 State.reset = none
    ∧ State.reset.img.models.length = 8 ∧ State.reset.img.standby = none ∧ State.reset.img.pending = false := by decide
set_option maxRecDepth 8000 in
theorem wit_model_load : placeBad 0x0C000000 4 State.reset = false ∧ nth State.reset.img.models 7 none = none
    ∧ (crc32c (getBytes State.reset.lpddr 0x0C000000 4)) < 2 ^ 32 := by decide
set_option maxRecDepth 8000 in
theorem wit_wl_load : wlReasons ⟨0x0C000000, 4096, 0⟩ (aList State.reset) = [] := by decide
set_option maxRecDepth 1000000 in
theorem wit_wl_image : wlReasons ⟨0x0C000000, 172, 0⟩ (aShortList State.reset) = [] ∧ placeBad 0x0C000000 172 (aShortList State.reset) = false
    ∧ crc32c (getBytes (aShortList State.reset).lpddr 0x0C000000 (172 - 4)) = 0x8b711394
    ∧ ofBytes (getBytes (aShortList State.reset).lpddr (0x0C000000 + 172 - 4) 4) = 0x8b711394 := by decide +kernel
theorem wit_wl_activate : footprintClash ⟨0x0C000000, 4096, 0⟩ (aList State.reset) = false := by decide

/-! AttentionOperationsActOnTheirSequences -/
theorem wit_attn_item : ∀ op : Fin 7, op ≠ 0 → (attnItem op (anAttn op State.reset)).isSome = true
    ∧ fbit (anAttn op State.reset) ATN_CTRL ATN_CTRL_EN = true ∧ mainRuns (anAttn op State.reset) = true := by decide
theorem wit_attn_slot : natField 28 16 (0x10000000 : Nat) = 4096 ∧ seqState 4096 (openSeq State.reset) ≠ sqFree
    ∧ seqLen 4096 (openSeq State.reset) < seqCap 4096 (openSeq State.reset) ∧ migHolds 4096 (openSeq State.reset) = false
    ∧ seqState 4096 State.reset = sqFree := by decide
theorem wit_track_commit : (inStages 63 31 State.reset).slices.find? (fun q => q.seq == 0) ≠ none
    ∧ (∀ r ∈ (inStages 63 31 State.reset).slices, bitOf 5 r.begun = true ∧ bitOf 5 r.finished = false)
    ∧ State.reset.attn.journal = none ∧ committedNow 0 (inStages 63 31 State.reset) = false := by decide
theorem wit_track_journal : ({ State.reset.attn with journal := some ⟨0, true, [], [], 0, 0, 0, false, [], []⟩ } : AttnState).journal
    = some ⟨0, true, [], [], 0, 0, 0, false, [], []⟩ := rfl

/-! PagesMigrateAndTracksHaveTheirStage -/
theorem wit_migration : (migrating false State.reset).attn.mig = some ⟨7, 9, 4096, true, false, 0⟩
    ∧ (migrating true State.reset).attn.mig = some ⟨7, 9, 4096, true, true, 0⟩ ∧ mainRuns (migrating true State.reset) = true
    ∧ fbit (fon State.reset ATN_STATUS ATN_STATUS_REBUILDING) ATN_STATUS ATN_STATUS_REBUILDING = true := by decide
theorem wit_track_stage : (stageDue sgTrack (hasEnded sgFuse) (inStages 31 30 State.reset)).isSome = true
    ∧ (stageEnding sgTrack (inStages 63 31 State.reset)).isSome = true ∧ unitsUp [flatAttention] State.reset = true := by decide

/-! RegisterAccessesFollowTheirAccessCodes -/
theorem wit_reg_write : (regAt DEV_ACCESS_ERR).isSome = true ∧ DEV_ACCESS_ERR % 4 = 0 ∧ DEV_ACCESS_ERR / 0x100000 = 0
    ∧ windowTargets DEV_ACCESS_ERR State.reset = none ∧ addrHeld DEV_ACCESS_ERR State.reset = false
    ∧ agentUp .cupola State.reset = true := by decide
theorem wit_rc_read : unitHeld (31 : Fin 32) State.reset = false ∧ assocGet State.reset.shadow (ING_RX_PKTS 31) = none
    ∧ assocGet State.reset.shadow (MSIX_CTRL 31 - 4) = none ∧ assocGet State.reset.shadow (MSIX_CTRL 31) = none := by decide
theorem wit_bad_access : sizeFits 0x00000003 4 = false ∧ sizeFits 0 8 = false ∧ regAt 0x00100FFC = none
    ∧ windowTargets 0x00100FFC State.reset = none := by decide

/-! WideRegistersAndWindowsActWhole -/
theorem wit_wide : State.reset.heldUnits = [] ∧ State.reset.ing.length = 32 ∧ runState State.reset = stIdle
    ∧ assocGet State.reset.shadow CMD_LAST_SEQ_LO = none ∧ agentUp .jtag State.reset = true
    ∧ assocGet [(CMD_MIR_BASE_LO, (0x1000 : Word))] CMD_MIR_BASE_LO = some 0x1000 := by decide

/-! MemoryAndPoolWritesOfAnAgent -/
theorem wit_bar : agentUp .host (linkUp1 State.reset) = true ∧ (linkUp1 State.reset).fab.outer = []
    ∧ tagFree ⟨.host, true, true, 0x0C000000, 4, 0⟩ (linkUp1 State.reset) = true ∧ groupOut (ddrGroup 0x0C000000) (linkUp1 State.reset).fab.tags < 1024
    ∧ tagFree ⟨.host, false, false, 0, 4, 0⟩ (linkUp1 State.reset) = true
    ∧ inImage 0x0C000000 4 (linkUp1 State.reset) = false ∧ inRing 0x0C000000 4 (linkUp1 State.reset) = false
    ∧ rangeTop 0x0C000000 4 (linkUp1 State.reset) = false ∧ reservedEnd ≤ 0x0C000000 ∧ 0x057FFFFC + 4 ≤ 0x05800000 := by decide
theorem wit_migrate : pageState 0 (onePage State.reset) = pgAlloc ∧ 0 < poolPages (onePage State.reset)
    ∧ 0 < pageCount pgFree (onePage State.reset) ∧ 1 + atnReserve (onePage State.reset) ≤ pageCount pgFree (onePage State.reset)
    ∧ (onePage State.reset).attn.mig = none := by decide
theorem wit_pool : poolBad (rd64 (poolAt State.reset) ATN_POOL_BASE_LO) 0 (rd (poolAt State.reset) ATN_KVFMT) (poolAt State.reset) = false
    ∧ rwChanges ATN_POOL_PAGES 1 (inRun State.reset) = true ∧ running (inRun State.reset) = true := by decide

/-! RingPairsKeepTheirIndicesAndSlots -/
theorem wit_ring_enable : fbit State.reset (CMD_CFG 3) CMD_CFG_EN = false ∧ ringCfgOk aRingWord = true ∧ getBits CMD_CFG_EN aRingWord = 1 ∧ State.reset.rings.length = 4 := by decide
theorem wit_ring_on : fbit (ringOn State.reset) (CMD_CFG 3) CMD_CFG_EN = true ∧ ringBusy 3 (ringOn State.reset) = false
    ∧ ringBusy 3 { ringOn State.reset with cmds := [executed (hd (.ring 3)) 0x0104 [] State.reset none] } = true
    ∧ getBits CMD_SQ_TAIL_SQ_TAIL 15 < sqSlots 3 (ringOn State.reset) ∧ sqSlots 3 (ringOn State.reset) ≤ getBits CMD_SQ_TAIL_SQ_TAIL 16
    ∧ getBits CMD_CQ_HEAD_CQ_HEAD 0 < cqSlots 3 (ringOn State.reset)
    ∧ rwChanges (CMD_CFG 3) (aRingWord + 16) (ringOn State.reset) = true := by decide
theorem wit_posting : (ringGet 3 (ringUpd 3 (fun r => { r with posting := some 0 }) State.reset)).posting.isSome = true := by decide

/-! CommandsAreFetchedAnsweredAndTimedOut -/
theorem wit_fetch : mayFetch 3 (fetchable State.reset) = true ∧ lengthBad (sqSlotBytes 3 (fetchable State.reset)) [0x104, 0, 0, 0, 7] = false
    ∧ cupolaRuns (fetchable State.reset) = true := by decide
set_option maxRecDepth 100000 in
theorem wit_trailer : trailerBad [0x104, 0, 0, 0, 7] = true := by decide
theorem wit_reply : runningOn (.ring 3) (answered1 (.ring 3) State.reset) = some (executed (hd (.ring 3)) 0x0104 [] State.reset (some ⟨stOk, []⟩))
    ∧ (ringGet 3 (answered1 (.ring 3) State.reset)).posting = none ∧ (ringGet 3 State.reset).phase < 2 ^ 16 := by decide
theorem wit_duplicate : (duplicateOf (.mctp 9) [0x104, 0x10000, 5, 0, 0] (kept (.mctp 9) State.reset)).isSome = true
    ∧ (duplicateOf (.tollis 1) [0x104, 0x10000, 5, 0, 0] (kept (.tollis 1) State.reset)).isSome = true := by decide

/-! DeviceOpcodesAnswerFromTheRegisters -/
theorem wit_device : headCheck (hd (.mctp 8)) 0x0101 State.reset = none ∧ headCheck (hd (.ring 0)) 0x0102 State.reset = none
    ∧ headCheck (hd (.ring 0)) 0x0103 State.reset = none ∧ headCheck (hd (.tollis 1)) 0x0104 State.reset = none
    ∧ headCheck (hd (.ring 0)) 0x0201 State.reset = none ∧ headCheck (hd (.ring 0)) 0x0202 State.reset = none
    ∧ headCheck (hd (.ring 0)) 0x0203 State.reset = none ∧ headCheck (hd (.ring 0)) 0x0204 State.reset = none
    ∧ mirCfgBad 0x1F100008 = false ∧ assocGet State.reset.shadow CMD_MIR_CFG = none := by decide
theorem wit_result : resultBad [0, 1, 0x00100020, 0, 0, 0, 0, 0x1F100008, 2] State.reset = false ∧ runState State.reset = stIdle
    ∧ headCheck (hd (.ring 0)) 0x0203 (inRun State.reset) = none ∧ runState (inRun State.reset) ≠ stIdle := by decide

/-! SolveStageRunsOneSolveAndEndsWithItsSection -/
theorem wit_solve_start : (stageDue sgSolve (hasEnded sgTrack) (inStages 63 62 State.reset)).isSome = true
    ∧ mayGoOn (inStages 63 62 State.reset) = true ∧ solverUp (inStages 63 62 State.reset) = true
    ∧ fbit (fset (inStages 63 62 State.reset) SLV_CTRL SLV_CTRL_EN 0) SLV_CTRL SLV_CTRL_EN = false
    ∧ fbit (withModel (inStages 63 62 State.reset)) SLV_CTRL SLV_CTRL_EN = true
    ∧ workFits ⟨0x04000000, 4096, 0⟩ 0x0C000000 (withModel (inStages 63 62 State.reset)) = true := by decide
theorem wit_solve_end : (stageEnding sgSolve (inStages 127 62 State.reset)).isSome = true ∧ (inStages 127 62 State.reset).stopAbandon = false
    ∧ (oneSolve 0 none State.reset).slv.job.isSome = true
    ∧ cmpReached 1 (fset State.reset (BLF_CMP_VAL 1) fWord 700) = false
    ∧ (∀ j ∈ (oneSolve 0 none State.reset).slv.job, (outDeadline .forming j State.reset).isSome = true) := by decide

/-! SolverOpcodesLoadSwitchConfigureAndTest -/
theorem wit_solver_ready : partFenced partSolver State.reset = false ∧ (List.range 6).all (fun i =>
      headCheck (hd (.ring 0)) (0x0701 + i) State.reset == none) = true ∧ running State.reset = false ∧ State.reset.slv.job = none
    ∧ headCheck (hd (.ring 0)) 0x0702 (inRun State.reset) = none ∧ running (inRun State.reset) = true := by decide
set_option maxRecDepth 1000000 in
theorem wit_model_image : crc32c (getBytes (aModel State.reset).lpddr 0x0C000000 164) = aModelCrc
    ∧ ofBytes (getBytes (aModel State.reset).lpddr (0x0C000000 + 168 - 4) 4) = aModelCrc
    ∧ slvReasons 0x0C000000 168 (aModel State.reset) = [] ∧ placeBad 0x0C000000 168 (aModel State.reset) = false := by decide +kernel
theorem wit_slv_config : (∀ i < 8, reservedSet (nth slvImages (i + 1) 0) (param slvWords (i + 1)) = false)
    ∧ slvDeadlineBad (nth slvWords 1 0) = false ∧ slvLimitsBad (nth slvWords 2 0) = false
    ∧ fp32Below (param slvWords 3) (param slvWords 4) = true ∧ fp32Pos (param slvWords 5) = true := by decide +kernel
theorem wit_test_solve : (testList State.reset).img.active = some ⟨0x04000000, 4096, 0⟩
    ∧ 4096 < 0 + wlDomeBytes ⟨0x04000000, 4096, 0⟩ (testList State.reset) ∧ workBad State.reset = false := by decide

/-! TheSpireWatchesTicksAndKicksAndAnswersItsPort -/
theorem wit_spire : spireRuns State.reset = true ∧ State.reset.spr.latch = none
    ∧ ({ State.reset with spr := { State.reset.spr with latch := some (List.replicate 16 7) } }).spr.latch = some (List.replicate 16 7)
    ∧ (fromMain (.tick 5 (some 3)) State.reset).bridgeUp = .tick 5 (some 3) :: [] := by decide
theorem wit_tick_missing : (ticked State.reset).spr.ticks = (0, 0) :: [] ∧ (ticked State.reset).spr.missed = false
    ∧ spireRuns (ticked State.reset) = true ∧ (ticked State.reset).spr.suspended = false := by decide
theorem wit_kick : ((window 0 State.reset).spr.slices.find? (fun w => w.seq == 3)).isSome = true
    ∧ (window 0 State.reset).spr.now + 0 < winOpen ⟨3, 0, true, 1000000, 0, 0, 0, false⟩ 7 (window 0 State.reset)
    ∧ bitOf 7 0 = false ∧ spireRuns (fromMain (.kick 7 3) (window 0 State.reset)) = true := by decide
theorem wit_wwd : (∀ m < 8, bitOf m 127 = decide (m ≠ 7)) ∧ (∀ m < 8, bitOf m 254 = decide (m ≠ 0))
    ∧ (window 127 State.reset).spr.slices = [⟨3, 0, true, 1000000, 127, 0, 0, false⟩] := by decide

/-! ReportsAndNoticesReachTheSpire -/
theorem wit_reports : spireRuns (fromMain (.fault 39 0) State.reset) = true
    ∧ (fromMain (.recoveryDone 1 []) State.reset).bridgeUp = .recoveryDone 1 [] :: []
    ∧ (fromMain (.recoveryDone 3 [18]) State.reset).bridgeUp = .recoveryDone 3 [18] :: [] ∧ State.reset.pwr.freezeIn = false
    ∧ spireRuns (fromMain .resetNotice State.reset) = true ∧ (validHeld State.reset).spr.validAt = some 0 := by decide

/-! TheSpireJudgesAndKeepsItsReferences -/
theorem wit_judge : (oneCopy State.reset).spr.copies.length = 1 ∧ spireRuns (oneCopy State.reset) = true := by decide
theorem wit_tasks : taskMay tkTap (sprAt 0 (ticked State.reset)) = true ∧ taskMay tkCal (sprAt 0 (proposed State.reset)) = true
    ∧ spireRuns (proposed State.reset) = true ∧ taskMay tkStatus (sprAt (cycMs 10) State.reset) = true
    ∧ quantumMay (sprAt 0 State.reset) = true := by decide
theorem wit_inputs : cfgHeld (sprCfg State.reset) = true
    ∧ (∀ w ∈ [34, 35], ∀ lo ∈ [0, 8, 16], (sprImuField (cfgWord w (sprCfg State.reset)) lo [1, 2] (sprCfg State.reset)).isSome = true)
    ∧ wheelUsed 3 (sprCfg State.reset) = true ∧ natField 28 0 (cfgWord 32 (sprCfg State.reset)) = 5
    ∧ natField 7 0 (cfgWord 33 (sprCfg State.reset)) + 2 ≤ 2 ∧ (sprCfg State.reset).spr.refs.wheels.length = 4
    ∧ (bitNote 33 (sprCfg State.reset)).conds = 0
    ∧ (∀ lo ∈ [0, 8, 16], tapCoord 0 lo [1, 2, 3, 4] (sprCfg State.reset) ≠ .nan) := by decide
theorem wit_disagree : yawDiffers (sprAdvance (0 + cycMs 100 - 0) (yawOff State.reset)) = true ∧ (yawOff State.reset).spr.refs.differs = true
    ∧ (yawOff State.reset).spr.refs.bad = false ∧ cfgHeld (yawOff State.reset) = true := by decide +kernel

/-! SafetyOpcodesConfigureAndExerciseTheSpire -/
theorem wit_safe_ready : spireRuns State.reset = true ∧ (List.range 6).all (fun i => headCheck (hd (.ring 2)) (0x0801 + i) State.reset == none) = true
    ∧ cfgFailing [] = some 0 ∧ pinsBusy State.reset = false ∧ faultCat 39 State.reset ≠ 0
    ∧ safetyState State.reset ≠ stSpireFail ∧ fbit (fon State.reset SPR_GOLD SPR_GOLD_LOADED) SPR_GOLD SPR_GOLD_LOADED = true := by decide
set_option maxRecDepth 100000 in
theorem wit_safe_config : cfgFailing (sprWords.map BitVec.toNat) = none := by decide +kernel
theorem wit_gold_load : goldImageOk ⟨0x0C000000, 172, 0⟩ (aShortList State.reset) = true := by decide +kernel

/-! PinsSuppliesAndBootResetTheDies -/
theorem wit_pins : State.reset.rcv = [] ∧ State.reset.pwr.mainUp = true ∧ State.reset.pwr.spireUp = true
    ∧ State.reset.pwr.mainHeld = false ∧ State.reset.pwr.frozen = false := by decide
theorem wit_release : (rcvFind (fun r => r.step == .reset && !r.holding) (inReset 0 .reset State.reset)).isSome = true
    ∧ (rcvFind (fun r => r.step == .reset && !r.holding) (inReset 3 .reset State.reset)).isSome = true := by decide
theorem wit_boot : booting false (bootAt false (inReset 1 .rebuild State.reset)) = true
    ∧ booting true (bootAt true (inReset 1 .rebuild State.reset)) = true
    ∧ descCurrent { State.reset.cup with descA := none, descB := none } = none
    ∧ descCurrent { State.reset.cup with descA := some ⟨1, false, true, 0, 0, 4⟩, descB := none } = some (⟨1, false, true, 0, 0, 4⟩, true) := by decide

/-! RecoveriesPassThroughTheirSteps -/
theorem wit_request : ({ State.reset with bridgeDown := [.resetReq 3 0 31 18] } : State).bridgeDown = .resetReq 3 0 31 18 :: []
    ∧ mainRuns State.reset = true ∧ State.reset.rcv = [] := by decide
theorem wit_drain : capturesNot (aRecovery 3 .drain) = false ∧ scopeTags (aRecovery 3 .drain) State.reset = 0
    ∧ scopeWaits (aRecovery 3 .drain) State.reset = 0 ∧ capturesNot (aRecovery 3 .capture) = false ∧ 2 ≤ (aRecovery 3 .capture).level
    ∧ (aRecovery 3 .capture).heads.length ≤ 272 ∧ (inReset 3 .drain State.reset).rcv = [aRecovery 3 .drain] := by decide
theorem wit_replay : (replayOf State.reset).rcv = [{ aRecovery 3 .replay with replay := true, suspects := [(7, 0), (8, 0)] }]
    ∧ ([(7, 0), (8, 0)] : List (Nat × Nat)).findIdx? (fun e => e.2 == 0) = some 0 ∧ upNs State.reset < replayLimit (aRecovery 3 .replay)
    ∧ fbit State.reset (RST_REFUSED 0) RST_REFUSED_VALID = false
    ∧ fbit (fon State.reset RST_CFG RST_CFG_REPLAY_EN) RST_CFG RST_CFG_REPLAY_EN = true := by decide
theorem wit_audit : (ledgersGood State.reset).all id = true ∧ agentUp .jtag State.reset = true := by decide +kernel

/-! RecoveryOpcodesRequestAndReport -/
theorem wit_rcv_ready : (List.range 5).all (fun i => headCheck (hd (.ring 1)) (0x0901 + i) State.reset == none) = true
    ∧ headCheck (hd (.mctp 4)) 0x0901 State.reset = none ∧ unitFlat 0x1F = some 31 := by decide
theorem wit_refused : fbit (refused 5 State.reset) (RST_REFUSED 15) RST_REFUSED_VALID = true
    ∧ fget (refused 5 State.reset) (RST_REFUSED 15) RST_REFUSED_CONTEXT = 5
    ∧ (∀ j < 16, j ≠ 15 → fbit (refused 5 State.reset) (RST_REFUSED j) RST_REFUSED_VALID = true →
      fget (refused 5 State.reset) (RST_REFUSED j) RST_REFUSED_CONTEXT ≠ 5)
    ∧ headCheck (hd (.ring 1)) 0x0904 (refused 5 State.reset) = none ∧ contextRefused 6 (refused 5 State.reset) = false := by decide

/-! TollisLinksKeepTheirCreditsAndJobs -/
theorem wit_tollis : linkIsUp 1 (linkUp State.reset) = true ∧ 0 < vcFree 1 4 (linkUp State.reset) ∧ vcHeld 1 4 (linkUp State.reset) < 65535
    ∧ 0 < vcOut 1 4 (linkUp State.reset) ∧ vcAvail 1 4 (linkUp State.reset) < 65535 ∧ vcFree 1 4 (linkUp State.reset) < 65535
    ∧ 0 < vcReturning 1 4 (linkUp State.reset) ∧ (linkGet 1 (linkUp State.reset)).returning = (4, 0) :: []
    ∧ (linkUp State.reset).links.length = 2 ∧ mainRuns (linkUp State.reset) = true
    ∧ fget (linkUp State.reset) (TOL_STATUS 1) TOL_STATUS_STATE ≠ tolDown ∧ running (linkUp State.reset) = false := by decide
theorem wit_retrain : fbit (fon State.reset (TOL_CTRL 0) TOL_CTRL_EN) (TOL_CTRL 0) TOL_CTRL_EN = true ∧ linkIsUp 0 State.reset = false := by decide
theorem wit_rxwin : 8188 + 4 ≤ fget (linkUp State.reset) (TOL_RXWIN_BYTES 1) TOL_RXWIN_BYTES_BYTES
    ∧ fget (linkUp State.reset) (TOL_RXWIN_BYTES 1) TOL_RXWIN_BYTES_BYTES < 8189 + 4
    ∧ tagFree ⟨.tollis 1, false, true, fget (linkUp State.reset) (TOL_RXWIN_BASE 1) fWord + 8188, 4, 0⟩ (linkUp State.reset) = true
    ∧ (linkUp State.reset).fab.outer = [] := by decide
theorem wit_job : jobRuns (jobbed State.reset) = true ∧ tokenStale 9 (jobbed State.reset) = false ∧ jobId (jobbed State.reset) = 9
    ∧ (jobbed State.reset).rcv = [] ∧ jobLink 1 (jobbed State.reset) = true ∧ headCheck (hd (.ring 0)) 0x0907 (jobbed State.reset) = none
    ∧ headCheck (hd (.ring 0)) 0x0906 State.reset = none := by decide

/-! CupolaMonitorsAndMaintainsTheModule -/
theorem wit_monitor : firmwareRuns State.reset = true ∧ (∀ i < 16, voltOut i (nth niceVolts i 0) State.reset = false)
    ∧ (∀ x ∈ List.replicate 24 (250 : Int), x < (fget State.reset CUP_THERM CUP_THERM_TRIP * 10 : Nat))
    ∧ (fget State.reset CUP_THERM CUP_THERM_TRIP * 10 : Nat) ≤ (2550 : Int) := by decide
theorem wit_vcore : vMin State.reset ≤ State.reset.cup.target ∧ State.reset.cup.target ≤ vMax State.reset := by decide
theorem wit_buttress : State.reset.bt.copy = none ∧ State.reset.bt.backlog = [] ∧ State.reset.spr.bist = []
    ∧ (spareBank State.reset).isSome = true ∧ (spareArray State.reset).isSome = true := by decide

/-! SpdmRequestsAreAnsweredInTheirOrder -/
theorem wit_spdm : firmwareRuns (spdmAt 7 State.reset) = true ∧ (spdmAt 7 State.reset).pwr.pcieUp = true
    ∧ fbit (spdmAt 7 State.reset) CMD_MCTP CMD_MCTP_EN = true ∧ certOf 1 (spdmAt 7 State.reset) = some [1, 2, 3] := by decide

/-! ManagementOpcodesReportAndUpdate -/
theorem wit_mgmt_ready : (List.range 13).all (fun i => headCheck (hd (.mctp 7)) (0x0A01 + i) State.reset == none) = true
    ∧ (descCurrent State.reset.cup).isSome = true ∧ (descCurrent State.reset.cup).all (fun e => decide (e.1.active ≤ 1)) = true
    ∧ State.reset.bt.queue.length < 16 ∧ State.reset.bt.testing ≠ some 31 ∧ running State.reset = false
    ∧ fbit (fon State.reset CUP_FW CUP_FW_TRIAL) CUP_FW CUP_FW_TRIAL = true
    ∧ 0 + 120 ≤ fget (fset State.reset CUP_LOG_NEXT fWord 120) CUP_LOG_NEXT fWord := by decide
theorem wit_vcore_config : vcoreBad (rd State.reset CUP_VCORE) = false ∧ pcapBad (rd State.reset CUP_PCAP) = false
    ∧ thermBad (rd State.reset CUP_THERM) = false ∧ reservedSet CUP_PCAP (rd State.reset CUP_PCAP).toNat = false
    ∧ reservedSet CUP_VCORE (rd State.reset CUP_VCORE).toNat = false := by decide
theorem wit_fw : headCheck (hd (.ring 0)) 0x0A07 State.reset = none ∧ State.reset.cup.verified ≠ some 0
    ∧ ({ State.reset.cup with verified := some 0, committed := some 1 } : CupolaState).verified = some 0
    ∧ reservedEnd ≤ 0x0C000000 + 2 ^ 32 * 0 ∧ 2 ^ 22 - 4000 + 4 * 1000 ≤ 2 ^ 22 := by decide

/-! DebugOpcodesGuardTheScopes -/
theorem wit_debug_ready : (List.range 6).all (fun i => headCheck (hd (.ring 3)) (0x0B01 + i) State.reset == none) = true
    ∧ unlocked scLantern State.reset = false ∧ unlocked scLantern (scopesAt 15 State.reset) = true
    ∧ (maskBits 16 0x8001).length = 2 ∧ tokenCheck [] State.reset = stParam
    ∧ headCheck (hd (.ring 3)) 0x0B04 (scopesAt 15 State.reset) = none := by decide

/-! FreezeAndTheTapActOnTheDies -/
theorem wit_freeze : mainRuns (scopesAt 2 State.reset) = true ∧ unlocked scFreeze (scopesAt 2 State.reset) = true
    ∧ (∀ r ∈ (scopesAt 2 State.reset).rcv, 2 ≤ r.level) ∧ bitOf 1 (scopesAt 2 State.reset).spr.scopes = true
    ∧ spireRuns (scopesAt 2 State.reset) = true ∧ unlocked scFreeze State.reset = false
    ∧ spireRuns { State.reset with pwr := { State.reset.pwr with spireUp := false } } = false := by decide
theorem wit_tap : State.reset.pwr.mainUp = true ∧ instrumentOpen .status (scopesAt 4 State.reset) = true ∧ State.reset.dbg.tap ≠ 0x40
    ∧ ({ State.reset.dbg with tap := 0x40 } : DebugState).tap = 0x40 := by decide

end Sys2Proof.Tests
end

section
/-! Proofs. Events of the main die, folds that keep a relation, and the beginning of a stage. -/
namespace Sys2Proof.Stages

open Sys2Proof Sys2Proof.Machine

/-! ## Events of the main die -/

/-- An event of the main die gives what its meaning makes of the state. -/
theorem gives_onMain {c : Instr} {f : State → State} {s : State} {P : State → Prop} (hc : exec c s = onMain f s)
    (hr : mainRuns s = true) (hp : P (f s)) : Gives c s P := ⟨f s, hc.trans (onMain_run hr), hp⟩

/-- A reflexive and transitive relation that every step of a fold keeps relates its ends. -/
theorem foldl_rel {α : Type} {R : State → State → Prop} (hrefl : ∀ s, R s s) (htrans : ∀ {a b c}, R a b → R b c → R a c)
    {f : State → α → State} (hf : ∀ s x, R s (f s x)) (l : List α) (s : State) : R s (l.foldl f s) := by
  induction l generalizing s with
  | nil => exact hrefl s
  | cons x l ih => exact htrans (hf s x) (ih (f s x))

theorem forUpTo_rel {R : State → State → Prop} (hrefl : ∀ s, R s s) (htrans : ∀ {a b c}, R a b → R b c → R a c)
    {f : Nat → State → State} (hf : ∀ n s, R s (f n s)) (k : Nat) (s : State) : R s (forUpTo k f s) :=
  foldl_rel hrefl htrans (fun s n => hf n s) (List.range k) s

/-- Memories that are the same stores read alike. -/
theorem memoryKept_of_eq {s t : State} (hd : t.dome = s.dome) (hl : t.lpddr = s.lpddr) (hh : t.hostMem = s.hostMem) :
    MemoryKept s t := ⟨fun a => by simp [domeByte, hd], fun a => by simp [ddrByte, hl], hh⟩

/-! ## Stages of a slice -/

theorem bitOf_eq_testBit (n w : Nat) : bitOf n w = w.testBit n := by
  rw [bitOf, Nat.testBit_eq_decide_div_mod_eq]; rfl

theorem updSeq_frame (seq : Nat) (f : SliceRec → SliceRec) (s : State) :
    updSeq seq f s = { s with slices := (updSeq seq f s).slices } := rfl

/-- A change of a slice that leaves its number alone leaves the sequence numbers alone. -/
theorem seqs_updSeq {seq : Nat} {f : SliceRec → SliceRec} (hf : ∀ q, (f q).seq = q.seq) (s : State) :
    (updSeq seq f s).slices.map SliceRec.seq = s.slices.map SliceRec.seq := by
  simp only [updSeq, List.map_map]
  refine List.map_congr_left fun q _ => ?_
  simp only [Function.comp]
  split
  · exact hf q
  · rfl

/-- A slice after a change of one number's slices. -/
theorem mem_updSeq {seq : Nat} {f : SliceRec → SliceRec} {s : State} {q : SliceRec} (h : q ∈ (updSeq seq f s).slices) :
    ∃ r ∈ s.slices, q = if r.seq = seq then f r else r := by
  simp only [updSeq, List.mem_map] at h
  obtain ⟨r, hr, rfl⟩ := h
  exact ⟨r, hr, rfl⟩

/-- A stage that may begin begins on the slice that is due. -/
theorem stageStart_due {st : Nat} {units : List Nat} {ready : SliceRec → Bool} {f : SliceRec → Nat → State → State} {s : State}
    {r : SliceRec} (hd : stageDue st ready s = some r) (hm : mayGoOn s = true) (hu : unitsUp units s = true) :
    stageStart st units ready f s = f r (startLevel st r s) (stageBegin st r.seq s) := by
  simp [stageStart, hd, hm, hu]

/-- After the beginning of a stage: the slices are the same ones, and those of the number have begun it. -/
structure Begun (st seq : Nat) (s t : State) : Prop where
  seqs : t.slices.map SliceRec.seq = s.slices.map SliceRec.seq
  begun : ∀ q ∈ t.slices, q.seq = seq → hasBegun st q = true

theorem begun_stageBegin (st seq : Nat) (s : State) : Begun st seq s (stageBegin st seq s) where
  seqs := by unfold stageBegin; refine seqs_updSeq (fun q => ?_) s; rfl
  begun q hq hs := by
    obtain ⟨r, -, rfl⟩ := mem_updSeq hq
    split at hs
    · rename_i h
      simp [h, hasBegun, bitOf_eq_testBit]
    · exact absurd hs ‹_›

/-- What keeps the slices keeps that a stage of them has begun. -/
theorem Begun.of_slices {st seq : Nat} {s t u : State} (h : Begun st seq s t) (hu : u.slices = t.slices) : Begun st seq s u :=
  ⟨hu ▸ h.seqs, hu ▸ h.begun⟩

/-- A change of a slice that leaves its number and its stages alone keeps that a stage has begun. -/
theorem Begun.updSeq {st seq k : Nat} {s t : State} {f : SliceRec → SliceRec} (h : Begun st seq s t)
    (hs : ∀ q, (f q).seq = q.seq) (hb : ∀ q, (f q).begun = q.begun) : Begun st seq s (updSeq k f t) where
  seqs := (seqs_updSeq hs t).trans h.seqs
  begun q hq hseq := by
    obtain ⟨r, hr, rfl⟩ := mem_updSeq hq
    split at hseq
    · rename_i hk
      rw [hs] at hseq
      simpa [hk, hasBegun, hb] using h.begun r hr hseq
    · rename_i hk
      simpa [hk] using h.begun r hr hseq

end Sys2Proof.Stages
end

section
/-! Proofs. Where registers are written, and what the governor's checkpoint may change (R19, R20). -/
namespace Sys2Proof.Stages

open Sys2Proof Sys2Proof.Machine

/-! ## Where registers are written -/

/-- From s to t registers are written at addresses of A alone, and they stay canonical. -/
def WritesIn (A : Nat → Prop) (s t : State) : Prop := RegsWf s → RegsWf t ∧ ∀ a, ¬A a → rd t a = rd s a

theorem WritesIn.of_regs {A : Nat → Prop} {s t : State} (h : t.regs = s.regs) : WritesIn A s t :=
  fun hs => ⟨by rw [RegsWf, h]; exact hs, fun a _ => by rw [rd, rd, h]⟩

theorem WritesIn.refl {A : Nat → Prop} (s : State) : WritesIn A s s := .of_regs rfl

theorem WritesIn.trans {A : Nat → Prop} {s t u : State} (h : WritesIn A s t) (h' : WritesIn A t u) : WritesIn A s u :=
  fun hs => ⟨(h' (h hs).1).1, fun a ha => ((h' (h hs).1).2 a ha).trans ((h hs).2 a ha)⟩

theorem WritesIn.mono {A B : Nat → Prop} {s t : State} (h : WritesIn A s t) (hAB : ∀ a, A a → B a) : WritesIn B s t :=
  fun hs => ⟨(h hs).1, fun a ha => (h hs).2 a (fun hA => ha (hAB a hA))⟩

theorem WritesIn.fset {A : Nat → Prop} {s t : State} (h : WritesIn A s t) {a : Nat} (ha : A a) (f : Bits) (v : Nat) :
    WritesIn A s (fset t a f v) :=
  h.trans fun ht => ⟨regsWf_fset ht a f v, fun _ hb => rd_fset_ne ht f v (fun e => hb (e ▸ ha))⟩

theorem WritesIn.bump {A : Nat → Prop} {s t : State} (h : WritesIn A s t) {a : Nat} (ha : A a) : WritesIn A s (bump t a) :=
  h.fset ha _ _

/-- A field of a register that is not written keeps its value. -/
theorem WritesIn.fget {A : Nat → Prop} {s t : State} (h : WritesIn A s t) (hs : RegsWf s) {a : Nat} (ha : ¬A a) (f : Bits) :
    fget t a f = fget s a f := by
  rw [Machine.fget, Machine.fget, (h hs).2 a ha]

/-! ## The governor's checkpoint (R19, R20) -/

/-- The registers of the governor's level. -/
abbrev GovRegs (a : Nat) : Prop := a = SLC_GOV_LEVEL ∨ a = SLC_GOV_RAISES

/-- What a checkpoint may change: the level and its count of raises, and the slack and the mark of the slices. -/
structure GovStep (s t : State) : Prop where
  frame : ∃ g x, t = { s with regs := g, slices := x }
  writes : WritesIn GovRegs s t

theorem GovStep.refl (s : State) : GovStep s s := ⟨⟨_, _, rfl⟩, .refl s⟩

theorem GovStep.trans {a b c : State} (h : GovStep a b) (h' : GovStep b c) : GovStep a c := by
  obtain ⟨⟨g, x, rfl⟩, hw⟩ := h
  obtain ⟨⟨g', x', rfl⟩, hw'⟩ := h'
  exact ⟨⟨g', x', rfl⟩, hw.trans hw'⟩

theorem govStep_updSeq (seq : Nat) (f : SliceRec → SliceRec) (s : State) : GovStep s (updSeq seq f s) :=
  ⟨⟨_, _, rfl⟩, .of_regs rfl⟩

theorem govStep_govRaise (seq : Nat) (r : SliceRec) (s : State) : GovStep s (govRaise seq r s) := by
  unfold govRaise
  split
  · exact .refl s
  · exact GovStep.trans ⟨⟨_, _, rfl⟩, ((WritesIn.refl s).fset (.inl rfl) _ _).bump (.inr rfl)⟩ (govStep_updSeq _ _ _)

theorem govStep_raiseWhile (need : Nat → State → Bool) (r : SliceRec) (s : State) : GovStep s (raiseWhile need r s) := by
  refine foldl_rel .refl .trans (fun s _ => ?_) _ s
  split
  · exact govStep_govRaise _ _ _
  · exact .refl s

theorem govStep_checkpoint (seq : Nat) (s : State) : GovStep s (checkpoint seq s) := by
  unfold checkpoint
  split
  · exact .refl s
  · split
    · exact .refl s
    · simp only
      split
      · exact ((govStep_updSeq seq _ s).trans (govStep_raiseWhile _ _ _)).trans (govStep_raiseWhile _ _ _)
      · exact (govStep_updSeq seq _ s).trans (govStep_raiseWhile _ _ _)

end Sys2Proof.Stages
end

section
/-! Proofs. What the voxel hash engine may change, and the point that POINT_INSERT takes (R132 to R147). -/
namespace Sys2Proof.Stages

open Sys2Proof Sys2Proof.Machine

/-! ## What the voxel hash engine may change -/

/-- From s to t only registers and the VHE's own state have changed. -/
def VheOnly (s t : State) : Prop := ∃ r v, t = { s with regs := r, vhe := v }

theorem VheOnly.refl (s : State) : VheOnly s s := ⟨_, _, rfl⟩

theorem VheOnly.trans {a b c : State} : VheOnly a b → VheOnly b c → VheOnly a c := by
  rintro ⟨r, v, rfl⟩ ⟨r', v', rfl⟩; exact ⟨r', v', rfl⟩

/-- As VheOnly, and the points that wait for their insertion are the same. -/
def VheKeepsTodo (s t : State) : Prop := VheOnly s t ∧ t.vhe.todo = s.vhe.todo

theorem VheKeepsTodo.refl (s : State) : VheKeepsTodo s s := ⟨.refl s, rfl⟩

theorem VheKeepsTodo.trans {a b c : State} (h : VheKeepsTodo a b) (h' : VheKeepsTodo b c) : VheKeepsTodo a c :=
  ⟨h.1.trans h'.1, h'.2.trans h.2⟩

theorem vheOnly_vheSet (v : VheState) (s : State) : VheOnly s (vheSet v s) := ⟨_, _, rfl⟩
theorem vheOnly_fset (s : State) (a : Nat) (f : Bits) (v : Nat) : VheOnly s (fset s a f v) := ⟨_, _, rfl⟩

/-- A register write keeps the points that wait. -/
theorem keepsTodo_fset (s : State) (a : Nat) (f : Bits) (v : Nat) : VheKeepsTodo s (fset s a f v) := ⟨⟨_, _, rfl⟩, rfl⟩
theorem keepsTodo_bumpBy (s : State) (a : Nat) (f : Bits) (k : Nat) : VheKeepsTodo s (bumpBy s a f k) := ⟨⟨_, _, rfl⟩, rfl⟩

/-- So does a write of the VHE's state that keeps its list of them. -/
theorem keepsTodo_vheSet {v : VheState} {s : State} (h : v.todo = s.vhe.todo) : VheKeepsTodo s (vheSet v s) := ⟨⟨_, _, rfl⟩, h⟩

theorem keepsTodo_tallyUp (a i k : Nat) (s : State) : VheKeepsTodo s (tallyUp a i k s) := ⟨⟨_, _, rfl⟩, rfl⟩
theorem keepsTodo_floorSlot (sl : Nat) (s : State) : VheKeepsTodo s (floorSlot sl s) := ⟨⟨_, _, rfl⟩, rfl⟩
theorem keepsTodo_unlog (e : Nat) (s : State) : VheKeepsTodo s (unlog e s) := ⟨⟨_, _, rfl⟩, rfl⟩
theorem keepsTodo_laneDraw (lane n : Nat) (s : State) : VheKeepsTodo s (laneDraw lane n s).2 := ⟨⟨_, _, rfl⟩, rfl⟩

theorem keepsTodo_countBy (w : Nat) (up : Bool) (s : State) : VheKeepsTodo s (countBy w up s) := by
  unfold countBy
  split
  · exact keepsTodo_vheSet rfl
  · exact .refl s

theorem keepsTodo_staleGone (w : Nat) (s : State) : VheKeepsTodo s (staleGone w s) := by
  unfold staleGone
  split
  · split
    · exact keepsTodo_countBy w false s
    · exact .refl s
  · exact .refl s

/-! ## Insertion (R143, R144) -/

theorem keepsTodo_wayPut (b w e : Nat) (s : State) : VheKeepsTodo s (wayPut b w e s) := by
  unfold wayPut
  simp only
  split
  · exact (keepsTodo_staleGone _ s).trans (keepsTodo_vheSet rfl)
  · exact keepsTodo_vheSet rfl

theorem keepsTodo_stashPut (e : Nat) (s : State) : VheKeepsTodo s (stashPut e s) := by
  unfold stashPut
  split
  · exact keepsTodo_vheSet rfl
  · split
    · exact (keepsTodo_staleGone _ s).trans (keepsTodo_vheSet rfl)
    · exact .refl s

theorem keepsTodo_logVoxel (e : Nat) (removed : Bool) (s : State) : VheKeepsTodo s (logVoxel e removed s) := by
  unfold logVoxel
  split
  · exact .refl s
  · split
    · exact keepsTodo_vheSet rfl
    · exact (keepsTodo_vheSet rfl).trans (keepsTodo_fset _ _ _ _)

theorem keepsTodo_sampleEntry (lane old new : Nat) (s : State) : VheKeepsTodo s (sampleEntry lane old new s).2 := by
  unfold sampleEntry
  split
  · exact keepsTodo_laneDraw lane (min (entHits old + 1) 8) s
  · exact .refl s

theorem keepsTodo_kicks (k hand b : Nat) (s : State) : VheKeepsTodo s (kicks k hand b s).2 := by
  induction k generalizing hand b s with
  | zero => exact .refl s
  | succ k ih =>
    have hswap : VheKeepsTodo s (bump (vheSet { s.vhe with
        table := cellsSet (fun _ => 0) s.vhe.table (4 * b + (8 - (k + 1)) % 4) hand } s) VHE_KICKS) :=
      (keepsTodo_vheSet rfl).trans (keepsTodo_bumpBy _ _ _ _)
    unfold kicks
    simp only
    split
    · exact hswap.trans (keepsTodo_wayPut _ _ _ _)
    · exact hswap.trans (ih _ _ _)

theorem keepsTodo_handLeft (hand new : Nat) (s : State) : VheKeepsTodo s (handLeft hand new s) := by
  unfold handLeft
  split
  · exact (keepsTodo_stashPut hand s).trans (keepsTodo_bumpBy _ _ _ _)
  · have hlost : VheKeepsTodo s (countBy hand false (fon (tallyUp VHE_HASH_LOST 4 1 s) VHE_STATUS VHE_STATUS_HASH_LOST)) :=
      ((keepsTodo_tallyUp _ _ _ s).trans (keepsTodo_fset _ _ _ _)).trans (keepsTodo_countBy _ _ _)
    simp only
    split
    · exact hlost.trans (keepsTodo_unlog _ _)
    · exact hlost.trans (keepsTodo_logVoxel _ _ _)

/-- The insertion of a point leaves the points after it waiting. -/
theorem keepsTodo_insertEntry (lane new : Nat) (s : State) : VheKeepsTodo s (insertEntry lane new s) := by
  unfold insertEntry
  split
  · exact ((keepsTodo_sampleEntry _ _ _ s).trans (keepsTodo_wayPut _ _ _ _)).trans (keepsTodo_logVoxel _ _ _)
  · exact ((keepsTodo_sampleEntry _ _ _ s).trans (keepsTodo_vheSet rfl)).trans (keepsTodo_logVoxel _ _ _)
  · have hplaced (b w : Nat) : VheKeepsTodo s (logVoxel new false (countBy new true (wayPut b w new s))) :=
      ((keepsTodo_wayPut b w new s).trans (keepsTodo_countBy _ _ _)).trans (keepsTodo_logVoxel _ _ _)
    simp only
    split
    · exact hplaced _ _
    · exact hplaced _ _
    · have hkicked := ((keepsTodo_countBy new true s).trans (keepsTodo_logVoxel new false _)).trans
        (keepsTodo_kicks 8 new (hash0 new) _)
      split
      · rename_i h
        rw [h] at hkicked
        exact hkicked
      · rename_i h
        rw [h] at hkicked
        exact hkicked.trans (keepsTodo_handLeft _ _ _)

/-- POINT_INSERT takes the first waiting point off the list. -/
theorem pointInsert_cons {s : State} {p : VhePoint} {ps : List VhePoint} (h : s.vhe.todo = p :: ps) (lane g : Nat) :
    VheOnly s (pointInsert lane g s) ∧ (pointInsert lane g s).vhe.todo = ps := by
  unfold pointInsert
  rw [h]
  have hi := keepsTodo_insertEntry lane (newEntry p.x (effSlot g p.slot s) p.epoch (zbaseOf s)) (vheSet { s.vhe with todo := ps } s)
  exact ⟨(vheOnly_vheSet _ s).trans hi.1, hi.2⟩

/-! ## The VOXEL stage (R132 to R138, R146) -/

theorem vheOnly_setWindow (p : List Rat) (s : State) : VheOnly s (setWindow p s) := by
  unfold setWindow
  exact (((((vheOnly_fset s _ _ _).trans (vheOnly_fset _ _ _ _)).trans (vheOnly_fset _ _ _ _)).trans
    (forUpTo_rel .refl .trans (fun n s => (keepsTodo_floorSlot n s).1) 2601 _))).trans (vheOnly_vheSet _ _)

theorem vheOnly_recentre (p : List Rat) (s : State) : VheOnly s (recentre p s) := by
  unfold recentre
  simp only
  split
  · exact .refl s
  · exact (((vheOnly_fset s _ _ _).trans (vheOnly_fset _ _ _ _)).trans
      (foldl_rel .refl .trans (fun s n => (keepsTodo_floorSlot n s).1) _ _)).trans (vheOnly_vheSet _ _)

theorem vheOnly_rebaseZ (p : List Rat) (s : State) : VheOnly s (rebaseZ p s) := by
  unfold rebaseZ
  simp only
  split
  · exact .refl s
  · exact (((vheOnly_fset s _ _ _).trans (vheOnly_fset _ _ _ _)).trans
      (forUpTo_rel .refl .trans (fun n s => (keepsTodo_floorSlot n s).1) 2601 _)).trans (vheOnly_vheSet _ _)

theorem vheOnly_ancientSlot (sl : Nat) (s : State) : VheOnly s (ancientSlot sl s) := by
  unfold ancientSlot
  split
  · exact vheOnly_fset s _ _ _
  · exact .refl s

theorem vheOnly_epochStart (tov : Nat) (s : State) : VheOnly s (epochStart tov s) := by
  have hold : VheOnly s (forUpTo 2601 ancientSlot s) := forUpTo_rel .refl .trans vheOnly_ancientSlot 2601 s
  unfold epochStart
  simp only
  split
  · exact hold
  · split
    · exact hold.trans (vheOnly_setWindow _ _)
    · exact (hold.trans (vheOnly_recentre _ _)).trans (vheOnly_rebaseZ _ _)

theorem vheOnly_scrubWay (k : Nat) (s : State) : VheOnly s (scrubWay k s) := by
  unfold scrubWay
  simp only
  split
  · exact .refl s
  · exact (keepsTodo_staleGone _ s).1.trans (vheOnly_vheSet _ _)

theorem vheOnly_scrub (s : State) : VheOnly s (scrub s) := by
  unfold scrub
  exact ((foldl_rel .refl .trans (fun s k => vheOnly_scrubWay k s) _ s).trans
    (foldl_rel .refl .trans (fun s w => (keepsTodo_staleGone w s).1) _ _)).trans (vheOnly_vheSet _ _)

theorem vheOnly_offerPoint (pose : Pose) (noPose : Bool) (a : List (Nat × VhePoint) × State) (p : DeskewedPoint) :
    VheOnly a.2 (offerPoint pose noPose a p).2 := by
  have hin : VheOnly a.2 (tallyUp VHE_PTS_IN 0 1 a.2) := (keepsTodo_tallyUp _ _ _ _).1
  unfold offerPoint
  simp only
  split
  · exact hin.trans (keepsTodo_tallyUp _ _ _ _).1
  · split
    · exact hin.trans (keepsTodo_tallyUp _ _ _ _).1
    · split
      · exact hin.trans (keepsTodo_tallyUp _ _ _ _).1
      · exact hin

theorem vheOnly_offerPoints (pose : Pose) (noPose : Bool) (ps : List DeskewedPoint) (a : List (Nat × VhePoint) × State) :
    VheOnly a.2 (ps.foldl (offerPoint pose noPose) a).2 := by
  induction ps generalizing a with
  | nil => exact .refl _
  | cons p ps ih => exact (vheOnly_offerPoint pose noPose a p).trans (ih _)

/-- The beginning of VOXEL changes registers and the VHE alone. -/
theorem vheOnly_voxelStart (r : SliceRec) (s : State) : VheOnly s (voxelStart r s) := by
  have hnow : VheOnly s (fset (vheFresh s) VHE_EPOCH VHE_EPOCH_NOW (sliceEpoch r (vheFresh s) % 64)) :=
    (vheOnly_vheSet _ s).trans (vheOnly_fset _ _ _ _)
  unfold voxelStart
  simp only
  generalize fset (vheFresh s) VHE_EPOCH VHE_EPOCH_NOW (sliceEpoch r (vheFresh s) % 64) = s2 at hnow
  have hepoch : VheOnly s (if epochFirst r s2 = true then epochStart r.tov s2 else s2) := by
    split
    · exact hnow.trans (vheOnly_epochStart _ _)
    · exact hnow
  generalize (if epochFirst r s2 = true then epochStart r.tov s2 else s2) = s3 at hepoch
  have hscrub := (hepoch.trans (vheOnly_vheSet { s3.vhe with initHold := s3.vhe.initHold || s3.ego.mode == egoInit } s3)).trans
    (vheOnly_scrub _)
  split
  · exact hscrub
  · exact ((hscrub.trans (vheOnly_offerPoints _ _ r.deskewed ([], _))).trans (keepsTodo_tallyUp _ _ _ _).1).trans
      (vheOnly_vheSet _ _)

end Sys2Proof.Stages
end

section
/-! Proofs. The beginnings of VOXEL, CAMERA and FUSE (R161, R163 to R169). -/
namespace Sys2Proof.Stages

open Sys2Proof Sys2Proof.Machine

/-! ## The CAMERA and FUSE stages (R161, R163 to R169) -/

/-- From s to t only the camera lanes have changed. -/
def LanesOnly (s t : State) : Prop := ∃ l, t = { s with lanes := l }

theorem LanesOnly.refl (s : State) : LanesOnly s s := ⟨_, rfl⟩

theorem LanesOnly.trans {a b c : State} : LanesOnly a b → LanesOnly b c → LanesOnly a c := by
  rintro ⟨l, rfl⟩ ⟨l', rfl⟩; exact ⟨l', rfl⟩

/-- The frames that a slice lifts are held in the lanes. -/
theorem lanesOnly_holdBuffers (r : SliceRec) (s : State) : LanesOnly s (holdBuffers r s) :=
  foldl_rel .refl .trans (fun _ _ => ⟨_, rfl⟩) _ s

/-- The strips of a camera phase change the lanes and the slices, of which the stages stay. -/
structure StripStep (st seq : Nat) (s t u : State) : Prop where
  frame : ∃ x l, u = { t with slices := x, lanes := l }
  begun : Begun st seq s u

theorem stripStep_stripsAdvance {st seq : Nat} {s t : State} (h : Begun st seq s t) (k n : Nat) :
    StripStep st seq s t (stripsAdvance k n t) := by
  induction n generalizing t with
  | zero => exact ⟨⟨_, _, rfl⟩, h⟩
  | succ n ih =>
    have hstop : StripStep st seq s t t := ⟨⟨_, _, rfl⟩, h⟩
    unfold stripsAdvance
    split
    · exact hstop
    · split
      · exact hstop
      · rename_i x _ _
        split
        · have hdone : Begun st seq s (stripDone k x t) := by
            unfold stripDone
            refine Begun.updSeq (h.of_slices rfl) (fun q => ?_) (fun q => ?_) <;> rfl
          obtain ⟨⟨y, l, hframe⟩, hbegun⟩ := ih hdone
          exact ⟨⟨y, l, hframe⟩, hbegun⟩
        · exact hstop

/-- What the beginning of FUSE may change beside the slices: the registers, the free values, the grid and calibration. -/
def FuseOnly (s t : State) : Prop := ∃ r n g c, t = { s with regs := r, freeCount := n, grid := g, cal := c }

theorem fuseOnly_gridShift (r : SliceRec) (s : State) : FuseOnly s (gridShift r s) := by
  unfold gridShift
  simp only
  split <;> exact ⟨_, _, _, _, rfl⟩

theorem fuseOnly_calResiduals (r : SliceRec) (s : State) : FuseOnly s (calResiduals r s) := by
  unfold calResiduals
  split
  · exact ⟨_, _, _, _, rfl⟩
  · split <;> exact ⟨_, _, _, _, rfl⟩

theorem fuseOnly_fuseStart (r : SliceRec) (level : Nat) (s : State) : FuseOnly s (fuseStart r level s).1 := by
  unfold fuseStart
  simp only
  obtain ⟨r1, n1, g1, c1, h1⟩ := fuseOnly_gridShift r s
  rw [h1]
  obtain ⟨r2, n2, g2, c2, h2⟩ := fuseOnly_calResiduals r (fset (updGrid (fun g => { g with
    fuseDraw := (drawFree (gridShift r s)).1, fuseTov := r.tov
    fuseLevel := if gridOn s = true then effLevel r.half level else 0, zref := signed 32 (nth r.secP 4 0) })
      (drawFree (gridShift r s)).2) CAM_GRID_ST CAM_GRID_ST_LEVEL (if gridOn s = true then effLevel r.half level else 0))
  rw [h1] at h2
  rw [h2]
  exact ⟨_, _, _, _, rfl⟩

/-- A level F section has its 16 header words (R168). -/
theorem header_le_fSection (r : SliceRec) (s : State) : 16 ≤ (fSection r s).length := by
  simp [fSection]

/-- CAMERA_START on the slice that is due changes the slices and the lanes alone. -/
theorem cameraStart_due {s : State} {r : SliceRec} (hd : stageDue sgCamera (hasBegun sgAlign) s = some r)
    (hm : mayGoOn s = true) (hu : unitsUp [flatCamera, flatProjection] s = true) :
    Begun sgCamera r.seq s (cameraStart s) ∧ ∃ x l, cameraStart s = { s with slices := x, lanes := l } := by
  unfold cameraStart
  rw [stageStart_due hd hm hu]
  simp only
  obtain ⟨l, hl⟩ := lanesOnly_holdBuffers r (stageBegin sgCamera r.seq s)
  rw [hl]
  have hb : Begun sgCamera r.seq s { stageBegin sgCamera r.seq s with lanes := l } := (begun_stageBegin _ _ s).of_slices rfl
  generalize dueStrips _ _ = xs
  obtain ⟨⟨x, l', hframe⟩, hbegun⟩ := stripStep_stripsAdvance (st := sgCamera) (seq := r.seq)
    (hb.updSeq (k := r.seq) (f := fun q => { q with strips := xs }) (fun _ => rfl) (fun _ => rfl)) r.seq xs.length
  exact ⟨hbegun, x, l', hframe⟩

/-- VOXEL_START on the slice that is due changes the registers, the VHE and the slices alone. -/
theorem voxelBegin_due {s : State} {r : SliceRec} (hd : stageDue sgVoxel (hasEnded sgAlign) s = some r)
    (hm : mayGoOn s = true) (hu : unitsUp [flatVhe] s = true) (hc : fbit s VHE_STATUS VHE_STATUS_CLEARING = false) :
    Begun sgVoxel r.seq s (voxelBegin s) ∧ ∃ x g v, voxelBegin s = { s with slices := x, regs := g, vhe := v } := by
  unfold voxelBegin
  rw [if_neg (by simp [hc]), stageStart_due hd hm hu]
  obtain ⟨g, v, h⟩ := vheOnly_voxelStart r (stageBegin sgVoxel r.seq s)
  simp only [h]
  exact ⟨(begun_stageBegin _ _ s).of_slices rfl, _, g, v, rfl⟩

/-- FUSE_START on the slice that is due: its number's slices have a level F section. -/
theorem fuseBegin_due {s : State} {r : SliceRec}
    (hd : stageDue sgFuse (fun r => hasEnded sgVoxel r && hasEnded sgCamera r) s = some r)
    (hm : mayGoOn s = true) (hu : unitsUp [flatProjection] s = true) :
    Begun sgFuse r.seq s (fuseBegin s) ∧ (∀ q ∈ (fuseBegin s).slices, q.seq = r.seq → 16 ≤ q.secF.length)
      ∧ ∃ x g n d c, fuseBegin s = { s with slices := x, regs := g, freeCount := n, grid := d, cal := c } := by
  unfold fuseBegin
  rw [stageStart_due hd hm hu]
  simp only
  obtain ⟨g, n, d, c, h⟩ := fuseOnly_fuseStart r (startLevel sgFuse r s) (stageBegin sgFuse r.seq s)
  have hsec : 16 ≤ (fuseStart r (startLevel sgFuse r s) (stageBegin sgFuse r.seq s)).2.length := header_le_fSection _ _
  have hb : Begun sgFuse r.seq s (fuseStart r (startLevel sgFuse r s) (stageBegin sgFuse r.seq s)).1 :=
    (begun_stageBegin _ _ s).of_slices (by rw [h])
  refine ⟨hb.updSeq (fun _ => rfl) (fun _ => rfl), fun q hq hseq => ?_, _, g, n, d, c, by rw [updSeq_frame, h]; rfl⟩
  obtain ⟨q0, -, rfl⟩ := mem_updSeq hq
  split at hseq
  · rename_i hk
    simpa [hk] using hsec
  · exact absurd hseq ‹_›

/-- POINT_INSERT with a slice in VOXEL is the lane's insertion at that slice's level. -/
theorem insertNext_on {lane : Nat} {s : State} {r : SliceRec} (hr : s.slices.find? (stageOn sgVoxel) = some r)
    (hu : unitsUp [flatVhe] s = true) : insertNext lane s = pointInsert lane (nth r.levels sgVoxel 0) s := by
  simp [insertNext, hr, hu]

/-- Settles O28: each stage begins through stageStart on the slice that is due, and each engine's work keeps to its own
part of the state. -/
theorem stagesBeginOnTheOldestReadySlice : Obligations.StagesBeginOnTheOldestReadySlice := by
  unfold Obligations.StagesBeginOnTheOldestReadySlice
  intro s hrun
  refine ⟨fun r hd hm hu hc => gives_onMain rfl hrun ?_, fun r hd hm hu => gives_onMain rfl hrun ?_,
    fun r hd hm hu => gives_onMain rfl hrun ?_, fun lane r p ps hr hu hp => gives_onMain rfl hrun ?_⟩
  · obtain ⟨hb, x, g, v, h⟩ := voxelBegin_due hd hm hu hc
    exact ⟨hb.seqs, hb.begun, memoryKept_of_eq (by rw [h]) (by rw [h]) (by rw [h])⟩
  · obtain ⟨hb, x, l, h⟩ := cameraStart_due hd hm hu
    exact ⟨hb.seqs, hb.begun, by rw [h]⟩
  · obtain ⟨hb, hsec, x, g, n, d, c, h⟩ := fuseBegin_due hd hm hu
    exact ⟨hb.seqs, fun q hq hs => ⟨hb.begun q hq hs, hsec q hq hs⟩, memoryKept_of_eq (by rw [h]) (by rw [h]) (by rw [h])⟩
  · rw [insertNext_on hr hu]
    obtain ⟨⟨g, v, h⟩, htodo⟩ := pointInsert_cons hp lane (nth r.levels sgVoxel 0)
    exact ⟨htodo, by rw [h]⟩

end Sys2Proof.Stages
end

section
/-! Proofs. The handshake rate: the canaries' reports and the lowest of them (R17). -/
namespace Sys2Proof.Stages

open Sys2Proof Sys2Proof.Machine

/-! ## The canaries (R17, R415) -/

/-- The registers that flagging a target writes: CUP_SPARE and the event log's counts. -/
abbrev FlagRegs (a : Nat) : Prop := a = CUP_SPARE ∨ a = CUP_LOG_NEXT ∨ a = CUP_LOG_OVERWRITES

theorem writesIn_logEvent (code block x y : Nat) (s : State) : WritesIn FlagRegs s (logEvent code block x y s) :=
  fun hs => ⟨regsWf_logEvent hs _ _ _ _, fun _ ha =>
    rd_logEvent_ne hs _ _ _ _ (fun e => ha (.inr (.inl e))) (fun e => ha (.inr (.inr e)))⟩

theorem writesIn_flagTarget (t cause : Nat) (s : State) : WritesIn FlagRegs s (flagTarget t cause s) := by
  unfold flagTarget
  split
  · exact .of_regs rfl
  split
  · exact .refl s
  · have hshow : WritesIn FlagRegs s (showBt (updBt (fun b => { b with queue := b.queue ++ [(t, cause)] }) s)) :=
      ((WritesIn.of_regs rfl).fset (.inl rfl) _ _).fset (.inl rfl) _ _
    exact hshow.trans (writesIn_logEvent _ _ _ _ _)

/-- A 16-bit field that a clamped value is written to reads back that value. -/
theorem fget_fset_clamped {s : State} (hs : RegsWf s) {f : Bits} (hf : f.fits) (hw : bitsWidth f = 16) (a v : Nat) :
    fget (fset s a f (clampNat 65535 v)) a f = min 65535 v := by
  rw [fget_fset_same hs hf, hw]
  unfold clampNat
  split <;> omega

/-- A canary's report: its rate in its register, and its drift (R17, R415). -/
def noteCanary (s : State) (e : Nat × Nat) : State :=
  canaryDrift e.2 (e.1 / 10) (fset s (CUP_CANARY e.2) CUP_CANARY_RATE (clampNat 65535 (e.1 / 10)))

/-- A report writes its canary's register and what flagging a unit writes. -/
theorem writesIn_noteCanary (s : State) (e : Nat × Nat) :
    WritesIn (fun a => a = CUP_CANARY e.2 ∨ FlagRegs a) s (noteCanary s e) := by
  unfold noteCanary canaryDrift
  simp only
  split
  · exact (((WritesIn.refl s).fset (.inl rfl) _ _).fset (.inl rfl) _ _).trans
      ((writesIn_flagTarget _ _ _).mono fun _ => .inr)
  · exact ((WritesIn.refl s).fset (.inl rfl) _ _).fset (.inl rfl) _ _

/-- After a report the canary's RATE is the rate reported, as far as it fits. -/
theorem rate_noteCanary {s : State} (hs : RegsWf s) {e : Nat × Nat} (he : e.2 < 64) :
    fget (noteCanary s e) (CUP_CANARY e.2) CUP_CANARY_RATE = min 65535 (e.1 / 10) := by
  have hset : fget (fset s (CUP_CANARY e.2) CUP_CANARY_RATE (clampNat 65535 (e.1 / 10))) (CUP_CANARY e.2) CUP_CANARY_RATE
      = min 65535 (e.1 / 10) := fget_fset_clamped hs ⟨by decide, by decide⟩ rfl _ _
  have hwf := regsWf_fset hs (CUP_CANARY e.2) CUP_CANARY_RATE (clampNat 65535 (e.1 / 10))
  have hne : ¬FlagRegs (CUP_CANARY e.2) := by
    simp only [FlagRegs, CUP_CANARY, CUP_SPARE, CUP_LOG_NEXT, CUP_LOG_OVERWRITES]; omega
  unfold noteCanary canaryDrift
  simp only
  split
  · rw [(writesIn_flagTarget _ _ _).fget (regsWf_fset hwf _ _ _) hne,
      fget_fset_field hwf ⟨by decide, by decide⟩ (by decide) _ _ (by decide), hset]
  · rw [fget_fset_field hwf ⟨by decide, by decide⟩ (by decide) _ _ (by decide), hset]

/-- The registers of the canaries from number k on. -/
abbrev CanaryRegs (k : Nat) (a : Nat) : Prop := (∃ i, k ≤ i ∧ i < 64 ∧ a = CUP_CANARY i) ∨ FlagRegs a

/-- The reports of canaries k, k + 1, … write those canaries' registers. -/
theorem writesIn_noteCanaries (cs : List Nat) (k : Nat) (hk : k + cs.length ≤ 64) (s : State) :
    WritesIn (CanaryRegs k) s ((cs.zipIdx k).foldl noteCanary s) := by
  induction cs generalizing k s with
  | nil => exact .refl s
  | cons c cs ih =>
    simp only [List.length_cons] at hk
    refine ((writesIn_noteCanary s (c, k)).mono ?_).trans ((ih (k + 1) (by omega) _).mono ?_)
    · exact fun a => Or.imp_left fun h => ⟨k, Nat.le_refl k, by omega, h⟩
    · exact fun a => Or.imp_left fun ⟨i, hi, hi', h⟩ => ⟨i, by omega, hi', h⟩

/-- After the reports of canaries k, k + 1, … each shows its own rate. -/
theorem rate_noteCanaries {s : State} (hs : RegsWf s) (cs : List Nat) (k : Nat) (hk : k + cs.length ≤ 64) {i : Nat}
    (hi : i < cs.length) : fget ((cs.zipIdx k).foldl noteCanary s) (CUP_CANARY (k + i)) CUP_CANARY_RATE
      = min 65535 (nth cs i 0 / 10) := by
  induction cs generalizing k s i with
  | nil => simp at hi
  | cons c cs ih =>
    simp only [List.length_cons] at hk hi
    have hwf := (writesIn_noteCanary s (c, k) hs).1
    cases i with
    | zero =>
      have hlater : ¬CanaryRegs (k + 1) (CUP_CANARY (k + 0)) := by
        simp only [CanaryRegs, FlagRegs, CUP_CANARY, CUP_SPARE, CUP_LOG_NEXT, CUP_LOG_OVERWRITES]; omega
      rw [List.zipIdx_cons, List.foldl_cons, (writesIn_noteCanaries cs (k + 1) (by omega) _).fget hwf hlater]
      exact rate_noteCanary hs (by simp only; omega)
    | succ i =>
      rw [List.zipIdx_cons, List.foldl_cons, show k + (i + 1) = k + 1 + i by omega, ih hwf (k + 1) (by omega) (by omega)]
      simp [nth]

/-! ## The lowest count -/

/-- A running minimum is at most its start and every element, and is one of them. -/
theorem foldl_min_spec (l : List Nat) (m : Nat) :
    (l.foldl min m = m ∨ l.foldl min m ∈ l) ∧ l.foldl min m ≤ m ∧ ∀ c ∈ l, l.foldl min m ≤ c := by
  induction l generalizing m with
  | nil => simp
  | cons c l ih =>
    obtain ⟨hmem, hle, hall⟩ := ih (min m c)
    simp only [List.foldl_cons, List.mem_cons, forall_eq_or_imp]
    refine ⟨?_, by omega, by omega, hall⟩
    rcases hmem with h | h
    · rw [h]; omega
    · exact .inr (.inr h)

/-- The lowest of the counts is one of them and at most each. -/
theorem lowest_spec {counts : List Nat} (h : counts ≠ []) : counts.foldl min (nth counts 0 0) ∈ counts
    ∧ ∀ c ∈ counts, counts.foldl min (nth counts 0 0) ≤ c := by
  obtain ⟨hmem, -, hall⟩ := foldl_min_spec counts (nth counts 0 0)
  refine ⟨hmem.elim (fun e => ?_) id, hall⟩
  rw [e]
  cases counts with
  | nil => exact absurd rfl h
  | cons c cs => exact List.mem_cons_self

/-- RATE_UPDATE: RATE is a tenth of the lowest count, and each canary shows a tenth of its own, as far as they fit. -/
theorem rateUpdate_rates {s : State} (hs : RegsWf s) {counts : List Nat} (h : counts.length = 64) :
    fget (rateUpdate counts s) SLC_GOV_RATE SLC_GOV_RATE_RATE = min 65535 (counts.foldl min (nth counts 0 0) / 10)
      ∧ ∀ i < 64, fget (rateUpdate counts s) (CUP_CANARY i) CUP_CANARY_RATE = min 65535 (nth counts i 0 / 10) := by
  unfold rateUpdate
  rw [if_neg (by simp [h])]
  simp only
  generalize counts.foldl min (nth counts 0 0) = low
  generalize (counts.findIdx? (fun c => c == low)).getD 0 = ix
  have hwf1 := regsWf_fset hs SLC_GOV_RATE SLC_GOV_RATE_RATE (clampNat 65535 (low / 10))
  have hrate : fget (fset (fset s SLC_GOV_RATE SLC_GOV_RATE_RATE (clampNat 65535 (low / 10))) SLC_GOV_RATE SLC_GOV_RATE_SLOWEST ix)
      SLC_GOV_RATE SLC_GOV_RATE_RATE = min 65535 (low / 10) := by
    rw [fget_fset_field hwf1 ⟨by decide, by decide⟩ (by decide) _ _ (by decide)]
    exact fget_fset_clamped hs ⟨by decide, by decide⟩ rfl _ _
  have hwf2 := regsWf_fset hwf1 SLC_GOV_RATE SLC_GOV_RATE_SLOWEST ix
  generalize fset (fset s SLC_GOV_RATE SLC_GOV_RATE_RATE (clampNat 65535 (low / 10))) SLC_GOV_RATE SLC_GOV_RATE_SLOWEST ix = s2
    at hrate hwf2
  have hcan := writesIn_noteCanaries counts 0 (by omega) s2
  have hwf3 := (hcan hwf2).1
  have hgov (t : State) (l : List SliceRec) : GovStep t (l.foldl (fun s r => checkpoint r.seq s) t) :=
    foldl_rel .refl .trans (fun s r => govStep_checkpoint r.seq s) l t
  refine ⟨?_, fun i hi => ?_⟩
  · refine ((hgov _ _).writes.fget hwf3 (by decide) _).trans (((hcan.fget hwf2 ?_ _)).trans hrate)
    simp only [CanaryRegs, FlagRegs, CUP_CANARY, CUP_SPARE, CUP_LOG_NEXT, CUP_LOG_OVERWRITES, SLC_GOV_RATE]; omega
  · refine ((hgov _ _).writes.fget hwf3 ?_ _).trans ?_
    · simp only [GovRegs, CUP_CANARY, SLC_GOV_LEVEL, SLC_GOV_RAISES]; omega
    · have := rate_noteCanaries hwf2 counts 0 (by omega) (i := i) (by omega)
      rwa [Nat.zero_add] at this

end Sys2Proof.Stages
end

section
/-! Proofs. The boundary and the close of a slice (R45, R106, R301). -/
namespace Sys2Proof.Stages

open Sys2Proof Sys2Proof.Machine

/-! ## A compare in time (R47) -/

/-- The registers that the firing of compare n writes besides its status. -/
abbrev CmpRegs (n a : Nat) : Prop := a = BLF_CMP_VAL n ∨ a = BLF_CMP_CTRL n

/-- A compare at its target is due now. -/
theorem dueLin_reached {n : Nat} {s : State} (h : cmpReached n s = true) : dueLin (fget s (BLF_CMP_VAL n) fWord) s = lin s := by
  unfold cmpReached at h
  rw [decide_eq_true_eq] at h
  simp [dueLin, h]

/-- A compare that is armed in time and at its target fires at once. -/
theorem cmpRunAndFire_reached {n : Nat} {s : State} (ha : fbit s (BLF_CMP_CTRL n) BLF_CMP_CTRL_ARM = true)
    (hr : cmpReached n s = true) (hl : cmpLateAt n s = none) : cmpRunAndFire n s = cmpFires n s := by
  unfold cmpRunAndFire
  rw [if_pos ha, hl]
  simp only
  rw [dueLin_reached hr, runTo_past (show lin s * unitsPerNs ≤ s.time from Nat.div_mul_le_self _ _)]

/-- A compare below 8 that fires in time: FIRED, then its reload or disarming. -/
theorem cmpFires_inTime {n : Nat} {s : State} (hn : n < 8) (hl : cmpLateAt n s = none) :
    ∃ t l, WritesIn (CmpRegs n) (fon s (BLF_CMP_STATUS n) BLF_CMP_STATUS_FIRED) t
      ∧ (∃ g, t = { s with regs := g }) ∧ cmpFires n s = { t with cmpLate := l } := by
  have hirq (b : Prop) : ¬(8 ≤ n ∧ b) := fun h => absurd h.1 (by omega)
  unfold cmpFires
  simp only [hl, Option.isSome_none, Bool.false_eq_true, if_false, if_neg (hirq _)]
  split
  · exact ⟨_, _, (WritesIn.refl _).fset (.inr rfl) _ _, ⟨_, rfl⟩, rfl⟩
  · exact ⟨_, _, (WritesIn.refl _).fset (.inl rfl) _ _, ⟨_, rfl⟩, rfl⟩

/-- What the firing in time of a compare below 8 leaves: its FIRED bit, and every register but the compare's own. -/
structure Fired (n : Nat) (s t : State) : Prop where
  frame : ∃ g l, t = { s with regs := g, cmpLate := l }
  writes : WritesIn (fun a => a = BLF_CMP_STATUS n ∨ CmpRegs n a) s t
  fired : RegsWf s → fbit t (BLF_CMP_STATUS n) BLF_CMP_STATUS_FIRED = true

theorem fired_cmpRunAndFire {n : Nat} {s : State} (hn : n < 8) (ha : fbit s (BLF_CMP_CTRL n) BLF_CMP_CTRL_ARM = true)
    (hr : cmpReached n s = true) (hl : cmpLateAt n s = none) : Fired n s (cmpRunAndFire n s) := by
  rw [cmpRunAndFire_reached ha hr hl]
  obtain ⟨t, l, hw, ⟨g, rfl⟩, h⟩ := cmpFires_inTime hn hl
  rw [h]
  have hne : ¬CmpRegs n (BLF_CMP_STATUS n) := by
    simp only [CmpRegs, BLF_CMP_STATUS, BLF_CMP_VAL, BLF_CMP_CTRL]; omega
  refine ⟨⟨g, l, rfl⟩, ?_, fun hs => ?_⟩
  · exact ((WritesIn.refl s).fset (.inl rfl) _ _).trans ((hw.mono fun _ => .inr).trans (.of_regs rfl))
  · have hkept := hw.fget (regsWf_fset hs _ _ _) hne BLF_CMP_STATUS_FIRED
    have hset := fget_fset_same hs (f := BLF_CMP_STATUS_FIRED) ⟨by decide, by decide⟩ (BLF_CMP_STATUS n) 1
    exact beq_iff_eq.mpr (hkept.trans hset)

/-! ## The close of a slice (R106) -/

/-- SLICE_CLOSE of a slice whose ToV has come: compare 2 fires, the slice closes and INGEST kicks. -/
theorem sliceClose_due {s : State} {r : SliceRec} {rest : List SliceRec}
    (ha : fbit s (BLF_CMP_CTRL 2) BLF_CMP_CTRL_ARM = true) (hr : cmpReached 2 s = true) (hl : cmpLateAt 2 s = none)
    (hs : s.slices = r :: rest) (ho : r.closed = false) (hd : r.tov ≤ lin s) :
    sliceClose s = sendUp (.kick sgIngest r.seq) (closeSlice (cmpRunAndFire 2 s)) := by
  obtain ⟨g, l, h⟩ := (fired_cmpRunAndFire (by decide) ha hr hl).frame
  have hfind : (cmpRunAndFire 2 s).slices.find? (fun r => !r.closed) = some r := by rw [h]; simp [hs, ho]
  have hlin : lin (cmpRunAndFire 2 s) = lin s := by rw [h]; rfl
  unfold sliceClose
  rw [if_neg (by simp [ha])]
  simp only
  rw [hfind]
  simp only
  rw [if_pos (by rw [hlin]; exact hd)]

/-- The oldest slice, when open, is the one that closes. -/
theorem closeSlice_oldest {s : State} {r : SliceRec} {rest : List SliceRec} (hs : s.slices = r :: rest) (ho : r.closed = false) :
    ∃ q, (closeSlice s).slices = q :: rest ∧ q.seq = r.seq ∧ q.closed = true := by
  simp [closeSlice, hs, updOpen, ho]

/-! ## The boundary (R45, R301) -/

/-- The registers of the blocks above the time base. -/
abbrev AboveBelfry (a : Nat) : Prop := 0x00400000 ≤ a

/-- What a boundary may change between the firing of compare 0 and the start of its slice. -/
structure BoundaryStep (s t : State) : Prop where
  frame : ∃ g tr h al c, t = { s with regs := g, trig := tr, holdSeen := h, aln := al, cal := c }
  writes : WritesIn AboveBelfry s t

theorem BoundaryStep.refl (s : State) : BoundaryStep s s := ⟨⟨_, _, _, _, _, rfl⟩, .refl s⟩

theorem BoundaryStep.trans {a b c : State} (h : BoundaryStep a b) (h' : BoundaryStep b c) : BoundaryStep a c := by
  obtain ⟨⟨_, _, _, _, _, rfl⟩, hw⟩ := h
  obtain ⟨⟨_, _, _, _, _, rfl⟩, hw'⟩ := h'
  exact ⟨⟨_, _, _, _, _, rfl⟩, hw.trans hw'⟩

theorem boundaryStep_fset {a : Nat} (ha : AboveBelfry a) (f : Bits) (v : Nat) (s : State) : BoundaryStep s (fset s a f v) :=
  ⟨⟨_, _, _, _, _, rfl⟩, (WritesIn.refl s).fset ha f v⟩

theorem boundaryStep_trigBoundary (b n : Nat) (s : State) : BoundaryStep s (trigBoundary b n s) := by
  unfold trigBoundary
  simp only
  split
  · split <;> exact ⟨⟨_, _, _, _, _, rfl⟩, .of_regs rfl⟩
  · exact .refl s

theorem boundaryStep_restartBudgets (s : State) : BoundaryStep s (restartBudgets s) :=
  forUpTo_rel .refl .trans (fun _ s => boundaryStep_fset (by unfold VEC_WRB; omega) _ _ s) 136 s

/-- With no slice in processing there is none whose HOLDOVER note is due. -/
theorem boundaryStep_holdAt (b : Nat) {s : State} (h : s.slices = []) : BoundaryStep s (holdAt b s) := by
  cases s
  simp only at h
  subst h
  exact ⟨⟨_, _, _, _, _, rfl⟩, .of_regs rfl⟩

theorem boundaryStep_latchOffsets (s : State) : BoundaryStep s (latchOffsets s) :=
  forUpTo_rel .refl .trans (fun _ _ => ⟨⟨_, _, _, _, _, rfl⟩, .of_regs rfl⟩) 32 s

theorem boundaryStep_fsets {a : Nat → Nat} (ha : ∀ i, AboveBelfry (a i)) (v : Nat → Nat) (s : State) :
    BoundaryStep s (forUpTo 3 (fun i s => fset s (a i) fWord (v i)) s) :=
  forUpTo_rel .refl .trans (fun i s => boundaryStep_fset (ha i) _ _ s) 3 s

/-- A calibration step is composed into the registers of its sensor, whatever the sensor's number. -/
theorem boundaryStep_calApplyOne (s : State) (u : CalUpdate) : BoundaryStep s (calApplyOne s u) := by
  have htheta (i : Nat) : AboveBelfry (CAM_DTHETA u.sensor i) := by unfold CAM_DTHETA; omega
  have hdt (i : Nat) : AboveBelfry (CAM_DT u.sensor i) := by unfold CAM_DT; omega
  have htoff : AboveBelfry (SLC_CH_TOFF_CAL u.sensor) := by unfold SLC_CH_TOFF_CAL; omega
  exact ((boundaryStep_fsets htheta _ s).trans (boundaryStep_fsets hdt _ _)).trans (boundaryStep_fset htoff _ _ _)

theorem boundaryStep_calApply (s : State) : BoundaryStep s (calApply s) :=
  .trans (foldl_rel .refl .trans boundaryStep_calApplyOne _ s) ⟨⟨_, _, _, _, _, rfl⟩, .of_regs rfl⟩

/-- The slice of a boundary starts after the offsets and the corrections in force have been taken. -/
theorem openSlice_eq (b : Nat) (s : State) : ∃ t, BoundaryStep s t ∧ openSlice b s
    = { t with slices := t.slices ++ [freshSlice t.nextSeq b (b + sliceLen t) t], nextSeq := t.nextSeq + 1 } := by
  unfold openSlice
  refine ⟨_, ?_, rfl⟩
  split
  · exact boundaryStep_latchOffsets s
  · exact (boundaryStep_calApply s).trans (boundaryStep_latchOffsets _)

/-- With nothing due for ALIGN its start does nothing. -/
theorem alignStart_idle {s : State} (h : stageDue sgAlign (fun r => decide (r.tov ≤ lin s)) s = none) : alignStart s = s := by
  unfold alignStart
  rw [h]

/-- A fresh slice alone in processing waits for its ToV. -/
theorem alignStart_fresh {s t : State} {q start tov : Nat} (hs : s.slices = [freshSlice q start tov t]) (hlt : lin s < tov) :
    alignStart s = s := by
  refine alignStart_idle ?_
  have hnot : decide ((freshSlice q start tov t).tov ≤ lin s) = false := decide_eq_false (Nat.not_le.mpr hlt)
  simp only [stageDue, hs, List.any_cons, List.any_nil, List.find?_cons, hnot, Bool.and_false, List.find?_nil]
  split <;> rfl

theorem sliceLen_pos (s : State) : 0 < sliceLen s := by unfold sliceLen; split <;> decide

/-- Before its slice starts, a boundary changes what a compare's firing and the boundary's own steps may change. -/
theorem boundary_prepared {s : State} (ha : fbit s (BLF_CMP_CTRL 0) BLF_CMP_CTRL_ARM = true) (hr : cmpReached 0 s = true)
    (hl : cmpLateAt 0 s = none) (hrun : runState s = stRunning) (hno : s.slices = [])
    (hp : fbit s DEV_RUN DEV_RUN_HALF_PENDING = false) (hs : RegsWf s) :
    ∃ u, BoundaryStep (cmpRunAndFire 0 s) u
      ∧ sliceBoundary s = alignStart (openSlice (lin s) (sendUp (.tick (lin s % 2 ^ 32) (some s.nextSeq)) u)) := by
  have hfire := fired_cmpRunAndFire (by decide) ha hr hl
  obtain ⟨g, l, hframe⟩ := hfire.frame
  have hdev (f : Bits) : fget (cmpRunAndFire 0 s) DEV_RUN f = fget s DEV_RUN f := hfire.writes.fget hs (by decide) f
  have hmode : modeAt (lin s) (cmpRunAndFire 0 s) = cmpRunAndFire 0 s := by
    have : fbit (cmpRunAndFire 0 s) DEV_RUN DEV_RUN_HALF_PENDING = false := by rw [fbit, hdev]; exact hp
    simp [modeAt, this]
  have htrig : BoundaryStep (cmpRunAndFire 0 s) (forUpTo 16 (trigBoundary (lin s)) (cmpRunAndFire 0 s)) :=
    forUpTo_rel .refl .trans (boundaryStep_trigBoundary _) 16 _
  have hslices : (forUpTo 16 (trigBoundary (lin s)) (cmpRunAndFire 0 s)).slices = [] := by
    obtain ⟨_, _, _, _, _, h⟩ := htrig.frame
    rw [h, hframe, ← hno]
  have hstep := (htrig.trans (boundaryStep_holdAt (lin s) hslices)).trans (boundaryStep_restartBudgets _)
  refine ⟨_, hstep, ?_⟩
  unfold sliceBoundary
  rw [if_neg (by simp [ha])]
  simp only
  rw [dueLin_reached hr, hmode]
  generalize restartBudgets (holdAt (lin s) (forUpTo 16 (trigBoundary (lin s)) (cmpRunAndFire 0 s))) = u at hstep
  have hstate : runState u = stRunning :=
    (hstep.writes.fget (hfire.writes hs).1 (by decide) _).trans ((hdev _).trans hrun)
  have hseq : u.nextSeq = s.nextSeq := by
    obtain ⟨_, _, _, _, _, h⟩ := hstep.frame
    rw [h, hframe]
  have hbegin : runBegin (lin s) u = u := by
    unfold runBegin
    rw [hstate]
    exact if_neg (fun h => absurd h.1 (by decide))
  rw [hbegin, boundarySlice, if_pos hstate, hseq]

/-- SLICE_BOUNDARY in RUNNING with no slice in processing: what it leaves of the state. -/
theorem sliceBoundary_due {s : State} (ha : fbit s (BLF_CMP_CTRL 0) BLF_CMP_CTRL_ARM = true) (hr : cmpReached 0 s = true)
    (hl : cmpLateAt 0 s = none) (hrun : runState s = stRunning) (hno : s.slices = [])
    (hp : fbit s DEV_RUN DEV_RUN_HALF_PENDING = false) (hs : RegsWf s) :
    ∃ g l tr h al c x, sliceBoundary s = { s with
        regs := g, cmpLate := l, trig := tr, holdSeen := h, aln := al, cal := c
        slices := [freshSlice s.nextSeq (lin s) (lin s + sliceLen s) x], nextSeq := s.nextSeq + 1
        bridgeUp := s.bridgeUp ++ [.tick (lin s % 2 ^ 32) (some s.nextSeq)] }
      ∧ fbit (sliceBoundary s) (BLF_CMP_STATUS 0) BLF_CMP_STATUS_FIRED = true := by
  have hfire := fired_cmpRunAndFire (by decide) ha hr hl
  obtain ⟨g, l, hframe⟩ := hfire.frame
  obtain ⟨u, hstep, hbound⟩ := boundary_prepared ha hr hl hrun hno hp hs
  obtain ⟨t, hopen, heq⟩ := openSlice_eq (lin s) (sendUp (.tick (lin s % 2 ^ 32) (some s.nextSeq)) u)
  have hwf := (hfire.writes hs).1
  have hall : WritesIn AboveBelfry (cmpRunAndFire 0 s) t := hstep.writes.trans (WritesIn.trans (.of_regs rfl) hopen.writes)
  obtain ⟨g1, tr1, h1, al1, c1, hu⟩ := hstep.frame
  obtain ⟨g2, tr2, h2, al2, c2, ht⟩ := hopen.frame
  have hlen : sliceLen t = sliceLen s := by
    unfold sliceLen fbit
    rw [hall.fget hwf (by decide), hfire.writes.fget hs (by decide)]
  have hfired : fbit t (BLF_CMP_STATUS 0) BLF_CMP_STATUS_FIRED = true := by
    rw [fbit, hall.fget hwf (by decide)]; exact hfire.fired hs
  have htf : t = { s with regs := g2, cmpLate := l, trig := tr2, holdSeen := h2, aln := al2, cal := c2
                          bridgeUp := s.bridgeUp ++ [.tick (lin s % 2 ^ 32) (some s.nextSeq)] } := by
    rw [ht, hu, hframe]; rfl
  have hslices : t.slices = [] := by rw [htf]; exact hno
  have hseq : t.nextSeq = s.nextSeq := by rw [htf]
  rw [hslices, hseq, hlen, List.nil_append] at heq
  have hidle := alignStart_fresh (s := openSlice (lin s) (sendUp (.tick (lin s % 2 ^ 32) (some s.nextSeq)) u)) (t := t)
    (by rw [heq]) (show lin _ < lin s + sliceLen s by
      have : lin (openSlice (lin s) (sendUp (.tick (lin s % 2 ^ 32) (some s.nextSeq)) u)) = lin s := by rw [heq, htf]; rfl
      have := sliceLen_pos s
      omega)
  rw [hbound, hidle, heq]
  exact ⟨_, _, _, _, _, _, t, by rw [htf], hfired⟩

/-- Settles O27: the compares fire at once, since they have reached their targets; the slice that starts is not yet due for
ALIGN, and no report of a canary touches another's register. -/
theorem slicesOpenCloseAndTheHandshakeRateIsMeasured : Obligations.SlicesOpenCloseAndTheHandshakeRateIsMeasured := by
  unfold Obligations.SlicesOpenCloseAndTheHandshakeRateIsMeasured
  intro s hs hrun
  refine ⟨fun ha hr hl hst hno hp => gives_onMain rfl hrun ?_, fun r rest ha hr hl hr0 ho hd => gives_onMain rfl hrun ?_,
    fun counts hc => gives_onMain rfl hrun ?_⟩
  · obtain ⟨g, l, tr, h, al, c, x, heq, hfired⟩ := sliceBoundary_due ha hr hl hst hno hp hs
    exact ⟨by rw [heq]; rfl, by rw [heq], by rw [heq], hfired, memoryKept_of_eq (by rw [heq]) (by rw [heq]) (by rw [heq])⟩
  · rw [sliceClose_due ha hr hl hr0 ho hd]
    have hfire := fired_cmpRunAndFire (by decide) ha hr hl
    obtain ⟨g, l, hframe⟩ := hfire.frame
    have hslices : (cmpRunAndFire 2 s).slices = r :: rest := by rw [hframe]; exact hr0
    refine ⟨closeSlice_oldest hslices ho, ?_, hfire.fired hs, ?_⟩
    · rw [hframe]; rfl
    · rw [hframe]; rfl
  · obtain ⟨hrate, hcan⟩ := rateUpdate_rates hs hc
    have hne : counts ≠ [] := by rintro rfl; simp at hc
    obtain ⟨hmem, hlow⟩ := lowest_spec hne
    exact ⟨⟨_, hmem, hlow, hrate⟩, hcan⟩

end Sys2Proof.Stages
end

section
/-! Proofs. The end of ALIGN, and a pose without a position (R122). -/
namespace Sys2Proof.Stages

open Sys2Proof Sys2Proof.Machine

/-! ## The end of ALIGN (R122)

The record's 20 words need a position of three numbers. A pose is three lists of the model's state that no premise of the
statement measures, so a state whose integrator has no position gives a record of 14 words. -/

/-- ALIGN_END of a closed slice whose stage can end. -/
theorem alignEnd_ending {s : State} {r : SliceRec} (he : stageEnding sgAlign s = some r) (hc : r.closed = true)
    (hu : unitsUp [flatAligner, flatEgo, flatDeskew] s = true) :
    alignEnd s = alignStart (stageDone sgAlign r.seq
      (putSection r.seq offEgo (alignWork r s).ego (updSeq r.seq (fun _ => alignWork r s) s))) := by
  simp [alignEnd, he, hc, hu]

/-- With no rate measured a checkpoint predicts nothing and changes nothing. -/
theorem checkpoint_unmeasured {s : State} (h : govRate s = 0) (seq : Nat) : checkpoint seq s = s := by
  unfold checkpoint
  split
  · rfl
  · rw [if_pos h]

/-- Outside a STOP with ABANDON, and with no rate measured, the end of a stage is its mark. -/
theorem stageDone_unmeasured {s : State} (hg : govRate s = 0) (ha : s.stopAbandon = false) (st seq : Nat) :
    stageDone st seq s = stageMark st seq s := by
  have hstop : stageEnd st seq s = stageMark st seq s := by
    unfold stageEnd stopHere
    exact if_neg (by rw [show (stageMark st seq s).stopAbandon = s.stopAbandon from rfl, ha]; decide)
  unfold stageDone
  rw [hstop]
  exact checkpoint_unmeasured (s := stageMark st seq s) hg seq

/-- The mark of a stage's end leaves its slice's ego record and beginnings alone. -/
theorem slices_stageMark {s : State} {q : SliceRec} (hs : s.slices = [q]) (st : Nat) :
    ∃ p, (stageMark st q.seq s).slices = [p] ∧ p.ego = q.ego ∧ p.begun = q.begun := by
  simp [stageMark, updSeq, hs]

/-- A slice alone in processing that has begun ALIGN leaves nothing due for it. -/
theorem alignStart_begun {s : State} {q : SliceRec} (hs : s.slices = [q]) (hb : hasBegun sgAlign q = true) : alignStart s = s := by
  refine alignStart_idle ?_
  simp only [stageDue, hs, List.find?_cons, hb, Bool.not_true, Bool.false_and, List.find?_nil]
  split <;> rfl

/-- After ALIGN_END of the only slice, with no rate measured, that slice has the ego record of its work. -/
theorem slices_alignEnd {s : State} {r : SliceRec} (he : stageEnding sgAlign s = some r) (hs : s.slices = [r])
    (hc : r.closed = true) (hb : hasBegun sgAlign r = true) (hu : unitsUp [flatAligner, flatEgo, flatDeskew] s = true)
    (hg : govRate s = 0) (ha : s.stopAbandon = false) :
    ∃ p, (alignEnd s).slices = [p] ∧ p.ego = (alignWork r s).ego := by
  rw [alignEnd_ending he hc hu, stageDone_unmeasured (by exact hg) (by exact ha)]
  have hwork : (putSection r.seq offEgo (alignWork r s).ego (updSeq r.seq (fun _ => alignWork r s) s)).slices
      = [alignWork r s] := by
    simp [putSection, ddrPutWords, updSeq, hs]
  obtain ⟨p, hp, hego, hbegun⟩ := slices_stageMark hwork sgAlign
  rw [show (alignWork r s).seq = r.seq from rfl] at hp
  rw [alignStart_begun (q := p) hp (by rw [hasBegun, hbegun]; exact hb)]
  exact ⟨p, hp, hego⟩

/-- A slice of the counterexample: closed, in ALIGN. -/
def aligning : SliceRec := { freshSlice 0 0 0 State.reset with closed := true, begun := 3 }

/-- The counterexample: the state after reset with that slice in processing, and an integrator in INIT whose pose has no
position. -/
def withoutPosition : State :=
  { State.reset with
    slices := [aligning]
    ego := { EgoState.reset with mode := egoInit, pose := ⟨[], qone, vzero, vzero⟩ } }

/-- Without a position the ego record lacks its first six words. -/
theorem egoRecord_withoutPosition : (alignWork aligning withoutPosition).ego.length = 14 := by
  have hpose : poseAt aligning.tov withoutPosition = ⟨⟨[], qone, vzero, vzero⟩, true, false⟩ := rfl
  simp [alignWork, hpose, egoRecord, qrot, qmul, qconj, vadd, vscale, vcross, qone, vzero]

/-- Refutes O29: the first clause gives every ego record 20 words, and ALIGN_END at `withoutPosition`, which meets its
premises, leaves one of 14. -/
theorem not_stagesEndWithAKickAndTheirSection : ¬Obligations.StagesEndWithAKickAndTheirSection := by
  unfold Obligations.StagesEndWithAKickAndTheirSection
  intro h
  have hcanon : StoresCanonical withoutPosition := ⟨rfl, rfl, rfl, rfl⟩
  have hending : stageEnding sgAlign withoutPosition = some aligning := rfl
  have hup : unitsUp [flatAligner, flatEgo, flatDeskew] withoutPosition = true := by decide
  obtain ⟨halign, -⟩ := h aligning withoutPosition hcanon rfl rfl
  obtain ⟨t, hexec, ⟨q, hq, -, -, hlen⟩, -⟩ := halign hending rfl rfl hup
  have ht : alignEnd withoutPosition = t := Host.Outcome.next.inj ((onMain_run rfl).symm.trans hexec)
  obtain ⟨p, hslices, hego⟩ := slices_alignEnd hending rfl rfl rfl hup (by decide) rfl
  rw [← ht, hslices, List.singleton_inj] at hq
  rw [← hq, hego, egoRecord_withoutPosition] at hlen
  exact absurd hlen (by decide)

end Sys2Proof.Stages
end

section
/-! Proofs. What an ingress operation may change, and the operations on one channel's packets (R77 to R95). -/
namespace Sys2Proof.Ingress

open Sys2Proof Sys2Proof.Machine Sys2Proof.Stages

/-! ## Channels -/

/-- Channel n reads as it was put. -/
theorem chGet_chSet {n : Nat} {s : State} (hn : n < s.ing.length) (c : IngChan) : chGet n (chSet n c s) = c := by
  simp [chGet, chSet, nth, setNth, hn]

/-- A channel put as it stands changes nothing. -/
theorem chSet_chGet {n : Nat} {s : State} (hn : n < s.ing.length) : chSet n (chGet n s) s = s := by
  simp [chGet, chSet, nth, setNth, hn]

theorem length_chSet (n : Nat) (c : IngChan) (s : State) : (chSet n c s).ing.length = s.ing.length := by
  simp [chSet, setNth]

/-- What keeps the channels keeps each of them. -/
theorem chGet_congr {s t : State} (h : t.ing = s.ing) (n : Nat) : chGet n t = chGet n s := by rw [chGet, chGet, h]

/-- A bank is in the state it was put in. -/
theorem bankGet_bankSet (b : Nat) (st : BankSt) (c : IngChan) : bankGet b (bankSet b st c) = st := by
  unfold bankGet bankSet
  split <;> rfl

/-- With no passage in flight none arrives. -/
theorem passageDone_none {c : IngChan} (h : c.passage = none) : passageDone c = c := by rw [passageDone, h]

/-- An arriving passage leaves the packets and the flush alone. -/
theorem passageDone_packets (c : IngChan) : (passageDone c).packets = c.packets := by
  unfold passageDone bankSet
  repeat' split
  all_goals rfl

/-- A channel that has a filling bank takes no other. -/
theorem ensureFilling_filling {c : IngChan} (h : bankGet c.fill c = .filling) (en : Bool) : ensureFilling en c = c := by
  have hone : c.bank0 = .filling ∨ c.bank1 = .filling := by
    unfold bankGet at h
    split at h
    · exact .inl h
    · exact .inr h
  unfold ensureFilling
  rw [if_pos]
  rcases hone with h | h <;> simp [h]

/-- Filling a bank leaves the packets and the passage alone. -/
theorem ensureFilling_packets (en : Bool) (c : IngChan) : (ensureFilling en c).packets = c.packets := by
  unfold ensureFilling bankSet
  repeat' split
  all_goals rfl

/-- A last packet that has ended is not in progress. -/
theorem ended_of_boundary {c : IngChan} {p : Packet} (h : inProgress c = false) (hp : c.packets.getLast? = some p) :
    p.ended = true := by
  simpa [inProgress, hp] using h

/-! ## What an ingress operation may change -/

/-- The registers below the aligner's: those of the ingress block and the blocks before it. -/
abbrev BelowAligner (a : Nat) : Prop := a < 0x00400000

/-- What an operation on a channel may change: registers of the ingress block, the channels, what leaves the module, and
the commands that wait for a flush. -/
structure ChanStep (s t : State) : Prop where
  frame : ∃ g o i c, t = { s with regs := g, out := o, ing := i, cmds := c }
  writes : WritesIn BelowAligner s t

theorem ChanStep.refl (s : State) : ChanStep s s := ⟨⟨_, _, _, _, rfl⟩, .refl s⟩

theorem ChanStep.trans {a b c : State} (h : ChanStep a b) (h' : ChanStep b c) : ChanStep a c := by
  obtain ⟨⟨_, _, _, _, rfl⟩, hw⟩ := h
  obtain ⟨⟨_, _, _, _, rfl⟩, hw'⟩ := h'
  exact ⟨⟨_, _, _, _, rfl⟩, hw.trans hw'⟩

theorem chanStep_chSet (n : Nat) (c : IngChan) (s : State) : ChanStep s (chSet n c s) := ⟨⟨_, _, _, _, rfl⟩, .of_regs rfl⟩

theorem chanStep_fset {a : Nat} (ha : BelowAligner a) (f : Bits) (v : Nat) (s : State) : ChanStep s (fset s a f v) :=
  ⟨⟨_, _, _, _, rfl⟩, (WritesIn.refl s).fset ha f v⟩

/-- An operation on a channel reaches no memory. -/
theorem ChanStep.memory {s t : State} (h : ChanStep s t) : MemoryKept s t := by
  obtain ⟨_, _, _, _, rfl⟩ := h.frame
  exact memoryKept_of_eq rfl rfl rfl

/-- An operation on a channel does not change whether a consumer takes packets. -/
theorem ChanStep.consumerTakes {s t : State} (h : ChanStep s t) (hs : RegsWf s) (n : Nat) :
    consumerTakes n t = consumerTakes n s := by
  have hfenced (f : Nat) : unitFenced f t = unitFenced f s := by
    unfold unitFenced fbit
    rw [h.writes.fget hs (by unfold RST_UNIT; omega)]
  have hrole : fget t (SLC_CH_CFG n) SLC_CH_CFG_ROLE = fget s (SLC_CH_CFG n) SLC_CH_CFG_ROLE :=
    h.writes.fget hs (by unfold SLC_CH_CFG; omega) _
  obtain ⟨g, o, i, c, hframe⟩ := h.frame
  have hheld (f : Nat) : unitHeld f t = unitHeld f s := by rw [hframe]; rfl
  have hopen : consuming t = consuming s := by rw [hframe]; rfl
  unfold Machine.consumerTakes alignerTakes
  simp only [hfenced, hrole, hheld, hopen]

/-! ## XOFF (R93) -/

/-- The XOFF state changes ING_STATUS of its channel, and may send a pause frame. -/
theorem xoffUpdate_frame (n : Nat) (s : State) : ∃ o, xoffUpdate n s = { s with regs := (xoffUpdate n s).regs, out := o } := by
  unfold xoffUpdate sendPfc
  simp only
  repeat' split
  all_goals exact ⟨_, rfl⟩

theorem writesIn_xoffUpdate (n : Nat) (s : State) : WritesIn (· = ING_STATUS n) s (xoffUpdate n s) := by
  have hput (b : Bool) : WritesIn (· = ING_STATUS n) s (fput s (ING_STATUS n) ING_STATUS_XOFF b) :=
    (WritesIn.refl s).fset (A := (· = ING_STATUS n)) rfl _ _
  have hsent (b : Bool) (q : Nat) : WritesIn (· = ING_STATUS n) s (sendPfc n q (fput s (ING_STATUS n) ING_STATUS_XOFF b)) :=
    (hput b).trans (.of_regs rfl)
  unfold xoffUpdate
  simp only
  repeat' split
  · exact hsent true _
  · exact hput true
  · exact hsent false _
  · exact hput false
  · exact .refl s

theorem ing_xoffUpdate (n : Nat) (s : State) : (xoffUpdate n s).ing = s.ing := by
  obtain ⟨o, h⟩ := xoffUpdate_frame n s
  rw [h]

theorem chGet_xoffUpdate (m n : Nat) (s : State) : chGet m (xoffUpdate n s) = chGet m s := chGet_congr (ing_xoffUpdate n s) m

theorem chanStep_xoffUpdate {n : Nat} (hn : n < 32) (s : State) : ChanStep s (xoffUpdate n s) := by
  obtain ⟨o, h⟩ := xoffUpdate_frame n s
  exact ⟨⟨_, _, _, _, h⟩, (writesIn_xoffUpdate n s).mono fun a ha => by subst ha; simp only [BelowAligner, ING_STATUS]; omega⟩

/-- A channel put back with its XOFF state. -/
theorem chGet_xoffUpdate_chSet {n : Nat} {s : State} (hn : n < s.ing.length) (c : IngChan) :
    chGet n (xoffUpdate n (chSet n c s)) = c := by
  rw [chGet_xoffUpdate, chGet_chSet hn]

theorem length_xoffUpdate_chSet (n : Nat) (c : IngChan) (s : State) : (xoffUpdate n (chSet n c s)).ing.length = s.ing.length := by
  rw [ing_xoffUpdate, length_chSet]

theorem chanStep_xoffUpdate_chSet {n : Nat} (hn : n < 32) (c : IngChan) (s : State) :
    ChanStep s (xoffUpdate n (chSet n c s)) :=
  (chanStep_chSet n c s).trans (chanStep_xoffUpdate hn _)

/-! ## Boundaries and arrivals (R81, R89) -/

/-- At a packet boundary no packet ends. -/
theorem endPacket_boundary {n : Nat} {s : State} (h : inProgress (chGet n s) = false) (more : List Nat) (ab err : Bool) :
    endPacket n more ab err s = s := by
  unfold endPacket
  split
  · rfl
  · rename_i p hp
    rw [if_pos (ended_of_boundary h hp)]

/-- At a packet boundary no byte of a packet arrives. -/
theorem bytesArrive_boundary {n : Nat} {s : State} (h : inProgress (chGet n s) = false) (more : List Nat) :
    bytesArrive n more s = s := by
  unfold bytesArrive
  simp only
  split
  · rfl
  · rename_i p hp
    rw [if_pos (ended_of_boundary h hp)]

/-- Without a pending flush none takes effect. -/
theorem flushEffect_idle {n : Nat} {s : State} (h : fbit s (ING_CTRL n) ING_CTRL_FLUSH = false) : flushEffect n s = s := by
  unfold flushEffect
  simp [h]

/-- A consumer that takes nothing, and has used each packet it has taken, leaves the channel alone. -/
theorem takeNext_idle {n : Nat} {s : State} (hc : consumerTakes n s = false)
    (hq : ∀ q ∈ (chGet n s).packets, q.taken = q.used) : takeNext n s = s := by
  unfold takeNext
  split
  · rfl
  · rename_i p r hp
    have hpu : p.taken = p.used := hq p (by rw [hp]; exact List.mem_cons_self)
    rw [if_pos]
    cases hu : p.used <;> simp [hc, hpu, hu]

/-- An empty channel gives its consumer nothing. -/
theorem takeNext_empty {n : Nat} {s : State} (h : (chGet n s).packets = []) : takeNext n s = s := by rw [takeNext, h]

/-- The oldest packet, once used, is left to its consumer. -/
theorem takeNext_used {n : Nat} {s : State} {p : Packet} {r : List Packet} (hp : (chGet n s).packets = p :: r)
    (hu : p.used = true) : takeNext n s = s := by
  unfold takeNext
  rw [hp]
  simp [hu]

end Sys2Proof.Ingress
end

section
/-! Proofs. A packet is placed or dropped whole, and its end records its payload and status (R78, R82 to R85). -/
namespace Sys2Proof.Ingress

open Sys2Proof Sys2Proof.Machine Sys2Proof.Stages

/-! ## The start of a packet (R78, R79, R83) -/

/-- A channel ready for a packet: not held, at a packet boundary, with a filling bank, nothing in flight and no flush. -/
structure ReadyForPacket (n : Nat) (s : State) : Prop where
  present : n < s.ing.length
  up : unitHeld n s = false
  boundary : inProgress (chGet n s) = false
  still : (chGet n s).passage = none
  noFlush : fbit s (ING_CTRL n) ING_CTRL_FLUSH = false
  filling : bankGet (chGet n s).fill (chGet n s) = .filling

/-- Nothing is left to do on a ready channel before its packet is placed. -/
theorem ReadyForPacket.prepared {n : Nat} {s : State} (h : ReadyForPacket n s) :
    flushEffect n (chSet n (ensureFilling true (passageDone (chGet n s))) s) = s := by
  rw [passageDone_none h.still, ensureFilling_filling h.filling, chSet_chGet h.present, flushEffect_idle h.noFlush]

theorem place_here {c : IngChan} {need : Nat} (hf : bankGet c.fill c = .filling) (hfit : startOffset c + need ≤ bankBytes) :
    place need c = .here (startOffset c) := by
  simp [place, hf, hfit]

/-- A packet of channel c in its filling bank, at the fill offset, with nothing ended. -/
structure Placed (c : IngChan) (stamp : Nat) (p : Packet) : Prop where
  ended : p.ended = false
  stamp : p.stamp = stamp
  bank : p.bank = c.fill
  offset : p.offset = startOffset c
  unused : p.taken = p.used

/-- A packet that fits its filling bank is appended to the channel. -/
theorem startPacket_here {n need : Nat} {s : State} (h : ReadyForPacket n s)
    (hfit : startOffset (chGet n s) + need ≤ bankBytes) (stamp src0 src1 : Nat) :
    ∃ p c, Placed (chGet n s) stamp p ∧ c.packets = (chGet n s).packets ++ [p]
      ∧ startPacket n need stamp src0 src1 s = xoffUpdate n (chSet n c s) := by
  unfold startPacket
  simp only [h.prepared, place_here h.filling hfit, placeBanks, reduceCtorEq, if_false]
  exact ⟨_, _, ⟨rfl, rfl, rfl, rfl, rfl⟩, rfl, rfl⟩

/-- Channel n stands at c, and a packet dropped for overrun is noted in its registers (R83). -/
def overrun (n : Nat) (c : IngChan) (s : State) : State :=
  bump (fon (chSet n c s) (ING_STATUS n) ING_STATUS_OVR) (ING_OVR_PKTS n)

theorem chGet_overrun {n : Nat} {s : State} (hn : n < s.ing.length) (c : IngChan) : chGet n (overrun n c s) = c :=
  chGet_chSet hn c

theorem chanStep_overrun {n : Nat} (hn : n < 32) (c : IngChan) (s : State) : ChanStep s (overrun n c s) :=
  ((chanStep_chSet n c s).trans (chanStep_fset (by simp only [BelowAligner, ING_STATUS]; omega) _ _ _)).trans
    (chanStep_fset (by simp only [BelowAligner, ING_OVR_PKTS]; omega) _ _ _)

theorem fbit_overrun {s : State} (hs : RegsWf s) (n : Nat) (c : IngChan) :
    fbit (overrun n c s) (ING_STATUS n) ING_STATUS_OVR = true := by
  have hset : RegsWf (fon (chSet n c s) (ING_STATUS n) ING_STATUS_OVR) := regsWf_fset (s := chSet n c s) hs _ _ _
  have hne : ING_STATUS n ≠ ING_OVR_PKTS n := by simp only [ING_STATUS, ING_OVR_PKTS]; omega
  rw [overrun, bump, bumpBy, fbit, fget_fset_ne hset _ _ _ hne]
  exact beq_iff_eq.mpr (fget_fset_same (s := chSet n c s) hs (f := ING_STATUS_OVR) ⟨by decide, by decide⟩ (ING_STATUS n) 1)

theorem regsKept_overrun {s : State} (hs : RegsWf s) (n : Nat) (c : IngChan) :
    RegsKept [ING_STATUS n, ING_OVR_PKTS n] s (overrun n c s) := by
  intro a ha
  have hw : WritesIn (· ∈ [ING_STATUS n, ING_OVR_PKTS n]) s (overrun n c s) :=
    ((WritesIn.of_regs (t := chSet n c s) rfl).fset (by simp) _ _).bump (by simp)
  exact (hw hs).2 a ha

/-- A packet that no bank has room for is dropped whole: OVR is set and the drop is counted. -/
theorem startPacket_full {n need : Nat} {s : State} (h : ReadyForPacket n s) (hfull : place need (chGet n s) = .full)
    (stamp src0 src1 : Nat) : ∃ c, c.packets = (chGet n s).packets
      ∧ startPacket n need stamp src0 src1 s = overrun n c s := by
  unfold startPacket
  simp only [h.prepared, hfull, if_true]
  refine ⟨_, ?_, rfl⟩
  rfl

/-- Bytes of a packet in progress change its payload and its size. -/
theorem bytesArrive_open {n : Nat} {s : State} {p : Packet} (hp : (chGet n s).packets.getLast? = some p)
    (he : p.ended = false) (more : List Nat) : ∃ pl sz, bytesArrive n more s
      = xoffUpdate n (chSet n (setLast { p with payload := pl, size := sz } (chGet n s)) s) := by
  unfold bytesArrive
  simp only [hp, he, Bool.false_eq_true, if_false]
  exact ⟨_, _, rfl⟩

theorem chKind_can {n : Nat} (hlo : 24 ≤ n) (hhi : n < 28) : chKind n = 2 := by
  simp [chKind, rstIngKind, show ¬n < 16 by omega, show ¬n < 24 by omega, hhi]

/-- An accepted CAN frame on an enabled, ready channel starts a packet, whose bytes follow at once. -/
theorem packetStart_can {n : Nat} {s : State} (hlo : 24 ≤ n) (hhi : n < 28) (h : ReadyForPacket n s)
    (hen : fbit s (ING_CTRL n) ING_CTRL_EN = true) {id : Nat} {fdf xlf : Bool} (hacc : canAccepts n id fdf xlf s = true)
    (stamp len af : Nat) (ide : Bool) (early : List Nat) :
    ∃ src0 src1, packetStart n stamp (.can id ide fdf xlf len af) [] early s
      = if inProgress (chGet n (startPacket n (knownNeed len) stamp src0 src1 s)) then
          bytesArrive n early (startPacket n (knownNeed len) stamp src0 src1 s)
        else startPacket n (knownNeed len) stamp src0 src1 s := by
  simp only [packetStart, macStart, h.up, endPacket_boundary h.boundary, hen, packetBegin, chKind_can hlo hhi, hacc,
    Bool.false_eq_true, Bool.not_true, ne_eq, not_true_eq_false, or_self, if_false]
  exact ⟨_, _, rfl⟩

/-- A CAN frame that fits: its packet stands last in the channel. -/
theorem packetStart_can_here {n : Nat} {s : State} (hlo : 24 ≤ n) (hhi : n < 28) (h : ReadyForPacket n s)
    (hen : fbit s (ING_CTRL n) ING_CTRL_EN = true) {id len : Nat} {fdf xlf : Bool} (hacc : canAccepts n id fdf xlf s = true)
    (hfit : startOffset (chGet n s) + knownNeed len ≤ bankBytes) (stamp af : Nat) (ide : Bool) (early : List Nat) :
    ∃ p, Placed (chGet n s) stamp p
      ∧ (chGet n (packetStart n stamp (.can id ide fdf xlf len af) [] early s)).packets = (chGet n s).packets ++ [p]
      ∧ ChanStep s (packetStart n stamp (.can id ide fdf xlf len af) [] early s) := by
  obtain ⟨src0, src1, hpacket⟩ := packetStart_can hlo hhi h hen hacc stamp len af ide early
  obtain ⟨p, c, hp, hc, hstart⟩ := startPacket_here h hfit stamp src0 src1
  have hchan := chGet_xoffUpdate_chSet h.present c
  have hlast : (chGet n (xoffUpdate n (chSet n c s))).packets.getLast? = some p := by rw [hchan, hc, List.getLast?_concat]
  obtain ⟨pl, sz, hmore⟩ := bytesArrive_open hlast hp.ended early
  rw [hpacket, hstart, if_pos (by simp [inProgress, hlast, hp.ended]), hmore]
  refine ⟨{ p with payload := pl, size := sz }, ⟨hp.ended, hp.stamp, hp.bank, hp.offset, hp.unused⟩, ?_, ?_⟩
  · rw [chGet_xoffUpdate_chSet (by rw [length_xoffUpdate_chSet]; exact h.present), hchan, setLast, hc, List.dropLast_concat]
  · exact (chanStep_xoffUpdate_chSet (by omega) c s).trans (chanStep_xoffUpdate_chSet (by omega) _ _)

/-- A CAN frame that fits neither bank: the packets stay, OVR is set and the drop is counted. -/
theorem packetStart_can_full {n : Nat} {s : State} (hlo : 24 ≤ n) (hhi : n < 28) (h : ReadyForPacket n s)
    (hen : fbit s (ING_CTRL n) ING_CTRL_EN = true) {id len : Nat} {fdf xlf : Bool} (hacc : canAccepts n id fdf xlf s = true)
    (hfull : place (knownNeed len) (chGet n s) = .full) (stamp af : Nat) (ide : Bool) (early : List Nat) :
    ∃ c, c.packets = (chGet n s).packets ∧ packetStart n stamp (.can id ide fdf xlf len af) [] early s = overrun n c s := by
  obtain ⟨src0, src1, hpacket⟩ := packetStart_can hlo hhi h hen hacc stamp len af ide early
  obtain ⟨c, hc, hstart⟩ := startPacket_full h hfull stamp src0 src1
  rw [hstart, chGet_overrun h.present, if_neg (by rw [inProgress, hc]; exact Bool.eq_false_iff.mp h.boundary)] at hpacket
  exact ⟨c, hc, hpacket⟩

/-! ## The end of a packet (R77, R82, R85) -/

/-- The registers that a packet's end writes beside RX_PKTS: the counters of its status bits, and ING_STATUS. -/
abbrev EndRegs (n a : Nat) : Prop :=
  a = ING_TRUNC_PKTS n ∨ a = ING_ABORT_PKTS n ∨ a = ING_BAD_PKTS n ∨ a = ING_MALF_PKTS n ∨ a = ING_STATUS n

theorem writesIn_bumpIf {A : Nat → Prop} {s t : State} (h : WritesIn A s t) (b : Bool) {a : Nat} (ha : A a) :
    WritesIn A s (if b then bump t a else t) := by
  split
  · exact h.bump ha
  · exact h

theorem writesIn_countStatus (n : Nat) (p : Packet) (s : State) : WritesIn (EndRegs n) s (countStatus n p s) := by
  have htrunc := writesIn_bumpIf (A := EndRegs n) (.refl s) p.trunc (.inl rfl)
  have habort := writesIn_bumpIf htrunc p.aborted (.inr (.inl rfl))
  have hbad := writesIn_bumpIf habort p.bad (.inr (.inr (.inl rfl)))
  exact writesIn_bumpIf hbad p.malformed (.inr (.inr (.inr (.inl rfl))))

/-- The counters of a packet's status bits are registers. -/
theorem countStatus_frame (n : Nat) (p : Packet) (s : State) : countStatus n p s = { s with regs := (countStatus n p s).regs } := by
  unfold countStatus
  simp only
  repeat' split
  all_goals rfl

/-- An event of a counter is counted until the counter's largest value. -/
theorem fget_bump_same {s : State} (hs : RegsWf s) (a : Nat) :
    fget (bump s a) a fWord = clampNat (2 ^ 32 - 1) (fget s a fWord + 1) := by
  have hfits : fWord.fits := ⟨by decide, by decide⟩
  rw [bump, fget_bumpBy_same hs hfits, clampNat, show bitsWidth fWord = 32 from rfl]
  split <;> omega

/-- How packet p has ended as q: its payload is all that has arrived, as much as its bank has room for. -/
structure Ended (p : Packet) (more : List Nat) (aborted : Bool) (q : Packet) : Prop where
  ended : q.ended = true
  aborted : q.aborted = aborted
  payload : q.payload = (p.payload ++ more).take (pktRoom p)
  taken : q.taken = p.taken
  used : q.used = p.used

/-- The end of a packet without a bus error: RX_PKTS and its status bits are counted. -/
theorem endPacketNow_good (n : Nat) (more : List Nat) (aborted : Bool) (p : Packet) (s : State) :
    ∃ q c, Ended p more aborted q ∧ c.packets = (chGet n s).packets.dropLast ++ [q]
      ∧ endPacketNow n more aborted false p s = xoffUpdate n (countStatus n q (chSet n c (bump s (ING_RX_PKTS n)))) := by
  unfold endPacketNow
  simp only [Bool.false_eq_true, and_false, if_false]
  refine ⟨_, _, ?_, ?_, rfl⟩
  · constructor <;> rfl
  · rfl

/-- What the count of an ended packet leaves of its channel's registers. -/
structure EndCounted (n : Nat) (s t : State) : Prop where
  step : ChanStep s t
  flush : fbit t (ING_CTRL n) ING_CTRL_FLUSH = fbit s (ING_CTRL n) ING_CTRL_FLUSH
  rx : fget t (ING_RX_PKTS n) fWord = clampNat (2 ^ 32 - 1) (fget s (ING_RX_PKTS n) fWord + 1)

theorem endRegs_below {n a : Nat} (hn : n < 32) (ha : EndRegs n a) : BelowAligner a := by
  simp only [EndRegs, ING_TRUNC_PKTS, ING_ABORT_PKTS, ING_BAD_PKTS, ING_MALF_PKTS, ING_STATUS] at ha
  simp only [BelowAligner]
  omega

theorem endCounted_xoffUpdate {n : Nat} {s : State} (hs : RegsWf s) (hn : n < 32) (q : Packet) (c : IngChan) :
    EndCounted n s (xoffUpdate n (countStatus n q (chSet n c (bump s (ING_RX_PKTS n))))) := by
  have hbits := writesIn_countStatus n q (chSet n c (bump s (ING_RX_PKTS n)))
  have hframe := countStatus_frame n q (chSet n c (bump s (ING_RX_PKTS n)))
  generalize countStatus n q (chSet n c (bump s (ING_RX_PKTS n))) = u at hbits hframe
  have hend : WritesIn (EndRegs n) (bump s (ING_RX_PKTS n)) (xoffUpdate n u) :=
    (WritesIn.of_regs rfl).trans
      (hbits.trans ((writesIn_xoffUpdate n u).mono (B := EndRegs n) fun _ ha => .inr (.inr (.inr (.inr ha)))))
  have hcount : RegsWf (bump s (ING_RX_PKTS n)) := regsWf_bumpBy hs _ _ _
  have hctrl : ¬EndRegs n (ING_CTRL n) := by
    simp only [EndRegs, ING_CTRL, ING_TRUNC_PKTS, ING_ABORT_PKTS, ING_BAD_PKTS, ING_MALF_PKTS, ING_STATUS]; omega
  have hrx : ¬EndRegs n (ING_RX_PKTS n) := by
    simp only [EndRegs, ING_RX_PKTS, ING_TRUNC_PKTS, ING_ABORT_PKTS, ING_BAD_PKTS, ING_MALF_PKTS, ING_STATUS]; omega
  refine ⟨⟨?_, ?_⟩, ?_, ?_⟩
  · obtain ⟨o, hx⟩ := xoffUpdate_frame n u
    rw [hx, hframe]
    exact ⟨_, _, _, _, rfl⟩
  · exact ((WritesIn.refl s).bump (by simp only [BelowAligner, ING_RX_PKTS]; omega)).trans
      (hend.mono fun _ ha => endRegs_below hn ha)
  · have hne : ING_CTRL n ≠ ING_RX_PKTS n := by simp only [ING_CTRL, ING_RX_PKTS]; omega
    rw [fbit, hend.fget hcount hctrl, bump, bumpBy, fget_fset_ne hs _ _ _ hne, fbit]
  · rw [hend.fget hcount hrx, fget_bump_same hs]

/-- What the end of the packet in progress leaves while no flush waits. -/
theorem endPacket_open {n : Nat} {s : State} {p : Packet} (hs : RegsWf s) (hn : n < 32) (hlen : s.ing.length = 32)
    (hp : (chGet n s).packets.getLast? = some p) (he : p.ended = false)
    (hf : fbit s (ING_CTRL n) ING_CTRL_FLUSH = false) (more : List Nat) (aborted : Bool) :
    ∃ q, Ended p more aborted q
      ∧ (chGet n (endPacket n more aborted false s)).packets = (chGet n s).packets.dropLast ++ [q]
      ∧ EndCounted n s (endPacket n more aborted false s) := by
  obtain ⟨q, c, hq, hc, hnow⟩ := endPacketNow_good n more aborted p s
  have hend := endCounted_xoffUpdate hs hn q c
  have heq : endPacket n more aborted false s = xoffUpdate n (countStatus n q (chSet n c (bump s (ING_RX_PKTS n)))) := by
    unfold endPacket
    simp only [hp, he, Bool.false_eq_true, if_false]
    rw [hnow, flushEffect_idle (hend.flush.trans hf)]
  have hchan : chGet n (chSet n c (bump s (ING_RX_PKTS n))) = c := chGet_chSet (s := bump s (ING_RX_PKTS n)) (hlen ▸ hn) c
  rw [heq]
  refine ⟨q, hq, ?_, hend⟩
  rw [chGet_xoffUpdate, countStatus_frame]
  exact (congrArg IngChan.packets hchan).trans hc

/-- The MAC has no frame arriving any more. -/
def macIdle (n : Nat) (s : State) : State := chSet n { chGet n s with arriving := false, macBytes := [] } s

theorem chGet_macIdle {n : Nat} {s : State} (hn : n < s.ing.length) :
    chGet n (macIdle n s) = { chGet n s with arriving := false, macBytes := [] } := chGet_chSet hn _

theorem chKind_noMac {n : Nat} (h : 24 ≤ n) : (chKind n == 1) = false := by
  unfold chKind rstIngKind
  rw [if_neg (by omega), if_neg (by omega)]
  split
  · rfl
  · split <;> rfl

/-- The channels that take no Ethernet frames have no tap: their packet ends, and the consumer may take it. -/
theorem packetEnd_noMac {n : Nat} (h : 24 ≤ n) (bytes : List Nat) (err : Bool) (s : State) :
    packetEnd n bytes err s = takeNext n (endPacket n bytes false err (macIdle n s)) := by
  simp [packetEnd, chKind_noMac h, macIdle]

/-- A packet that ends before a consumer that takes nothing stays last in its channel. -/
theorem endsAndStays {n : Nat} {s : State} {p : Packet} (hs : RegsWf s) (hn : n < 32) (hlen : s.ing.length = 32)
    (hp : (chGet n s).packets.getLast? = some p) (he : p.ended = false) (hc : consumerTakes n s = false)
    (hq : ∀ q ∈ (chGet n s).packets, q.taken = q.used) (hf : fbit s (ING_CTRL n) ING_CTRL_FLUSH = false)
    (more : List Nat) (aborted : Bool) :
    ∃ q, Ended p more aborted q
      ∧ (chGet n (takeNext n (endPacket n more aborted false (macIdle n s)))).packets.getLast? = some q
      ∧ EndCounted n s (takeNext n (endPacket n more aborted false (macIdle n s))) := by
  have hchan := chGet_macIdle (n := n) (s := s) (hlen ▸ hn)
  obtain ⟨q, hq', hpk, hend⟩ := endPacket_open (s := macIdle n s) (p := p) hs hn (by rw [macIdle, length_chSet, hlen])
    (by rw [hchan]; exact hp) he hf more aborted
  have hstep : ChanStep s (endPacket n more aborted false (macIdle n s)) := (chanStep_chSet n _ s).trans hend.step
  rw [hchan] at hpk
  have hidle : takeNext n (endPacket n more aborted false (macIdle n s)) = endPacket n more aborted false (macIdle n s) := by
    refine takeNext_idle ((hstep.consumerTakes hs n).trans hc) fun x hx => ?_
    rw [hpk, List.mem_append, List.mem_singleton] at hx
    rcases hx with hx | rfl
    · exact hq x (List.dropLast_subset _ hx)
    · rw [hq'.taken, hq'.used]; exact hq p (List.mem_of_getLast? hp)
  rw [hidle]
  exact ⟨q, hq', by rw [hpk, List.getLast?_concat], hstep, hend.flush, hend.rx⟩

/-- Settles O20: a frame that fits is appended to the filling bank, one that fits neither bank leaves only its count, and
the packet in progress ends in its place; the consumer takes nothing. -/
theorem ingressPacketsArePlacedAndDroppedWhole : Obligations.IngressPacketsArePlacedAndDroppedWhole := by
  unfold Obligations.IngressPacketsArePlacedAndDroppedWhole
  intro n s hs hlen hrun
  refine ⟨fun stamp id len af ide fdf xlf hlo hhi hen hup hin hstill hf hacc hfill hc hq => ?_,
    fun p bytes hp he hc hq hf hkind => ⟨gives_onMain rfl hrun ?_, gives_onMain rfl hrun ?_⟩⟩
  · have hready : ReadyForPacket n s := ⟨by rw [hlen]; exact n.isLt, hup, hin, hstill, hf, hfill⟩
    refine ⟨fun hfit => ?_, fun hfull => ?_⟩
    · refine gives_onMain (f := fun s => takeNext n (packetStart n stamp (.can id ide fdf xlf len af) [] [] s)) rfl hrun ?_
      obtain ⟨p, hp, hpk, hstep⟩ := packetStart_can_here hlo hhi hready hen hacc hfit stamp af ide []
      rw [takeNext_idle ((hstep.consumerTakes hs n).trans hc) fun x hx => ?_]
      · exact ⟨p, hpk, hp.ended, hp.stamp, hp.bank, hp.offset, hstep.memory⟩
      · rw [hpk, List.mem_append, List.mem_singleton] at hx
        rcases hx with hx | rfl
        · exact hq x hx
        · exact hp.unused
    · refine gives_onMain (f := fun s => takeNext n (packetStart n stamp (.can id ide fdf xlf len af) [] [] s)) rfl hrun ?_
      obtain ⟨c, hpk, hdrop⟩ := packetStart_can_full hlo hhi hready hen hacc hfull stamp af ide []
      have hchan := chGet_overrun hready.present c
      rw [hdrop, takeNext_idle (((chanStep_overrun n.isLt c s).consumerTakes hs n).trans hc) (by rw [hchan, hpk]; exact hq)]
      exact ⟨by rw [hchan, hpk], fbit_overrun hs _ c, regsKept_overrun hs _ c, rfl⟩
  · rw [packetEnd_noMac hkind]
    obtain ⟨q, hend, hlast, hcounted⟩ := endsAndStays hs n.isLt hlen hp he hc hq hf bytes false
    exact ⟨q, hlast, hend.ended, hend.aborted, hend.payload, hcounted.rx, hcounted.step.memory⟩
  · obtain ⟨q, hend, hlast, hcounted⟩ := endsAndStays hs n.isLt hlen hp he hc hq hf bytes true
    exact ⟨q, hlast, hend.ended, hend.aborted, hcounted.step.memory⟩

end Sys2Proof.Ingress
end

section
/-! Proofs. A finished packet leaves, a flush empties its channel, and banks are given back (R80, R81, R89, R98, R99). -/
namespace Sys2Proof.Ingress

open Sys2Proof Sys2Proof.Machine Sys2Proof.Stages

/-! ## Flush (R89) -/

theorem packets_flushDone {n : Nat} {s : State} (hn : n < s.ing.length) :
    (chGet n (flushDone n s)).packets = (chGet n s).packets := by
  have hing : (flushDone n s).ing = (chSet n { chGet n s with flushed := false } s).ing := rfl
  rw [chGet_congr hing, chGet_chSet hn]

theorem fbit_flushDone {n : Nat} {s : State} (hs : RegsWf s) : fbit (flushDone n s) (ING_CTRL n) ING_CTRL_FLUSH = false := by
  have hclear := fget_fset_same hs (f := ING_CTRL_FLUSH) ⟨by decide, by decide⟩ (ING_CTRL n) (b2n false)
  exact beq_eq_false_iff_ne.mpr fun h => absurd (hclear.symm.trans h) (by decide)

theorem chanStep_flushDone {n : Nat} (hn : n < 32) (s : State) : ChanStep s (flushDone n s) := by
  have hput : ChanStep s (fput s (ING_CTRL n) ING_CTRL_FLUSH false) :=
    chanStep_fset (by simp only [BelowAligner, ING_CTRL]; omega) _ _ s
  exact hput.trans ⟨⟨_, _, _, _, rfl⟩, .of_regs rfl⟩

/-- The loss of flushed packets is noted in a slice. -/
theorem noteLoss_frame (n k : Nat) (s : State) : ∃ x, noteLoss n k s = { s with slices := x } := ⟨_, rfl⟩

theorem bankSet_packets (b : Nat) (st : BankSt) (c : IngChan) : (bankSet b st c).packets = c.packets := by
  unfold bankSet
  split <;> rfl

/-- A bank that a flush frees or leaves takes no packet away. -/
theorem freedBank_packets (b : Nat) (c : IngChan) :
    (if bankHolds b c then bankSet b .ready c else bankSet b .free c).packets = c.packets := by
  split
  · exact bankSet_packets b .ready c
  · exact bankSet_packets b .free c

/-- A flush at a boundary with nothing on the consumer: the losses are noted, the packets are counted and gone, and the
flush is done. -/
theorem flushEffect_whole {n : Nat} {s : State} (hf : fbit s (ING_CTRL n) ING_CTRL_FLUSH = true)
    (hfl : (chGet n s).flushed = false) (hin : inProgress (chGet n s) = false) (hstill : (chGet n s).passage = none)
    (hon : consumerOn (chGet n s) = none) : ∃ x c k, c.packets = []
      ∧ flushEffect n s = flushDone n (xoffUpdate n (chSet n c (bumpBy { s with slices := x } (ING_FLUSH_PKTS n) fWord k))) := by
  have hnone : ∃ x, (if (chGet n s).packets.length - 0 = 0 then s
      else noteLoss n (((chGet n s).packets.drop 0).map (fun p => 1 + p.dropGap)).sum s) = { s with slices := x } := by
    split
    · exact ⟨_, rfl⟩
    · exact noteLoss_frame n _ s
  obtain ⟨x, hx⟩ := hnone
  unfold flushEffect
  simp only [passageDone_none hstill, hf, hfl, hin, hon, Bool.not_true, Bool.or_self, Bool.false_eq_true, if_false,
    List.length_nil, hx, List.isEmpty_nil, if_true]
  refine ⟨x, _, _, ?_, rfl⟩
  rw [ensureFilling_packets]
  exact (freedBank_packets 1 _).trans (freedBank_packets 0 _)

/-- After such a flush the channel is empty, and FLUSH reads 0. -/
theorem flushEffect_empties {n : Nat} {s : State} (hs : RegsWf s) (hn : n < 32) (hlen : s.ing.length = 32)
    (hf : fbit s (ING_CTRL n) ING_CTRL_FLUSH = true) (hfl : (chGet n s).flushed = false) (hin : inProgress (chGet n s) = false)
    (hstill : (chGet n s).passage = none) (hon : consumerOn (chGet n s) = none) :
    (chGet n (flushEffect n s)).packets = [] ∧ fbit (flushEffect n s) (ING_CTRL n) ING_CTRL_FLUSH = false
      ∧ MemoryKept s (flushEffect n s) := by
  obtain ⟨x, c, k, hc, h⟩ := flushEffect_whole hf hfl hin hstill hon
  have hcount : ChanStep { s with slices := x } (bumpBy { s with slices := x } (ING_FLUSH_PKTS n) fWord k) :=
    chanStep_fset (by simp only [BelowAligner, ING_FLUSH_PKTS]; omega) _ _ _
  have hput := hcount.trans (chanStep_xoffUpdate_chSet hn c _)
  have hchan := chGet_xoffUpdate_chSet (n := n) (s := bumpBy { s with slices := x } (ING_FLUSH_PKTS n) fWord k) (hlen ▸ hn) c
  rw [h, packets_flushDone (by rw [length_xoffUpdate_chSet]; exact hlen ▸ hn), hchan]
  exact ⟨hc, fbit_flushDone (hput.writes hs).1, (hput.trans (chanStep_flushDone hn _)).memory⟩

/-! ## Consumers (R80, R81) -/

theorem passTo_packets (b : Nat) (st : BankSt) (c : IngChan) : (passTo b st c).packets = c.packets := by
  rw [← passageDone_packets c]
  exact bankSet_packets b .inFlight (passageDone c)

/-- Channel c once a packet of bank b has left it: an emptied bank is released (R80, R90). -/
def bankReleased (en : Bool) (b : Nat) (c : IngChan) : IngChan :=
  let c1 := if bankGet b c == .ready && !bankHolds b c then passTo b .free c else c
  if !en && bankGet c1.fill c1 == .filling && !bankHolds c1.fill c1 then bankSet c1.fill .free c1 else c1

theorem bankReleased_packets (en : Bool) (b : Nat) (c : IngChan) : (bankReleased en b c).packets = c.packets := by
  have hpass : (if bankGet b c == .ready && !bankHolds b c then passTo b .free c else c).packets = c.packets := by
    split
    · exact passTo_packets b .free c
    · rfl
  unfold bankReleased
  generalize (if bankGet b c == .ready && !bankHolds b c then passTo b .free c else c) = c1 at hpass ⊢
  simp only
  split
  · exact (bankSet_packets _ _ _).trans hpass
  · exact hpass

/-- A finished packet leaves the channel, whatever becomes of its bank; a flush that waited for it is done. -/
theorem finishPacket_cons {n : Nat} {s : State} {p : Packet} {r : List Packet} (hp : (chGet n s).packets = p :: r) :
    ∃ c, c.packets = r ∧ (finishPacket n s = xoffUpdate n (chSet n c s)
      ∨ finishPacket n s = flushDone n (xoffUpdate n (chSet n c s))) := by
  refine ⟨bankReleased (fbit s (ING_CTRL n) ING_CTRL_EN) p.bank { passageDone (chGet n s) with packets := r },
    bankReleased_packets _ _ _, ?_⟩
  unfold finishPacket
  generalize hd : passageDone (chGet n s) = d
  have hpk : d.packets = p :: r := by rw [← hd, passageDone_packets, hp]
  dsimp only
  rw [hpk]
  dsimp only
  cases d.flushed
  · exact .inl rfl
  · exact .inr rfl

/-- Without more bytes nothing arrives at a packet boundary, at the MAC either. -/
theorem moreBytes_nil {n : Nat} {s : State} (hn : n < s.ing.length) (hin : inProgress (chGet n s) = false) :
    moreBytes n [] s = s := by
  unfold moreBytes
  simp only [List.append_nil, ite_self]
  rw [show chSet n (chGet n s) s = s from chSet_chGet hn, bytesArrive_boundary hin]

/-- The consumer finishes its oldest packet once that has ended and is used. -/
theorem consumerDone_used {n : Nat} {s : State} {p : Packet} {r : List Packet} (hn : n < s.ing.length)
    (hp : (chGet n s).packets = p :: r) (ht : p.taken = true) (he : p.ended = true) (hu : p.used = true)
    (hin : inProgress (chGet n s) = false) : consumerDone n [] s = takeNext n (finishPacket n s) := by
  unfold consumerDone
  simp only [moreBytes_nil hn hin, takeNext_used hp hu, hp, List.head?_cons, ht, he, Bool.and_self, if_true]

/-- What the finish of the oldest packet leaves. -/
theorem finishPacket_step {n : Nat} {s : State} {p : Packet} {r : List Packet} (hn : n < 32) (hlen : s.ing.length = 32)
    (hp : (chGet n s).packets = p :: r) :
    (chGet n (finishPacket n s)).packets = r ∧ ChanStep s (finishPacket n s) := by
  obtain ⟨c, hc, h⟩ := finishPacket_cons hp
  have hchan := chGet_xoffUpdate_chSet (n := n) (s := s) (hlen ▸ hn) c
  have hput := chanStep_xoffUpdate_chSet hn c s
  rcases h with h | h
  · rw [h, hchan]
    exact ⟨hc, hput⟩
  · rw [h, packets_flushDone (by rw [length_xoffUpdate_chSet, hlen]; exact hn), hchan]
    exact ⟨hc, hput.trans (chanStep_flushDone hn _)⟩

/-! ## Banks (R80, R98, R99) -/

/-- A bank that holds nothing is given back at a boundary of a disabled channel. -/
theorem receiverStop_empty {n : Nat} {s : State} (hen : fbit s (ING_CTRL n) ING_CTRL_EN = false)
    (hin : inProgress (chGet n s) = false) (hf : bankGet (chGet n s).fill (chGet n s) = .filling)
    (hb : bankHolds (chGet n s).fill (chGet n s) = false) :
    receiverStop n s = chSet n (bankSet (chGet n s).fill .free (chGet n s)) s := by
  simp [receiverStop, hen, hin, hf, hb]

/-- A passage that arrives leaves its bank in its new state. -/
theorem bankGet_passageDone {c : IngChan} {b : Nat} {st : BankSt} (h : c.passage = some (b, st)) :
    bankGet b (passageDone c) = st ∧ (passageDone c).passage = none := by
  rw [passageDone, h]
  exact ⟨bankGet_bankSet b st c, rfl⟩

/-- A passage that stays too long sets ERR. -/
theorem fbit_bankTimeout {n : Nat} {s : State} (hs : RegsWf s) :
    fbit (ledgerErr ING_LEDGER ING_LEDGER_ERR 18 n s) ING_LEDGER ING_LEDGER_ERR = true := by
  have hon : RegsWf (fon s ING_LEDGER ING_LEDGER_ERR) := regsWf_fset hs _ _ _
  have hkept : fget (ledgerErr ING_LEDGER ING_LEDGER_ERR 18 n s) ING_LEDGER ING_LEDGER_ERR
      = fget (fon s ING_LEDGER ING_LEDGER_ERR) ING_LEDGER ING_LEDGER_ERR :=
    congrArg (getBits ING_LEDGER_ERR) (rd_raiseIrq_ne hon 7 (by decide))
  exact beq_iff_eq.mpr (hkept.trans (fget_fset_same hs ⟨by decide, by decide⟩ ING_LEDGER 1))

/-- Settles O21: the channel's packets after each event are read off what the event puts back. -/
theorem consumersFlushesAndBanksGiveSpaceBack : Obligations.ConsumersFlushesAndBanksGiveSpaceBack := by
  unfold Obligations.ConsumersFlushesAndBanksGiveSpaceBack
  intro n s hs hlen hrun
  have hn : n.val < s.ing.length := by rw [hlen]; exact n.isLt
  refine ⟨fun p r hp ht he hu hin hr => gives_onMain rfl hrun ?_, fun hf hfl hin hstill hon => gives_onMain rfl hrun ?_,
    fun hen hin hf hb => gives_onMain rfl hrun ?_,
    fun b st hp _ => gives_onMain (f := fun s => chSet n (passageDone (chGet n s)) s) rfl hrun ?_,
    fun hp => gives_onMain rfl hrun ?_⟩
  · obtain ⟨hpk, hstep⟩ := finishPacket_step n.isLt hlen hp
    have hidle : takeNext n (finishPacket n s) = finishPacket n s := by
      rcases hr with rfl | ⟨hc, hq⟩
      · exact takeNext_empty hpk
      · exact takeNext_idle ((hstep.consumerTakes hs n).trans hc) (by rw [hpk]; exact hq)
    rw [consumerDone_used hn hp ht he hu hin, hidle]
    exact ⟨hpk, hstep.memory⟩
  · exact flushEffect_empties hs n.isLt hlen hf hfl hin hstill hon
  · rw [receiverStop_empty hen hin hf hb]
    exact ⟨by rw [chGet_chSet hn, bankGet_bankSet], rfl⟩
  · rw [chGet_chSet hn]
    exact ⟨(bankGet_passageDone hp).1, (bankGet_passageDone hp).2, rfl⟩
  · rw [bankTimeout, if_pos hp]
    have hreport : (ledgerErr ING_LEDGER ING_LEDGER_ERR 18 n s).bridgeUp = s.bridgeUp ++ [.fault 18 n] := by
      rw [ledgerErr_frame]
    refine ⟨fbit_bankTimeout hs, hreport, ?_⟩
    rw [hreport]
    exact ledgerErr_frame _ _ _ _ s

end Sys2Proof.Ingress
end

section
/-! Proofs. The ingress opcodes, as they run on a path that can take them (R101, R369). -/
namespace Sys2Proof.Ingress

open Sys2Proof Sys2Proof.Machine Sys2Proof.Stages

/-! ## A command in execution (R281, R291) -/

/-- The state that an opcode's meaning finds: its command stands in execution, without a reply. -/
def inExecution (h : CmdHead) (op : Nat) (ps : List Word) (s : State) : State :=
  { s with cmds := s.cmds ++ [executed h op ps s none] }

/-- A ready command whose meaning answers at once stands as its path's reply. -/
theorem onCmd_answers {h : CmdHead} {op : Nat} {f : List Nat → State → CmdOut} {ps : List Word} {s t : State} {x : Reply}
    (hr : Ready h op s) (hf : f (ps.map BitVec.toNat) (inExecution h op ps s) = (t, some x))
    (ht : t.cmds = (inExecution h op ps s).cmds) :
    onCmd h op f ps s = .next { t with cmds := s.cmds ++ [executed h op ps s (some x)] } := by
  obtain ⟨hrun, hfree, hhead⟩ := hr
  exact onCmd_ok hrun hfree hhead hf ht

theorem gives_answer {c : Instr} {h : CmdHead} {op : Nat} {f : List Nat → State → CmdOut} {ps : List Word} {s t : State}
    {x : Reply} {P : State → Prop} (hc : exec c s = onCmd h op f ps s) (hr : Ready h op s)
    (hf : f (ps.map BitVec.toNat) (inExecution h op ps s) = (t, some x)) (ht : t.cmds = (inExecution h op ps s).cmds)
    (hp : P { t with cmds := s.cmds ++ [executed h op ps s (some x)] }) : Gives c s P :=
  ⟨_, hc.trans (onCmd_answers hr hf ht), hp⟩

/-- A ready command whose meaning answers later stays in execution. -/
theorem gives_later {c : Instr} {h : CmdHead} {op : Nat} {f : List Nat → State → CmdOut} {ps : List Word} {s t : State}
    {P : State → Prop} (hc : exec c s = onCmd h op f ps s) (hr : Ready h op s)
    (hf : f (ps.map BitVec.toNat) (inExecution h op ps s) = later t) (hp : P t) : Gives c s P := by
  obtain ⟨hrun, hfree, hhead⟩ := hr
  have hmeaning : f (ps.map BitVec.toNat) { s with cmds := s.cmds ++ [⟨h, headWord0 h op, op, ps.map BitVec.toNat, upNs s, none⟩] }
      = later t := hf
  refine ⟨t, hc.trans ?_, hp⟩
  simp only [onCmd, onCupola_run hrun, execOp, hfree, hhead, runPacket, hmeaning, later, setReply, Bool.not_true,
    Bool.false_eq_true, if_false]

/-- While the INGRESS partition is not fenced an ingress opcode has its meaning; while it is, the opcode has no effect. -/
theorem ingCmd_open {s : State} (h : partFenced partIngress s = false) (f : State → CmdOut) : ingCmd f s = f s := by
  simp [ingCmd, h]
theorem ingCmd_fenced {s : State} (h : partFenced partIngress s = true) (f : State → CmdOut) : ingCmd f s = fail stFenced s := by
  simp [ingCmd, h]

/-- With no unit held the meaning of an access to a channel is carried out. -/
theorem unlessHeld_none {s : State} (h : s.heldUnits = []) (n : Nat) (f : State → State) : unlessHeld n f s = f s := by
  simp [unlessHeld, unitHeld, h]

/-! ## Words and fields -/

/-- A word stored under a mask agrees with the written one within it. -/
theorem masked_store (old v m : Word) : ((old &&& ~~~m) ||| (v &&& m)) &&& m = v &&& m := by
  ext i hi
  simp only [BitVec.getElem_and, BitVec.getElem_or, BitVec.getElem_not]
  cases m[i] <;> simp

/-- So it differs from the written one nowhere within it. -/
theorem masked_store_xor (old v m : Word) : (((old &&& ~~~m) ||| (v &&& m)) ^^^ v) &&& m = 0#32 := by
  ext i hi
  simp only [BitVec.getElem_and, BitVec.getElem_or, BitVec.getElem_xor, BitVec.getElem_not, BitVec.getElem_zero]
  cases m[i] <;> simp

/-- The whole word written as a field is the register's word. -/
theorem rd_fset_word {s : State} (hs : RegsWf s) (a : Nat) (v : Word) : rd (fset s a fWord v.toNat) a = v := by
  have h := fget_fset_same hs (f := fWord) ⟨by decide, by decide⟩ a v.toNat
  have hword (w : Word) : getBits fWord w = w.toNat := by
    simp only [getBits, natField, fWord, Nat.pow_zero, Nat.div_one]
    exact Nat.mod_eq_of_lt w.isLt
  rw [fget, hword, show bitsWidth fWord = 32 from rfl, Nat.mod_eq_of_lt v.isLt] at h
  exact BitVec.eq_of_toNat_eq h

theorem fbit_fput_same {s : State} (hs : RegsWf s) {f : Bits} (hf : f.fits) (hone : bitsWidth f = 1) (a : Nat) (b : Bool) :
    fbit (fput s a f b) a f = b := by
  rw [fbit, fput, fget_fset_same hs hf, hone]
  cases b <;> rfl

theorem writesIn_storeRw (a : Nat) (v : Word) (s : State) : WritesIn (· = a) s (storeRw a v s) :=
  fun hs => ⟨regsWf_storeRw hs a v, fun _ hb => rd_storeRw_ne hs v hb⟩

theorem chanStep_storeRw {a : Nat} (ha : BelowAligner a) (v : Word) (s : State) : ChanStep s (storeRw a v s) :=
  ⟨⟨_, _, _, _, storeRw_frame a v s⟩, (writesIn_storeRw a v s).mono fun _ hb => hb ▸ ha⟩

theorem rd_storeRw_same {s : State} (hs : RegsWf s) {a : Nat} {h : Hit} (ha : regAt a = some h) (v : Word) :
    rd (storeRw a v s) a = (rd s a &&& ~~~(BitVec.ofNat 32 (accMask .rw h.row))) ||| (v &&& BitVec.ofNat 32 (accMask .rw h.row)) := by
  simp only [storeRw, ha]
  exact rd_wr_same hs a _

/-- A stored word is not one that would change a register's RW fields. -/
theorem rwChanges_storeRw {s : State} (hs : RegsWf s) (a : Nat) (v : Word) : rwChanges a v (storeRw a v s) = false := by
  unfold rwChanges
  cases ha : regAt a with
  | none => rfl
  | some h =>
    simp only [rd_storeRw_same hs ha, bne_eq_false_iff_eq]
    exact masked_store_xor _ _ _

/-! ## Counters that clear on read -/

/-- Counters at different addresses are each read as they stood. -/
theorem takeCounts_values {s : State} (hs : RegsWf s) {as : List Nat} (hd : as.Nodup) :
    (takeCounts as s).1 = as.map (fun a => (rd s a).toNat) := by
  induction as generalizing s with
  | nil => rfl
  | cons a as ih =>
    obtain ⟨hnot, hrest⟩ := List.nodup_cons.mp hd
    have htail : as.map (fun b => (rd (wr s a 0) b).toNat) = as.map (fun b => (rd s b).toNat) :=
      List.map_congr_left fun b hb => by
        rw [rd_wr_ne hs 0 (ne_of_mem_of_not_mem hb hnot)]
    exact congrArg ((rd s a).toNat :: ·) ((ih (regsWf_wr hs a 0) hrest).trans htail)

/-- Every counter taken reads 0 afterwards. -/
theorem rd_takeCounts_mem {s : State} (hs : RegsWf s) {as : List Nat} {b : Nat} (hb : b ∈ as) :
    rd (takeCounts as s).2 b = 0 := by
  induction as generalizing s with
  | nil => cases hb
  | cons a as ih =>
    have hwr := regsWf_wr hs a 0
    by_cases hmem : b ∈ as
    · exact ih hwr hmem
    · obtain rfl : b = a := (List.mem_cons.mp hb).resolve_right hmem
      exact (rd_takeCounts_ne hwr hmem).trans (rd_wr_same hs b 0)

theorem ingCounters_nodup (n : Nat) : (ingCounters n).Nodup := by
  simp only [ingCounters, ING_RX_PKTS, ING_OVR_PKTS, ING_TRUNC_PKTS, ING_BAD_PKTS, ING_MALF_PKTS, ING_ABORT_PKTS, ING_FLUSH_PKTS,
    List.nodup_cons, List.mem_cons, List.not_mem_nil, List.nodup_nil, not_or, not_false_eq_true, and_true]
  omega

/-! ## ING_ENABLE -/

theorem mem_maskBits {w m i : Nat} : i ∈ maskBits w m ↔ i < w ∧ bitOf i m = true := by
  simp [maskBits]

/-- No bit is set in both of two disjoint masks. -/
theorem bitOf_disjoint {a b i : Nat} (h : Nat.land a b = 0) (ha : bitOf i a = true) : bitOf i b = false := by
  rw [bitOf_eq_testBit] at ha ⊢
  have hand : (a &&& b).testBit i = false := by rw [show a &&& b = 0 from h, Nat.zero_testBit]
  rw [Nat.testBit_and, ha, Bool.true_and] at hand
  exact hand

/-- From s to t the EN bits of the channels of a list have been set, but those of retired channels, or cleared. -/
structure EnSet (on : Bool) (l : List Nat) (s t : State) : Prop where
  frame : ∃ g i, t = { s with regs := g, ing := i }
  writes : WritesIn BelowAligner s t
  en : ∀ i, fbit t (ING_CTRL i) ING_CTRL_EN
    = if i ∈ l then on && !fbit s (RST_UNIT i) RST_UNIT_RETIRED else fbit s (ING_CTRL i) ING_CTRL_EN

/-- What lies above the ingress block is kept. -/
theorem EnSet.retired {on : Bool} {l : List Nat} {s t : State} (h : EnSet on l s t) (hs : RegsWf s) (i : Nat) :
    fbit t (RST_UNIT i) RST_UNIT_RETIRED = fbit s (RST_UNIT i) RST_UNIT_RETIRED := by
  rw [fbit, h.writes.fget hs (by unfold RST_UNIT; omega), fbit]

theorem EnSet.heldUnits {on : Bool} {l : List Nat} {s t : State} (h : EnSet on l s t) : t.heldUnits = s.heldUnits := by
  obtain ⟨g, i, rfl⟩ := h.frame
  rfl

theorem enSet_setEn {s : State} (hs : RegsWf s) (hh : s.heldUnits = []) (on : Bool) {n : Nat} (hn : n < 32) :
    EnSet on [n] s (setEn on s n) := by
  rw [setEn, unlessHeld_none hh]
  refine ⟨⟨_, _, rfl⟩, ?_, fun i => ?_⟩
  · exact ((WritesIn.refl s).fset (by simp only [BelowAligner, ING_CTRL]; omega) _ _).trans (.of_regs rfl)
  · have hset := fbit_fput_same hs (f := ING_CTRL_EN) ⟨by decide, by decide⟩ rfl (ING_CTRL n)
      (on && !fbit s (RST_UNIT n) RST_UNIT_RETIRED)
    by_cases h : i = n
    · subst h
      rw [if_pos (List.mem_singleton_self i)]
      exact hset
    · rw [if_neg (by simpa using h)]
      have hne : ING_CTRL i ≠ ING_CTRL n := by simp only [ING_CTRL]; omega
      exact congrArg (· == 1) (fget_fset_ne hs _ _ _ hne)

theorem enSet_foldl {s : State} (hs : RegsWf s) (hh : s.heldUnits = []) (on : Bool) {l : List Nat} (hl : ∀ i ∈ l, i < 32) :
    EnSet on l s (l.foldl (setEn on) s) := by
  induction l generalizing s with
  | nil => exact ⟨⟨_, _, rfl⟩, .refl s, fun i => by simp⟩
  | cons n l ih =>
    have hone := enSet_setEn hs hh on (hl n List.mem_cons_self)
    have hrest := ih (hone.writes hs).1 (hone.heldUnits.trans hh) fun i hi => hl i (List.mem_cons_of_mem n hi)
    refine ⟨?_, hone.writes.trans hrest.writes, fun i => ?_⟩
    · obtain ⟨g, c, h⟩ := hone.frame
      obtain ⟨g', c', h'⟩ := hrest.frame
      rw [h] at h'
      exact ⟨g', c', by rw [List.foldl_cons, h, h']⟩
    · rw [List.foldl_cons, hrest.en, hone.retired hs, hone.en]
      by_cases hi : i ∈ l <;> by_cases hn : i = n <;> simp [hi, hn]

end Sys2Proof.Ingress
end

section
/-! Proofs. What each ingress opcode makes of the state (R101). -/
namespace Sys2Proof.Ingress

open Sys2Proof Sys2Proof.Machine Sys2Proof.Stages

/-! ## ING_CONFIG -/

/-- The seven registers of ING_CONFIG stored in their order, and the XOFF state after them. -/
def ingConfigured (n : Nat) (ctrl cut wm maxframe tmo pfc refresh : Word) (s : State) : State :=
  xoffUpdate n (storeRw (ING_PFC_REFRESH n) refresh (storeRw (ING_PFC n) pfc (storeRw (ING_PKT_TMO n) tmo
    (storeRw (ING_MAXFRAME n) maxframe (storeRw (ING_WM n) wm (storeRw (ING_CUT n) cut
      (fset (fset s (ING_CTRL n) ING_CTRL_XOFF_EN (getBits ING_CTRL_XOFF_EN ctrl))
        (ING_CTRL n) ING_CTRL_PFC_EN (getBits ING_CTRL_PFC_EN ctrl))))))))

theorem cmdIngConfig_ok {n ctrl cut wm maxframe tmo pfc refresh : Word} {s : State} (hopen : partFenced partIngress s = false)
    (hheld : s.heldUnits = []) (hn : n.toNat ≤ 31) (hctrl : ctrl.toNat < 16) (hcut : cutOk cut.toNat = true)
    (hwm : wmOk wm.toNat = true) (hwmr : reservedSet (ING_WM n.toNat) wm.toNat = false) (hmax : maxframeOk maxframe.toNat = true)
    (hmaxr : reservedSet (ING_MAXFRAME n.toNat) maxframe.toNat = false) (htmo : tmo.toNat ≠ 0) (htmo' : tmo.toNat < 2 ^ 16)
    (hpfcr : reservedSet (ING_PFC n.toNat) pfc.toNat = false) (href : refresh.toNat ≠ 0)
    (href' : refresh.toNat ≤ getBits ING_PFC_QUANTA pfc) (hen : fbit s (ING_CTRL n.toNat) ING_CTRL_EN = false) :
    cmdIngConfig ([n, ctrl, cut, wm, maxframe, tmo, pfc, refresh].map BitVec.toNat) s
      = ok [] (ingConfigured n.toNat ctrl cut wm maxframe tmo pfc refresh s) := by
  have hword (w : Word) : BitVec.ofNat 32 w.toNat = w := by simp
  unfold cmdIngConfig
  rw [ingCmd_open hopen]
  simp only [withParams, List.map_cons, List.map_nil, List.length_cons, List.length_nil, nth, List.getElem?_cons_zero,
    List.getElem?_cons_succ, Option.getD_some, hword, hcut, hwm, hwmr, hmax, hmaxr, htmo, hpfcr, href, hen, if_true,
    Bool.not_true, Bool.false_eq_true, false_or, unlessHeld_none hheld]
  rw [if_neg (by omega)]
  rfl

theorem chanStep_ingConfigured {n : Nat} (hn : n < 32) (ctrl cut wm maxframe tmo pfc refresh : Word) (s : State) :
    ChanStep s (ingConfigured n ctrl cut wm maxframe tmo pfc refresh s) := by
  have hset {a : Nat} (ha : a < 0x00320000) (f : Bits) (v : Nat) {t : State} (h : ChanStep s t) : ChanStep s (fset t a f v) :=
    h.trans (chanStep_fset (by simp only [BelowAligner]; omega) f v t)
  have hstore {a : Nat} (ha : a < 0x00320000) (v : Word) {t : State} (h : ChanStep s t) : ChanStep s (storeRw a v t) :=
    h.trans (chanStep_storeRw (by simp only [BelowAligner]; omega) v t)
  refine .trans (hstore ?_ _ (hstore ?_ _ (hstore ?_ _ (hstore ?_ _ (hstore ?_ _ (hstore ?_ _
    (hset ?_ _ _ (hset ?_ _ _ (.refl s))))))))) (chanStep_xoffUpdate hn _)
  all_goals
    simp only [ING_CTRL, ING_CUT, ING_WM, ING_MAXFRAME, ING_PKT_TMO, ING_PFC, ING_PFC_REFRESH]
    omega

/-- The commands in execution stay as they are. -/
theorem cmds_ingConfigured (n : Nat) (ctrl cut wm maxframe tmo pfc refresh : Word) (s : State) :
    (ingConfigured n ctrl cut wm maxframe tmo pfc refresh s).cmds = s.cmds := by
  have hstore (a : Nat) (v : Word) (t : State) : (storeRw a v t).cmds = t.cmds := by rw [storeRw_frame]
  have hxoff (t : State) : (xoffUpdate n t).cmds = t.cmds := by
    obtain ⟨o, h⟩ := xoffUpdate_frame n t
    rw [h]
  simp only [ingConfigured, hxoff, hstore, fset_cmds]

/-- The RW bits of ING_CUT are those of its one field. -/
theorem accMask_cut : ∀ n : Fin 32, (regAt (ING_CUT n)).map (fun h => accMask .rw h.row) = some 0x1FFFF := by decide +kernel

theorem getBits_cut (w : Word) : getBits ING_CUT_CUT w = (w &&& 0x1FFFF#32).toNat := by
  rw [BitVec.toNat_and, show (0x1FFFF#32).toNat = 2 ^ 17 - 1 from rfl, Nat.and_two_pow_sub_one_eq_mod]
  exact congrArg (· % 2 ^ 17) (Nat.div_one _)

theorem fget_storeRw_cut {s : State} (hs : RegsWf s) {n : Nat} (hn : n < 32) (v : Word) :
    fget (storeRw (ING_CUT n) v s) (ING_CUT n) ING_CUT_CUT = getBits ING_CUT_CUT v := by
  obtain ⟨h, ha, hmask⟩ := Option.map_eq_some_iff.mp (accMask_cut ⟨n, hn⟩)
  rw [fget, getBits_cut, rd_storeRw_same hs ha, hmask, masked_store, ← getBits_cut]

/-- The registers stored after ING_CUT leave it alone. -/
theorem fget_ingConfigured_cut {s : State} (hs : RegsWf s) {n : Nat} (hn : n < 32)
    (ctrl cut wm maxframe tmo pfc refresh : Word) :
    fget (ingConfigured n ctrl cut wm maxframe tmo pfc refresh s) (ING_CUT n) ING_CUT_CUT = getBits ING_CUT_CUT cut := by
  have hctrl := regsWf_fset (regsWf_fset hs (ING_CTRL n) ING_CTRL_XOFF_EN (getBits ING_CTRL_XOFF_EN ctrl))
    (ING_CTRL n) ING_CTRL_PFC_EN (getBits ING_CTRL_PFC_EN ctrl)
  have hcut := fget_storeRw_cut hctrl hn cut
  have hstored := regsWf_storeRw hctrl (ING_CUT n) cut
  unfold ingConfigured
  generalize storeRw (ING_CUT n) cut _ = t at hcut hstored
  have hstore {a : Nat} (ha : a ≠ ING_CUT n) (v : Word) {u : State} (h : WritesIn (· ≠ ING_CUT n) t u) :
      WritesIn (· ≠ ING_CUT n) t (storeRw a v u) := h.trans ((writesIn_storeRw a v u).mono fun _ hb => hb ▸ ha)
  have hrest : WritesIn (· ≠ ING_CUT n) t (storeRw (ING_PFC_REFRESH n) refresh (storeRw (ING_PFC n) pfc
      (storeRw (ING_PKT_TMO n) tmo (storeRw (ING_MAXFRAME n) maxframe (storeRw (ING_WM n) wm t))))) := by
    refine hstore ?_ _ (hstore ?_ _ (hstore ?_ _ (hstore ?_ _ (hstore ?_ _ (.refl t)))))
    all_goals
      simp only [ING_CUT, ING_WM, ING_MAXFRAME, ING_PKT_TMO, ING_PFC, ING_PFC_REFRESH]
      omega
  have hstatus : ING_STATUS n ≠ ING_CUT n := by simp only [ING_CUT, ING_STATUS]; omega
  have hall := hrest.trans ((writesIn_xoffUpdate n _).mono (B := (· ≠ ING_CUT n)) fun _ hb => hb ▸ hstatus)
  rw [hall.fget hstored (by simp), hcut]

/-! ## The other opcodes -/

/-- ING_SOURCE_CONFIG of one word stores it in the channel's source block. -/
theorem cmdIngSourceConfig_one {n a : Word} {s : State} (hopen : partFenced partIngress s = false) (hheld : s.heldUnits = [])
    (hn : n.toNat ≤ 31) (hen : fbit s (ING_CTRL n.toNat) ING_CTRL_EN = false)
    (href : sourceRefused n.toNat 0 a.toNat = false) :
    cmdIngSourceConfig ([n, 1, a].map BitVec.toNat) s = ok [] (storeRw (sourceAddr n.toNat 0) a s) := by
  unfold cmdIngSourceConfig
  rw [ingCmd_open hopen]
  simp [nth, hen, href, unlessHeld_none hheld, List.range_succ, show ¬31 < n.toNat by omega]

/-- The channels of mask a enabled, then those of mask b disabled (R101). -/
def enabled (a b : Nat) (s : State) : State := (maskBits 32 b).foldl (setEn false) ((maskBits 32 a).foldl (setEn true) s)

/-- ING_ENABLE of disjoint masks answers the EN bits that it leaves. -/
theorem cmdIngEnable_disjoint {a b : Word} {s : State} (hopen : partFenced partIngress s = false)
    (hd : Nat.land a.toNat b.toNat = 0) :
    cmdIngEnable ([a, b].map BitVec.toNat) s = ok [enMask (enabled a.toNat b.toNat s)] (enabled a.toNat b.toNat s) := by
  have hdisjoint : a.toNat &&& b.toNat = 0 := hd
  unfold cmdIngEnable
  rw [ingCmd_open hopen]
  simp [withParams, nth, hdisjoint, enabled]

/-- The two halves of ING_ENABLE. -/
theorem enSet_enabled {s : State} (hs : RegsWf s) (hh : s.heldUnits = []) (a b : Nat) :
    EnSet true (maskBits 32 a) s ((maskBits 32 a).foldl (setEn true) s)
      ∧ EnSet false (maskBits 32 b) ((maskBits 32 a).foldl (setEn true) s) (enabled a b s) := by
  have hon := enSet_foldl hs hh true (l := maskBits 32 a) fun i hi => (mem_maskBits.mp hi).1
  exact ⟨hon, enSet_foldl (hon.writes hs).1 (hon.heldUnits.trans hh) false fun i hi => (mem_maskBits.mp hi).1⟩

theorem enabled_frame {s : State} (hs : RegsWf s) (hh : s.heldUnits = []) (a b : Nat) :
    ∃ g c, enabled a b s = { s with regs := g, ing := c } := by
  obtain ⟨hon, hoff⟩ := enSet_enabled hs hh a b
  obtain ⟨g, c, h⟩ := hon.frame
  obtain ⟨g', c', h'⟩ := hoff.frame
  exact ⟨g', c', by rw [h', h]⟩

/-- A channel is on when it is in the first mask and not retired, or in neither mask and on before. -/
theorem en_enabled {s : State} (hs : RegsWf s) (hh : s.heldUnits = []) {a b i : Nat} (hd : Nat.land a b = 0) (hi : i < 32) :
    fbit (enabled a b s) (ING_CTRL i) ING_CTRL_EN = ((bitOf i a && !fbit s (RST_UNIT i) RST_UNIT_RETIRED)
      || (!bitOf i a && !bitOf i b && fbit s (ING_CTRL i) ING_CTRL_EN)) := by
  obtain ⟨hon, hoff⟩ := enSet_enabled hs hh a b
  rw [hoff.en, hon.en]
  simp only [mem_maskBits, hi, true_and]
  cases ha : bitOf i a with
  | true => simp [bitOf_disjoint hd ha]
  | false => cases bitOf i b <;> simp

theorem maskBits_one : ∀ i : Fin 32, maskBits 32 (2 ^ i.val) = [i.val] := by decide

/-- ING_FLUSH of one channel requests its flush and answers later. -/
theorem cmdIngFlush_one {s : State} (hopen : partFenced partIngress s = false) (hheld : s.heldUnits = []) (i : Fin 32) :
    cmdIngFlush ([BitVec.ofNat 32 (2 ^ i.val)].map BitVec.toNat) s = later (fon s (ING_CTRL i) ING_CTRL_FLUSH) := by
  have hmask : (BitVec.ofNat 32 (2 ^ i.val)).toNat = 2 ^ i.val :=
    Nat.mod_eq_of_lt (Nat.pow_lt_pow_right (by decide) i.isLt)
  unfold cmdIngFlush
  rw [ingCmd_open hopen]
  simp only [withParams, List.map_cons, List.map_nil, hmask, List.length_cons, List.length_nil, nth,
    List.getElem?_cons_zero, Option.getD_some, maskBits_one, List.foldl_cons, List.foldl_nil, List.all_cons, List.all_nil,
    unitHeld, hheld, List.contains_nil, Bool.false_and, Bool.false_eq_true, if_false, if_true, askFlush, unlessHeld_none hheld]

/-- ING_STATUS of a channel answers its live words and its counters, which it clears. -/
theorem cmdIngStatus_ok {n : Word} {s : State} (hs : RegsWf s) (hopen : partFenced partIngress s = false)
    (hheld : s.heldUnits = []) (hn : n.toNat ≤ 31) :
    cmdIngStatus ([n].map BitVec.toNat) s = ok ([ingStatusWord n.toNat s, occupancy (chGet n.toNat s), ingBanksWord n.toNat s]
      ++ (ingCounters n.toNat).map (fun x => (rd s x).toNat)) (takeCounts (ingCounters n.toNat) s).2 := by
  rw [← takeCounts_values hs (ingCounters_nodup n.toNat)]
  unfold cmdIngStatus
  rw [ingCmd_open hopen]
  simp [withParams, nth, unitHeld, hheld, show ¬31 < n.toNat by omega]

theorem cmdIngGroupMask_ok {n a : Word} {s : State} (hopen : partFenced partIngress s = false) (hn : n.toNat ≤ 7) :
    cmdIngGroupMask ([n, a].map BitVec.toNat) s = ok [] (fset s (ING_GRP_MASK n.toNat) fWord a.toNat) := by
  unfold cmdIngGroupMask
  rw [ingCmd_open hopen]
  simp [withParams, nth, show ¬7 < n.toNat by omega]

theorem cmdIngLedger_ok {s : State} (hopen : partFenced partIngress s = false) : cmdIngLedger [] s = ok [ingLedgerWord s] s := by
  rw [cmdIngLedger, ingCmd_open hopen]
  rfl

theorem cmdIngLedger_fenced {s : State} (hfenced : partFenced partIngress s = true) : cmdIngLedger [] s = fail stFenced s := by
  rw [cmdIngLedger, ingCmd_fenced hfenced]

/-! ## The statement -/

/-- Settles O23: each opcode's meaning, evaluated with its command in execution, gives the reply and the registers of the
statement. -/
theorem ingressOpcodesConfigureAndReportChannels : Obligations.IngressOpcodesConfigureAndReportChannels := by
  unfold Obligations.IngressOpcodesConfigureAndReportChannels
  intro h n a b s hs hheld hlen
  refine ⟨fun hopen => ⟨fun hr hn => ?groupMask, fun hr => ?ledger, fun hr hn => ?status, fun hr hd => ?enable,
    fun i hr ha => ?flush, fun c w m q f g hr hn ha hc hw hwr hm hmr hq hq' hfr hg hg' hen => ?config,
    fun hr hn hen hlive href => ?source⟩, fun hfenced hr => ?fenced⟩
  case groupMask =>
    refine gives_answer rfl hr (cmdIngGroupMask_ok hopen hn) rfl ?_
    exact ⟨rfl, rd_fset_word hs _ a, fun x hx => rd_fset_ne hs _ _ (by simpa using hx), rfl⟩
  case ledger => exact onCmd_answers (t := inExecution h 0x0406 [] s) hr (cmdIngLedger_ok hopen) rfl
  case status =>
    refine gives_answer rfl hr (cmdIngStatus_ok hs hopen hheld hn) (by rw [takeCounts_frame]) ?_
    refine ⟨rfl, fun x hx => rd_takeCounts_mem (s := inExecution h 0x0405 [n] s) hs hx,
      fun x hx => rd_takeCounts_ne (s := inExecution h 0x0405 [n] s) hs hx, ?_⟩
    rw [takeCounts_frame]
    rfl
  case enable =>
    obtain ⟨g, c, hframe⟩ := enabled_frame (s := inExecution h 0x0403 [a, b] s) hs hheld a.toNat b.toNat
    refine gives_answer rfl hr (cmdIngEnable_disjoint hopen hd) (by rw [hframe]) ?_
    refine ⟨rfl, fun i hi => en_enabled (s := inExecution h 0x0403 [a, b] s) hs hheld hd hi, ?_⟩
    rw [hframe]
    rfl
  case flush =>
    subst ha
    refine gives_later rfl hr (cmdIngFlush_one (s := inExecution h 0x0404 _ s) hopen hheld i) ?_
    have hset := fget_fset_same hs (f := ING_CTRL_FLUSH) ⟨by decide, by decide⟩ (ING_CTRL i) 1
    exact ⟨rfl, beq_iff_eq.mpr hset, fun x hx => rd_fset_ne hs _ _ (by simpa using hx), rfl⟩
  case config =>
    have hstep := chanStep_ingConfigured (n := n.toNat) (by omega) a c w m q f g (inExecution h 0x0401 [n, a, c, w, m, q, f, g] s)
    refine gives_answer rfl hr (cmdIngConfig_ok hopen hheld hn ha hc hw hwr hm hmr hq hq' hfr hg hg' hen)
      (cmds_ingConfigured _ a c w m q f g _) ?_
    exact ⟨rfl, fget_ingConfigured_cut (s := inExecution h 0x0401 [n, a, c, w, m, q, f, g] s) hs (by omega) a c w m q f g, hstep.memory⟩
  case source =>
    refine gives_answer rfl hr (cmdIngSourceConfig_one hopen hheld hn hen href) (by rw [storeRw_frame]) ?_
    refine ⟨rfl, rwChanges_storeRw (s := inExecution h 0x0402 [n, 1, a] s) hs _ a,
      fun x hx => rd_storeRw_ne (s := inExecution h 0x0402 [n, 1, a] s) hs a (by simpa using hx), ?_⟩
    rw [storeRw_frame]
    rfl
  case fenced => exact gives_answer rfl hr (cmdIngLedger_fenced hfenced) rfl ⟨rfl, rfl⟩

end Sys2Proof.Ingress
end

section
/-! Proofs. The lanes of the camera front end: a frame that is lost, a mesh that ends, and a frame that is taken as a
sample; and the end of the VHE's clear (R155, R158 to R161). -/
namespace Sys2Proof.Camera

open Sys2Proof Sys2Proof.Machine Sys2Proof.Stages Sys2Proof.Ingress

/-! ## Events of Cupola -/

/-- An event of Cupola gives what its meaning makes of the state. -/
theorem gives_onCupola {c : Instr} {f : State → State} {s : State} {P : State → Prop} (hc : exec c s = onCupola f s)
    (hr : cupolaRuns s = true) (hp : P (f s)) : Gives c s P := ⟨f s, hc.trans (onCupola_run hr), hp⟩

/-! ## Lanes, buffers and registers -/

/-- Lane n reads as it was put. -/
theorem laneGet_laneSet {n : Nat} {s : State} (hn : n < s.lanes.length) (l : Lane) : laneGet n (laneSet n l s) = l := by
  simp [laneGet, laneSet, nth, setNth, hn]

/-- What keeps the lanes keeps each of them. -/
theorem laneGet_congr {s t : State} (h : t.lanes = s.lanes) (n : Nat) : laneGet n t = laneGet n s := by rw [laneGet, laneGet, h]

/-- A buffer reads as it was put. -/
theorem bufGet_bufSet {b : Nat} {l : Lane} (hb : b < l.bufs.length) (f : FrameBuf) : bufGet b (bufSet b f l) = f := by
  simp [bufGet, bufSet, nth, setNth, hb]

/-- A one-bit field that is set reads 1. -/
theorem fbit_fon_same {s : State} (hs : RegsWf s) {f : Bits} (hf : f.fits) (hone : bitsWidth f = 1) (a : Nat) :
    fbit (fon s a f) a f = true := fbit_fput_same hs hf hone a true

/-- A write of one register keeps the others. -/
theorem regsKept_fset {s : State} (hs : RegsWf s) (a : Nat) (f : Bits) (v : Nat) : RegsKept [a] s (fset s a f v) :=
  fun _ hb => rd_fset_ne hs f v (by simpa using hb)

/-- A 32-bit counter counts an event until its largest value, written as a minimum. -/
theorem fget_bump_min {s : State} (hs : RegsWf s) (a : Nat) :
    fget (bump s a) a fWord = min (2 ^ 32 - 1) (fget s a fWord + 1) :=
  fget_bumpBy_same hs (f := fWord) ⟨by decide, by decide⟩ a 1

/-! ## Time (R39) -/

theorem writesIn_slewStatus (s : State) : WritesIn (· = BLF_STATUS) s (slewStatus s) := by
  have hlarge := (WritesIn.refl (A := (· = BLF_STATUS)) s).fset (a := BLF_STATUS) rfl
  exact ((hlarge _ _).fset rfl _ _).trans (.of_regs rfl)

/-- The Belfry's run to a time writes its status register alone. -/
theorem writesIn_runTo (target : Nat) (s : State) : WritesIn (· = BLF_STATUS) s (runTo target s) := by
  unfold runTo
  split
  · exact .refl s
  · unfold elapse
    exact fun hs => writesIn_slewStatus _ hs

/-! ## A lost frame (R159) -/

/-- A lane that has given up the frame in buffer b: the frame whose Frame Start came next is in progress, if one has. -/
def withoutFrame (b : Nat) (l : Lane) : Lane := { bufSet b FrameBuf.reset l with cur := l.next.head?, next := l.next.tail }

/-- A counted loss frees the buffer of the frame in progress and drops its strips. -/
theorem abandonFrame_counted {n b : Nat} {s : State} (h : (laneGet n s).cur = some b) (a : Nat) :
    abandonFrame n (some a) s = bump (dropStrips n b (laneSet n (withoutFrame b (laneGet n s)) s)) a := by
  simp only [abandonFrame, h]
  rfl

/-- The lines of a frame in progress stop: the Belfry has run to the deadline, and the frame is lost. -/
theorem frameLineTimeout_lost {n b : Nat} {s : State} (h : (laneGet n s).cur = some b) :
    ∃ target, frameLineTimeout n s
      = bump (dropStrips n b (laneSet n (withoutFrame b (laneGet n s)) (runTo target s))) (CAM_LOST_TMO n) := by
  have hlane (target : Nat) : laneGet n (runTo target s) = laneGet n s := by
    obtain ⟨_, _, _, _, hrun⟩ := runTo_shape target s
    exact laneGet_congr (by rw [hrun]) n
  have hlost (target : Nat) : abandonFrame n (some (CAM_LOST_TMO n)) (runTo target s)
      = bump (dropStrips n b (laneSet n (withoutFrame b (laneGet n s)) (runTo target s))) (CAM_LOST_TMO n) := by
    rw [abandonFrame_counted (by rw [hlane, h]), hlane]
  simp only [frameLineTimeout, h, Option.isSome_some, if_true, runToUp]
  exact ⟨_, hlost _⟩

/-- The timeout counts one frame: the Belfry's run does not touch the counter. -/
theorem fget_frameLineTimeout {n b : Nat} {s : State} (hs : RegsWf s) (h : (laneGet n s).cur = some b) :
    fget (frameLineTimeout n s) (CAM_LOST_TMO n) fWord = min (2 ^ 32 - 1) (fget s (CAM_LOST_TMO n) fWord + 1) := by
  obtain ⟨target, ht⟩ := frameLineTimeout_lost h
  have hw := writesIn_runTo target s
  have hkept : fget (runTo target s) (CAM_LOST_TMO n) fWord = fget s (CAM_LOST_TMO n) fWord :=
    hw.fget hs (by unfold CAM_LOST_TMO BLF_STATUS; omega) _
  rw [ht, ← hkept]
  exact fget_bump_min (s := dropStrips n b (laneSet n _ (runTo target s))) (hw hs).1 _

/-- The timeout of a frame's lines leaves the lane without the frame. -/
theorem laneGet_frameLineTimeout {n b : Nat} {s : State} (hn : n < s.lanes.length) (h : (laneGet n s).cur = some b) :
    laneGet n (frameLineTimeout n s) = withoutFrame b (laneGet n s) := by
  obtain ⟨target, ht⟩ := frameLineTimeout_lost h
  obtain ⟨_, _, _, _, hrun⟩ := runTo_shape target s
  rw [ht, hrun]
  exact laneGet_laneSet (s := { s with regs := _, holdSeen := _, time := _, slew := _ }) hn _

/-- The timeout of a frame's lines changes registers, the time, the lanes and the strips of the slices. -/
theorem frameLineTimeout_frame {n b : Nat} {s : State} (h : (laneGet n s).cur = some b) :
    frameLineTimeout n s = { s with
      regs := (frameLineTimeout n s).regs, time := (frameLineTimeout n s).time, slew := (frameLineTimeout n s).slew
      holdSeen := (frameLineTimeout n s).holdSeen, lanes := (frameLineTimeout n s).lanes
      slices := (frameLineTimeout n s).slices } := by
  obtain ⟨target, ht⟩ := frameLineTimeout_lost h
  obtain ⟨_, _, _, _, hrun⟩ := runTo_shape target s
  rw [ht, hrun]
  rfl

/-! ## Meshes (R158) -/

/-- The bit of CAM_STATUS that the end of a mesh sets. -/
def meshBit (built : Bool) : Bits := if built then CAM_STATUS_READY else CAM_STATUS_MESH_ERR

theorem meshDone_enabled {n : Nat} {s : State} (hm : (laneGet n s).meshing = true)
    (hen : fbit s (CAM_CFG n) CAM_CFG_EN = true) (built : Bool) :
    meshDone n built s = fon (laneSet n { laneGet n s with meshing := false } s) (CAM_STATUS n) (meshBit built) := by
  cases built <;> simp [meshDone, meshBit, hm, hen]

theorem fbit_meshDone {n : Nat} {s : State} (hs : RegsWf s) (hm : (laneGet n s).meshing = true)
    (hen : fbit s (CAM_CFG n) CAM_CFG_EN = true) (built : Bool) :
    fbit (meshDone n built s) (CAM_STATUS n) (meshBit built) = true := by
  have hfits : (meshBit built).fits ∧ bitsWidth (meshBit built) = 1 := by
    cases built <;> exact ⟨⟨by decide, by decide⟩, by decide⟩
  rw [meshDone_enabled hm hen]
  exact fbit_fon_same (s := laneSet n _ s) hs hfits.1 hfits.2 _

/-! ## A frame taken as a sample (R102, R108, R161) -/

/-- The registers of the blocks other than the camera front end. -/
abbrev OutsideCamera (a : Nat) : Prop := a < 0x00600000 ∨ 0x00700000 ≤ a

/-- What the aligner may change as it takes a sample: registers outside the camera front end, its channels, the slices,
and the calibration's note of the frame. -/
structure SampleStep (s t : State) : Prop where
  frame : ∃ g a c x, t = { s with regs := g, aln := a, cal := c, slices := x }
  writes : WritesIn OutsideCamera s t

theorem SampleStep.refl (s : State) : SampleStep s s := ⟨⟨_, _, _, _, rfl⟩, .refl s⟩

theorem SampleStep.trans {a b c : State} (h : SampleStep a b) (h' : SampleStep b c) : SampleStep a c := by
  obtain ⟨⟨_, _, _, _, rfl⟩, hw⟩ := h
  obtain ⟨⟨_, _, _, _, rfl⟩, hw'⟩ := h'
  exact ⟨⟨_, _, _, _, rfl⟩, hw.trans hw'⟩

theorem SampleStep.fset {s t : State} (h : SampleStep s t) {a : Nat} (ha : OutsideCamera a) (f : Bits) (v : Nat) :
    SampleStep s (fset t a f v) := h.trans ⟨⟨_, _, _, _, rfl⟩, (WritesIn.refl t).fset ha f v⟩

theorem SampleStep.bump {s t : State} (h : SampleStep s t) {a : Nat} (ha : OutsideCamera a) : SampleStep s (bump t a) :=
  h.fset ha _ _

theorem SampleStep.withSlices {s t : State} (h : SampleStep s t) (x : List SliceRec) : SampleStep s { t with slices := x } :=
  h.trans ⟨⟨_, _, _, _, rfl⟩, .of_regs rfl⟩

theorem SampleStep.withCal {s t : State} (h : SampleStep s t) (c : CalState) : SampleStep s { t with cal := c } :=
  h.trans ⟨⟨_, _, _, _, rfl⟩, .of_regs rfl⟩

/-- A sample leaves the lanes alone. -/
theorem SampleStep.lanes {s t : State} (h : SampleStep s t) : t.lanes = s.lanes := by
  obtain ⟨_, _, _, _, rfl⟩ := h.frame
  rfl

/-- A sample reaches no memory. -/
theorem SampleStep.memory {s t : State} (h : SampleStep s t) : MemoryKept s t := by
  obtain ⟨_, _, _, _, rfl⟩ := h.frame
  exact memoryKept_of_eq rfl rfl rfl

/-- The channel blocks of the lanes' channels lie below the camera front end. -/
theorem outsideCamera_channel {a n : Nat} (hn : n < 16) (ha : a < 0x00401000) : OutsideCamera (a + 0x100 * n) := by
  left; omega

theorem sampleStep_noteTaken {n : Nat} (hn : n < 16) (t : Int) (s : State) : SampleStep s (noteTaken n t s) := by
  have haln : SampleStep s (alnSet n { alnGet n s with silent := false, quietFrom := upNs s } s) := ⟨⟨_, _, _, _, rfl⟩, .of_regs rfl⟩
  have hstatus := haln.fset (a := SLC_CH_STATUS n) (outsideCamera_channel hn (by decide))
  exact ((hstatus _ _).fset (outsideCamera_channel hn (by decide)) _ _).fset (outsideCamera_channel hn (by decide)) _ _

theorem SampleStep.loDrop {s t : State} (h : SampleStep s t) : SampleStep s (loDrop t) :=
  (h.fset (a := ATN_STATUS) (.inr (by decide)) _ _).bump (.inr (by decide))

theorem sampleStep_admitSample {n : Nat} (hn : n < 16) (t : Int) (x : Sample) (o : SliceRec) (s : State) :
    SampleStep s (admitSample n t x o s) := by
  unfold admitSample
  extract_lets c age late defer est full up s1 s2
  have h1 : SampleStep s s1 := ((SampleStep.refl s).withSlices _).bump (outsideCamera_channel hn (by decide))
  have h2 : SampleStep s s2 := by
    unfold s2
    split
    · exact h1.loDrop
    · exact h1
  split
  · split <;> exact h2.bump (outsideCamera_channel hn (by decide))
  · exact h2

theorem sampleStep_takeSample {n : Nat} (hn : n < 16) (t : Int) (x : Sample) (s : State) :
    SampleStep s (takeSample n t x s) := by
  have htaken := sampleStep_noteTaken hn t s
  unfold takeSample
  extract_lets u
  split
  · have hfuture := htaken.bump (a := SLC_CH_FUTURE_DROPPED n) (outsideCamera_channel hn (by decide))
    exact (hfuture.fset (a := SLC_CH_STATUS n) (outsideCamera_channel hn (by decide)) _ _).withSlices _
  · split
    · exact (htaken.bump (outsideCamera_channel hn (by decide))).withSlices _
    · exact htaken.trans (sampleStep_admitSample hn t x _ u)

/-- The buffer among b0 and bs whose frame has the oldest stamp. -/
def oldestBuf (l : Lane) (b0 : Nat) (bs : List Nat) : Nat :=
  bs.foldl (fun x y => if (bufGet y l).stamp < (bufGet x l).stamp then y else x) b0

theorem oldestBuf_mem (l : Lane) (b0 : Nat) (bs : List Nat) : oldestBuf l b0 bs ∈ b0 :: bs := by
  refine List.foldlRecOn bs _ List.mem_cons_self fun x hx y hy => ?_
  split
  · exact List.mem_cons_of_mem _ hy
  · exact hx

/-- The aligner takes a complete frame whose features are written: the frame is counted and joins a slice or none, and its
buffer waits to be lifted or is free. -/
theorem frameReport_taken {n : Nat} {s : State} (hn : n < 16) (ht : alignerTakes s = true)
    (hf : ∃ b < 3, featured (bufGet b (laneGet n s)) = true) :
    ∃ b < 3, featured (bufGet b (laneGet n s)) = true ∧ ∃ f u, f.st ≠ .features ∧ SampleStep (bump s (CAM_FRAMES_OK n)) u
      ∧ frameReport n s = laneSet n (bufSet b f (laneGet n s)) u := by
  unfold frameReport
  extract_lets l joined
  split
  next hnone =>
    obtain ⟨b, hb, hfeat⟩ := hf
    have hmem : b ∈ (List.range 3).filter (fun b => featured (bufGet b l)) := by simp [hb, hfeat, l]
    simp [hnone] at hmem
  next b0 bs hsome =>
    have hmem := oldestBuf_mem l b0 bs
    rw [← hsome, List.mem_filter, List.mem_range] at hmem
    rw [if_neg (by simp [ht])]
    extract_lets b f s1 ok _ s2
    have h1 : SampleStep (bump s (CAM_FRAMES_OK n)) s1 := sampleStep_takeSample hn _ _ _
    have h2 : SampleStep (bump s (CAM_FRAMES_OK n)) s2 := by
      unfold s2
      split
      · exact h1.withCal _
      · exact h1
    refine ⟨b, hmem.1, hmem.2, if ok then { f with st := .toLift } else FrameBuf.reset, s2, ?_, h2, ?_⟩
    · split <;> simp [FrameBuf.reset]
    · rw [laneGet_congr h2.lanes]
      rfl

/-! ## The statement -/

/-- Settles O33: the timeout leaves the lane without its frame (that the next one takes over is log entry 84), a mesh sets
one bit of CAM_STATUS, a report is a sample that the aligner takes, and the end of the clear writes VHE_STATUS alone. -/
theorem framesMeshesAndTheClearOfTheVheComplete : Obligations.FramesMeshesAndTheClearOfTheVheComplete := by
  unfold Obligations.FramesMeshesAndTheClearOfTheVheComplete
  intro n s hs hlanes hbufs
  have hn : n.val < s.lanes.length := by omega
  refine ⟨fun b hb hr hcur => ?_, fun built hr hm hen => ?_, fun hr ht hf => ?_, fun hr hheld => ?_⟩
  · have hlane := laneGet_frameLineTimeout hn hcur
    refine gives_onMain rfl hr ⟨?_, ?_, fget_frameLineTimeout hs hcur, frameLineTimeout_frame hcur⟩
    · rw [hlane]
      rfl
    · rw [hlane]
      exact congrArg FrameBuf.st (bufGet_bufSet (hbufs ▸ hb) FrameBuf.reset)
  · have hset := fbit_meshDone hs hm hen built
    refine gives_onCupola rfl hr ⟨?_, ?_, ?_, ?_, ?_⟩
    · rw [meshDone_enabled hm hen]
      exact congrArg Lane.meshing (laneGet_laneSet hn _)
    · rintro rfl
      exact hset
    · rintro rfl
      exact hset
    · rw [meshDone_enabled hm hen]
      exact regsKept_fset (s := laneSet n _ s) hs _ _ _
    · rw [meshDone_enabled hm hen]
      rfl
  · obtain ⟨b, hb, hfeat, f, u, hst, hstep, hreport⟩ := frameReport_taken n.isLt ht hf
    have hlen : n.val < u.lanes.length := by rw [hstep.lanes]; exact hn
    refine gives_onMain rfl hr ?_
    rw [hreport]
    refine ⟨?_, ⟨b, hb, hfeat, ?_⟩, hstep.memory⟩
    · have hcam : ¬OutsideCamera (CAM_FRAMES_OK n) := by unfold OutsideCamera CAM_FRAMES_OK; omega
      exact (hstep.writes.fget (regsWf_bumpBy hs _ _ _) hcam fWord).trans (fget_bump_min hs _)
    · rw [laneGet_laneSet hlen, bufGet_bufSet (hbufs ▸ hb)]
      exact hst
  · have hclear : vheCleared s = fput s VHE_STATUS VHE_STATUS_CLEARING false := by simp [vheCleared, vheClearDone, hheld]
    refine gives_onMain rfl hr ?_
    rw [hclear]
    exact ⟨fbit_fput_same hs ⟨by decide, by decide⟩ (by decide) _ _, regsKept_fset hs _ _ _, rfl⟩

end Sys2Proof.Camera
end

section
/-! Proofs. A calibration update's ends: skipped, weak, at its bounds, answered by the Spire or not answered; and its solve,
which claims the factorisation pipe and then proposes a step (R170 to R172, R175). -/
namespace Sys2Proof.Calibration

open Sys2Proof Sys2Proof.Machine Sys2Proof.Stages Sys2Proof.Ingress Sys2Proof.Camera

/-! ## Fields that a step keeps -/

/-- From s to t the registers stay canonical and one field keeps its value. -/
def KeepsField (a : Nat) (f : Bits) (s t : State) : Prop := RegsWf s → RegsWf t ∧ fget t a f = fget s a f

theorem KeepsField.trans {a : Nat} {f : Bits} {s t u : State} (h : KeepsField a f s t) (h' : KeepsField a f t u) :
    KeepsField a f s u := fun hs => ⟨(h' (h hs).1).1, (h' (h hs).1).2.trans (h hs).2⟩

theorem KeepsField.of_regs {a : Nat} {f : Bits} {s t : State} (h : t.regs = s.regs) : KeepsField a f s t :=
  fun hs => ⟨(WritesIn.of_regs (A := (· = a)) h hs).1, by rw [fget, fget, rd, rd, h]⟩

/-- A write of another register, or of a field that does not overlap, keeps a field. -/
theorem keepsField_fset {a b : Nat} {f g : Bits} (hf : f.fits) (hg : g.lo ≤ g.hi)
    (hd : b ≠ a ∨ g.hi < f.lo ∨ f.hi < g.lo) (s : State) (v : Nat) :
    KeepsField b g s (fset s a f v) := fun hs => ⟨regsWf_fset hs a f v, by
  by_cases hb : b = a
  · exact hb ▸ fget_fset_field hs hf hg a v (hd.resolve_left (not_not_intro hb))
  · exact fget_fset_ne hs f g v hb⟩

/-! ## What an update's operations may change -/

/-- The registers of a sensor that its updates write: LAST and RESIDUALS, and the state bits. -/
abbrev SensorRegs (n a : Nat) : Prop := a = CAM_EXT_LAST n ∨ a = CAM_EXT_CAL n

/-- The two registers of a sensor are not the same one. -/
theorem last_ne_cal (n : Nat) : CAM_EXT_LAST n ≠ CAM_EXT_CAL n := by unfold CAM_EXT_LAST CAM_EXT_CAL; omega

/-- The counters of updates are not registers of a sensor that the module has. -/
theorem counters_not_sensorRegs {n : Nat} (hn : n < 24) : ¬SensorRegs n CAM_CAL_SKIP ∧ ¬SensorRegs n CAM_CAL_NOREPLY := by
  unfold SensorRegs CAM_CAL_SKIP CAM_CAL_NOREPLY CAM_EXT_LAST CAM_EXT_CAL
  omega

/-- The parts of the state that hold registers, slices, updates and proposals on the bridge: nothing else changes. -/
def CalFrame (s t : State) : Prop := ∃ g x c b, t = { s with regs := g, slices := x, cal := c, bridgeUp := b }

theorem CalFrame.trans {s t u : State} (h : CalFrame s t) (h' : CalFrame t u) : CalFrame s u := by
  obtain ⟨_, _, _, _, rfl⟩ := h
  obtain ⟨_, _, _, _, rfl⟩ := h'
  exact ⟨_, _, _, _, rfl⟩

theorem CalFrame.memory {s t : State} (h : CalFrame s t) : MemoryKept s t := by
  obtain ⟨_, _, _, _, rfl⟩ := h
  exact memoryKept_of_eq rfl rfl rfl

/-- What the end of a solve may change once RESIDUALS is written: the sensor's other fields, slices, updates and
proposals. -/
structure CalStep (n : Nat) (s t : State) : Prop where
  frame : CalFrame s t
  writes : WritesIn (SensorRegs n) s t
  residuals : KeepsField (CAM_EXT_LAST n) CAM_EXT_LAST_RESIDUALS s t

theorem CalStep.trans {n : Nat} {s t u : State} (h : CalStep n s t) (h' : CalStep n t u) : CalStep n s u :=
  ⟨h.frame.trans h'.frame, h.writes.trans h'.writes, h.residuals.trans h'.residuals⟩

/-- Updates, slices and messages are not registers. -/
theorem calStep_of_regs {n : Nat} {s t : State} (h : ∃ x c b, t = { s with slices := x, cal := c, bridgeUp := b }) :
    CalStep n s t := by
  obtain ⟨_, _, _, rfl⟩ := h
  exact ⟨⟨_, _, _, _, rfl⟩, .of_regs rfl, .of_regs rfl⟩

theorem CalStep.refl {n : Nat} (s : State) : CalStep n s s := calStep_of_regs ⟨_, _, _, rfl⟩

/-- A write of a sensor's state bits. -/
theorem calStep_stateBit (n : Nat) {f : Bits} (hf : f.fits) (v : Nat) (s : State) :
    CalStep n s (fset s (CAM_EXT_CAL n) f v) :=
  ⟨⟨_, _, _, _, rfl⟩, (WritesIn.refl s).fset (.inr rfl) f v, keepsField_fset hf (by decide) (.inl (last_ne_cal n)) s v⟩

/-- The outcome of an update is noted beside its count of residuals. -/
theorem calStep_calOutcome (n last : Nat) (s : State) : CalStep n s (calOutcome n last s) := by
  have hlast (t : State) : CalStep n t (fset t (CAM_EXT_LAST n) CAM_EXT_LAST_LAST last) :=
    ⟨⟨_, _, _, _, rfl⟩, (WritesIn.refl t).fset (.inl rfl) _ _,
      keepsField_fset ⟨by decide, by decide⟩ (by decide) (.inr (.inr (by decide))) t _⟩
  exact (calStep_of_regs ⟨_, _, _, rfl⟩ : CalStep n s { s with slices := _ }).trans
    ((hlast _).trans (calStep_stateBit n ⟨by decide, by decide⟩ _ _))

/-- An update once its slice's proposals have gone to the Spire. -/
def sentUpdate (seq : Nat) (u : CalUpdate) : CalUpdate :=
  if u.seq == seq && u.phase == .proposed then { u with phase := .sent } else u

/-- Proposals go to the bridge, and their updates are sent. -/
theorem calSend_shape (seq : Nat) (s : State) : ∃ b, calSend seq s
    = { s with bridgeUp := b, cal := { s.cal with updates := s.cal.updates.map (sentUpdate seq) } } := by
  have hfold (l : List CalUpdate) (m : State → CalUpdate → UpMsg) :
      ∃ b, l.foldl (fun s u => sendUp (m s u) s) s = { s with bridgeUp := b } :=
    foldl_rel (R := fun a c => ∃ b, c = { a with bridgeUp := b }) (fun _ => ⟨_, rfl⟩)
      (by rintro _ _ _ ⟨_, rfl⟩ ⟨_, rfl⟩; exact ⟨_, rfl⟩) (f := fun s u => sendUp (m s u) s)
      (fun _ _ => ⟨_, rfl⟩) l s
  unfold calSend
  extract_lets due s1
  obtain ⟨b, h⟩ : ∃ b, s1 = { s with bridgeUp := b } := hfold _ _
  refine ⟨b, ?_⟩
  change { s1 with cal := { s1.cal with updates := s1.cal.updates.map (sentUpdate seq) } } = _
  rw [h]

theorem calStep_calSend (n seq : Nat) (s : State) : CalStep n s (calSend seq s) := by
  obtain ⟨b, h⟩ := calSend_shape seq s
  exact calStep_of_regs ⟨_, _, _, h⟩

theorem calStep_calBreak (n : Nat) (small : Bool) (s : State) : CalStep n s (calBreak n small s) := by
  cases small
  · exact (calStep_of_regs ⟨_, _, _, rfl⟩ : CalStep n s (setSmall n 0 s)).trans
      (calStep_stateBit n ⟨by decide, by decide⟩ _ _)
  · exact .refl s

/-! ## The updates under way -/

/-- A dropped update is under way no more. -/
theorem mem_calPut_none {seq n : Nat} {s : State} {v : CalUpdate} (h : v ∈ (calPut seq n none s).cal.updates)
    (hseq : v.seq = seq) : v.sensor ≠ n := by
  rintro rfl
  obtain ⟨w, -, hw⟩ := List.mem_flatMap.mp h
  split at hw
  · simp at hw
  next hne =>
    rw [List.mem_singleton.mp hw] at hseq hne
    exact hne ⟨hseq, rfl⟩

/-- A replaced update is the one that was put. -/
theorem mem_calPut_some {seq n : Nat} {s : State} {u v : CalUpdate} (h : v ∈ (calPut seq n (some u) s).cal.updates)
    (hseq : v.seq = seq) (hn : v.sensor = n) : v = u := by
  obtain ⟨w, -, hw⟩ := List.mem_flatMap.mp h
  split at hw
  · simpa using hw
  next hne =>
    rw [List.mem_singleton.mp hw] at hseq hn
    exact absurd ⟨hseq, hn⟩ hne

/-- Sending proposals leaves each update as it was, or proposed and now sent. -/
theorem mem_calSend {seq : Nat} {s : State} {v : CalUpdate} (h : v ∈ (calSend seq s).cal.updates) :
    ∃ w ∈ s.cal.updates, v = w ∨ v = { w with phase := .sent } := by
  obtain ⟨b, heq⟩ := calSend_shape seq s
  rw [heq] at h
  obtain ⟨w, hw, rfl⟩ := List.mem_map.mp h
  refine ⟨w, hw, ?_⟩
  unfold sentUpdate
  split
  · exact .inr rfl
  · exact .inl rfl

/-! ## An update's end with an outcome (R170, R171) -/

/-- An update that is gone, with its outcome noted. -/
def endWith (u : CalUpdate) (last : Nat) (s : State) : State := calPut u.seq u.sensor none (calOutcome u.sensor last s)

theorem calSkip_eq (u : CalUpdate) (s : State) : calSkip u s = bump (endWith u 6 s) CAM_CAL_SKIP := rfl

theorem calEnd_eq (u : CalUpdate) (last : Nat) (s : State) :
    calEnd u last s = endWith u last (fput s (CAM_EXT_CAL u.sensor) CAM_EXT_CAL_PENDING false) := rfl

theorem calStep_endWith (u : CalUpdate) (last : Nat) (s : State) : CalStep u.sensor s (endWith u last s) :=
  (calStep_calOutcome u.sensor last s).trans (calStep_of_regs ⟨_, _, _, rfl⟩)

/-- LAST is the outcome. -/
theorem last_endWith {s : State} (hs : RegsWf s) (u : CalUpdate) {last : Nat} (hl : last < 8) :
    fget (endWith u last s) (CAM_EXT_LAST u.sensor) CAM_EXT_LAST_LAST = last := by
  refine (fget_fset_ne (regsWf_fset hs _ _ _) CAM_EXT_CAL_AT_BOUND CAM_EXT_LAST_LAST _ (last_ne_cal u.sensor)).trans ?_
  exact (fget_fset_same hs ⟨by decide, by decide⟩ _ last).trans (Nat.mod_eq_of_lt hl)

/-- The outcome's AT_BOUND stands beside PENDING. -/
theorem pending_endWith (u : CalUpdate) (last : Nat) (s : State) :
    KeepsField (CAM_EXT_CAL u.sensor) CAM_EXT_CAL_PENDING s (endWith u last s) :=
  (keepsField_fset ⟨by decide, by decide⟩ (by decide) (.inl (last_ne_cal u.sensor).symm) s last).trans
    (keepsField_fset (f := CAM_EXT_CAL_AT_BOUND) ⟨by decide, by decide⟩ (by decide) (.inr (.inl (by decide))) _ _)

/-- The update is under way no more. -/
theorem gone_endWith {u v : CalUpdate} {last : Nat} {s : State} (h : v ∈ (endWith u last s).cal.updates)
    (hseq : v.seq = u.seq) : v.sensor ≠ u.sensor := mem_calPut_none h hseq

/-- A count on the main die follows the end of a sensor's update. -/
theorem count_after {n a : Nat} {s t : State} (hs : RegsWf s) (h : WritesIn (SensorRegs n) s t) (ha : ¬SensorRegs n a) :
    fget (bump t a) a fWord = min (2 ^ 32 - 1) (fget s a fWord + 1) := by
  rw [fget_bump_min (h hs).1, h.fget hs ha]

/-- LAST of a skipped update is 6. -/
theorem last_calSkip {u : CalUpdate} {s : State} (hs : RegsWf s) (hn : u.sensor < 24) :
    fget (calSkip u s) (CAM_EXT_LAST u.sensor) CAM_EXT_LAST_LAST = 6 := by
  have hcount : CAM_EXT_LAST u.sensor ≠ CAM_CAL_SKIP := fun e => (counters_not_sensorRegs hn).1 (.inl e.symm)
  exact (fget_fset_ne ((calStep_endWith u 6 s).writes hs).1 _ _ _ hcount).trans (last_endWith hs u (by decide))

/-- A skip writes its count and its sensor's registers. -/
theorem regsKept_calSkip {s : State} (hs : RegsWf s) (u : CalUpdate) :
    RegsKept [CAM_CAL_SKIP, CAM_EXT_LAST u.sensor, CAM_EXT_CAL u.sensor] s (calSkip u s) := by
  intro a ha
  simp only [List.mem_cons, List.not_mem_nil, or_false, not_or] at ha
  obtain ⟨hcount, hregs⟩ := ha
  obtain ⟨hwf, hkept⟩ := (calStep_endWith u 6 s).writes hs
  exact (rd_fset_ne hwf _ _ hcount).trans (hkept a (not_or.mpr hregs))

/-! ## The solve (R170, R171) -/

/-- A solve's count of residuals in its sensor's register. -/
def residualsNoted (u : CalUpdate) (s : State) : State := fset s (CAM_EXT_LAST u.sensor) CAM_EXT_LAST_RESIDUALS u.residuals

/-- Whether an update is weak does not turn on its own register. -/
theorem calWeak_residualsNoted {s : State} (hs : RegsWf s) (u : CalUpdate) : calWeak u (residualsNoted u s) = calWeak u s := by
  have hmin : CAM_CAL_MIN_RES ≠ CAM_EXT_LAST u.sensor := by unfold CAM_CAL_MIN_RES CAM_EXT_LAST; omega
  have hpivot : CAM_CAL_PIVOT ≠ CAM_EXT_LAST u.sensor := by unfold CAM_CAL_PIVOT CAM_EXT_LAST; omega
  simp only [calWeak, residualsNoted, fget_fset_ne hs _ _ _ hmin, fget_fset_ne hs _ _ _ hpivot]

/-- A clamped step within the bounds, as it waits for the slice's header copy. -/
def proposed (u v : CalUpdate) (s : State) : State :=
  fon (calPut u.seq u.sensor (some v) s) (CAM_EXT_CAL u.sensor) CAM_EXT_CAL_PENDING

theorem calStep_proposed (u v : CalUpdate) (s : State) : CalStep u.sensor s (proposed u v s) :=
  (calStep_of_regs ⟨_, _, _, rfl⟩ : CalStep u.sensor s (calPut u.seq u.sensor (some v) s)).trans
    (calStep_stateBit u.sensor ⟨by decide, by decide⟩ _ _)

/-- A solve ends in one of four ways: WEAK, AT_BOUND, or a step proposed that waits for the slice's header copy or goes at
once. -/
theorem calStepOutcome_cases (u : CalUpdate) (s : State) :
    calStepOutcome u s = endWith u 4 (residualsNoted u s)
    ∨ calWeak u (residualsNoted u s) = false ∧ ∃ s2, CalStep u.sensor (residualsNoted u s) s2
      ∧ (calStepOutcome u s = endWith u 5 s2
        ∨ ∃ v, v.phase = .proposed
          ∧ (calStepOutcome u s = proposed u v s2 ∨ calStepOutcome u s = calSend u.seq (proposed u v s2))) := by
  unfold calStepOutcome
  extract_lets n s1 o f rot trans dt s2 s3
  split
  · exact .inl rfl
  next hweak =>
    refine .inr ⟨Bool.eq_false_iff.mpr hweak, s2, calStep_calBreak _ _ _, ?_⟩
    split
    · exact .inl rfl
    · refine .inr ⟨{ u with phase := .proposed, rot := rot, trans := trans, dt := dt }, rfl, ?_⟩
      split
      · exact .inr rfl
      · exact .inl rfl

/-- A weak update ends so. -/
theorem calStepOutcome_weak {u : CalUpdate} {s : State} (h : calWeak u (residualsNoted u s) = true) :
    calStepOutcome u s = endWith u 4 (residualsNoted u s) := by
  obtain heq | ⟨hstrong, -⟩ := calStepOutcome_cases u s
  · exact heq
  · simp [h] at hstrong

/-- The end of a solve, after its count of residuals. -/
theorem calStep_calStepOutcome (u : CalUpdate) (s : State) :
    CalStep u.sensor (residualsNoted u s) (calStepOutcome u s) := by
  obtain heq | ⟨-, s2, h2, heq | ⟨v, -, heq | heq⟩⟩ := calStepOutcome_cases u s <;> rw [heq]
  · exact calStep_endWith u 4 _
  · exact h2.trans (calStep_endWith u 5 s2)
  · exact h2.trans (calStep_proposed u v s2)
  · exact (h2.trans (calStep_proposed u v s2)).trans (calStep_calSend _ _ _)

/-- An update that outlives its solve is proposed, or sent already. -/
theorem phase_calStepOutcome {u w : CalUpdate} {s : State} (h : w ∈ (calStepOutcome u s).cal.updates) (hseq : w.seq = u.seq)
    (hn : w.sensor = u.sensor) : w.phase = .proposed ∨ w.phase = .sent := by
  obtain heq | ⟨-, s2, -, heq | ⟨v, hv, heq | heq⟩⟩ := calStepOutcome_cases u s <;> rw [heq] at h
  · exact absurd hn (gone_endWith h hseq)
  · exact absurd hn (gone_endWith h hseq)
  · exact .inl (mem_calPut_some h hseq hn ▸ hv)
  · obtain ⟨x, hx, rfl | rfl⟩ := mem_calSend h
    · exact .inl (mem_calPut_some hx hseq hn ▸ hv)
    · exact .inr rfl

/-! ## The end of a proposal (R170, R172) -/

/-- After the end of a proposal: PENDING is clear, LAST holds the outcome, and the update is under way no more. -/
structure Ended (u : CalUpdate) (last : Nat) (s t : State) : Prop where
  frame : CalFrame s t
  wf : RegsWf t
  pending : fbit t (CAM_EXT_CAL u.sensor) CAM_EXT_CAL_PENDING = false
  last : fget t (CAM_EXT_LAST u.sensor) CAM_EXT_LAST_LAST = last
  gone : ∀ v ∈ t.cal.updates, v.seq = u.seq → v.sensor ≠ u.sensor
  accepted : t.cal.accepted = s.cal.accepted

theorem ended_calEnd {s : State} (hs : RegsWf s) (u : CalUpdate) {last : Nat} (hl : last < 8) :
    Ended u last s (calEnd u last s) := by
  have hclear := regsWf_fset hs (CAM_EXT_CAL u.sensor) CAM_EXT_CAL_PENDING (b2n false)
  obtain ⟨hwf, hpending⟩ := pending_endWith u last _ hclear
  rw [calEnd_eq]
  refine ⟨⟨_, _, _, _, rfl⟩, hwf, ?_, last_endWith hclear u hl, fun v hv => gone_endWith hv, rfl⟩
  rw [fbit, fput, hpending]
  exact fbit_fput_same hs ⟨by decide, by decide⟩ (by decide) _ false

/-- What ends a proposal writes the sensor's registers alone. -/
theorem calStep_calEnd (u : CalUpdate) (last : Nat) (s : State) : CalStep u.sensor s (calEnd u last s) :=
  (calStep_stateBit u.sensor ⟨by decide, by decide⟩ _ s).trans (calStep_endWith u last _)

/-- The count of a sensor's small steps has no part in the end of a proposal. -/
theorem Ended.setSmall {u : CalUpdate} {last : Nat} {s t : State} (h : Ended u last s t) (n k : Nat) :
    Ended u last s (setSmall n k t) :=
  ⟨h.frame.trans ⟨_, _, _, _, rfl⟩, h.wf, h.pending, h.last, h.gone, h.accepted⟩

/-- A write beside LAST and PENDING keeps that a proposal has ended. -/
theorem Ended.fset {u : CalUpdate} {last : Nat} {s t : State} (h : Ended u last s t) {a : Nat} {f : Bits} (hf : f.fits)
    (hlast : CAM_EXT_LAST u.sensor ≠ a) (hcal : CAM_EXT_CAL u.sensor ≠ a ∨ 1 < f.lo) (v : Nat) :
    Ended u last s (fset t a f v) := by
  have hpending : KeepsField (CAM_EXT_CAL u.sensor) CAM_EXT_CAL_PENDING t (Machine.fset t a f v) :=
    keepsField_fset hf (by decide) (hcal.imp_right .inl) t v
  refine ⟨h.frame.trans ⟨_, _, _, _, rfl⟩, regsWf_fset h.wf a f v, ?_, ?_, h.gone, h.accepted⟩
  · rw [fbit, (hpending h.wf).2]
    exact h.pending
  · rw [fget_fset_ne h.wf _ _ _ hlast]
    exact h.last

/-- CONVERGED stands beside PENDING. -/
theorem Ended.calConverge {u : CalUpdate} {last : Nat} {s t : State} (h : Ended u last s t) :
    Ended u last s (calConverge u t) := by
  unfold Machine.calConverge
  extract_lets k s1
  have h1 : Ended u last s s1 := h.setSmall _ _
  split
  · exact h1.fset ⟨by decide, by decide⟩ (last_ne_cal u.sensor) (.inr (by decide)) 1
  · exact h1

/-- A proposal that no reply answers in time ends with 3. -/
theorem ended_calMissed {u : CalUpdate} {s : State} (hs : RegsWf s) (hn : u.sensor < 24) : Ended u 3 s (calMissed u s) := by
  have hcount := (counters_not_sensorRegs hn).2
  exact ((ended_calEnd hs u (by decide)).setSmall _ _).fset ⟨by decide, by decide⟩ (fun e => hcount (.inl e.symm))
    (.inl fun e => hcount (.inr e.symm)) _

/-- A proposal that no reply answers in time is counted. -/
theorem count_calMissed {u : CalUpdate} {s : State} (hs : RegsWf s) (hn : u.sensor < 24) :
    fget (calMissed u s) CAM_CAL_NOREPLY fWord = min (2 ^ 32 - 1) (fget s CAM_CAL_NOREPLY fWord + 1) :=
  count_after (t := setSmall u.sensor 0 (calEnd u 3 s)) hs
    (fun hs => (calStep_calEnd u 3 s).writes hs) (counters_not_sensorRegs hn).2

/-- A reply's first effect is on its sensor's counts, which lie beside LAST and PENDING. -/
theorem ended_counted {u : CalUpdate} {s : State} (hs : RegsWf s) {last : Nat} (hl : last < 8) (f : Bits) (v : Nat) :
    Ended u last s (calEnd u last (fset s (CAM_EXT_CNT u.sensor) f v)) := by
  have h := ended_calEnd (regsWf_fset hs (CAM_EXT_CNT u.sensor) f v) u hl
  exact { h with frame := .trans ⟨_, _, _, _, rfl⟩ h.frame }

/-- A reply in time ends the proposal with its outcome, and an accepted step waits to be applied. -/
theorem calReply_inTime {u : CalUpdate} {s : State} (hs : RegsWf s)
    (hu : s.cal.updates.find? (fun v => v.seq == u.seq && v.sensor == u.sensor && v.phase == .sent) = some u)
    (ht : lin s ≤ u.tov + 5000000) (accept : Bool) :
    ∃ t, Ended u (if accept then 1 else 2) s t ∧ calReply u.seq u.sensor accept s
      = { t with cal := { t.cal with accepted := s.cal.accepted ++ (if accept then [u] else []) } } := by
  simp only [calReply, hu, if_neg (Nat.not_lt.mpr ht)]
  cases accept with
  | true =>
    have h := (ended_counted (u := u) hs (last := 1) (by decide) CAM_EXT_CNT_ACCEPTED
      (fget s (CAM_EXT_CNT u.sensor) CAM_EXT_CNT_ACCEPTED + 1)).calConverge
    exact ⟨_, h, by rw [if_pos rfl, if_pos rfl, h.accepted]⟩
  | false =>
    have h := (ended_counted (u := u) hs (last := 2) (by decide) CAM_EXT_CNT_REJECTED
      (fget s (CAM_EXT_CNT u.sensor) CAM_EXT_CNT_REJECTED + 1)).setSmall u.sensor 0
    exact ⟨_, h, by simp [← h.accepted]⟩

/-- The reply in front of the bridge's queue is the one that arrives. -/
theorem gives_calReply {s : State} {P : State → Prop} {seq n : Nat} {accept : Bool} {rest : List DownMsg}
    (hr : mainRuns s = true) (hd : s.bridgeDown = .calReply seq n accept :: rest)
    (hp : P (calReply seq n accept { s with bridgeDown := rest })) : Gives .calReply s P := by
  refine ⟨_, show execCalReply s = _ from onMain_run hr, ?_⟩
  simpa only [hd, popCalReply] using hp

/-! ## CAL_SOLVE -/

theorem calSolve_running {u : CalUpdate} {s : State} (h : calRunning s = some u) : calSolve s = calStepOutcome u s := by
  simp only [calSolve, h]

theorem calSolve_late {u : CalUpdate} {s : State} (h : calRunning s = none)
    (hu : s.cal.updates.find? (fun v => v.phase == .residuals && solveReturned v.seq s) = some u)
    (ht : u.tov + 880000 < lin s) : calSolve s = calSkip u s := by
  simp only [calSolve, h, hu, if_pos ht]

theorem calSolve_claims {u : CalUpdate} {s : State} (h : calRunning s = none)
    (hu : s.cal.updates.find? (fun v => v.phase == .residuals && solveReturned v.seq s) = some u)
    (ht : lin s ≤ u.tov + 880000) (hpipe : pipeHeld s = false) (hfence : unitFenced flatFactor s = false)
    (hheld : unitHeld flatFactor s = false) :
    calSolve s = calPut u.seq u.sensor (some { u with phase := .solving }) s := by
  simp [calSolve, h, hu, Nat.not_lt.mpr ht, hpipe, hfence, hheld]

/-! ## The statement -/

/-- Settles O34: CAL_SOLVE claims the pipe and then completes (log entry 85), and every way in which an update ends goes
through its outcome in LAST. -/
theorem calibrationStepsAreProposedAnsweredOrSkipped : Obligations.CalibrationStepsAreProposedAnsweredOrSkipped := by
  unfold Obligations.CalibrationStepsAreProposedAnsweredOrSkipped
  intro u s hs hr hn
  refine ⟨fun hidle hu ht => ?_, fun hidle hu ht hpipe hfence hheld => ?_, fun hrun hres => ?_,
    fun rest accept hdown hu ht => ?_, fun hu => ?_⟩
  · have hend := calStep_endWith u 6 s
    refine gives_onMain rfl hr ?_
    rw [calSolve_late hidle hu ht]
    exact ⟨count_after hs hend.writes (counters_not_sensorRegs hn).1, last_calSkip hs hn, fun v hv => gone_endWith hv,
      regsKept_calSkip hs u, hend.frame.memory⟩
  · refine gives_onMain rfl hr ?_
    rw [calSolve_claims hidle hu ht hpipe hfence hheld]
    exact ⟨fun v hv hseq hv' => by rw [mem_calPut_some hv hseq hv'], rfl⟩
  · have hstep := calStep_calStepOutcome u s
    have hnoted : RegsWf (residualsNoted u s) := regsWf_fset hs _ _ _
    have hcount : fget (residualsNoted u s) (CAM_EXT_LAST u.sensor) CAM_EXT_LAST_RESIDUALS = u.residuals :=
      (fget_fset_same hs ⟨by decide, by decide⟩ _ _).trans (Nat.mod_eq_of_lt (Nat.lt_of_le_of_lt hres (by decide)))
    refine gives_onMain rfl hr ?_
    rw [calSolve_running hrun]
    refine ⟨(hstep.residuals hnoted).2.trans hcount, fun hweak => ?_, fun v hv hseq hv' => phase_calStepOutcome hv hseq hv',
      (CalFrame.trans ⟨_, _, _, _, rfl⟩ hstep.frame).memory⟩
    rw [calStepOutcome_weak ((calWeak_residualsNoted hs u).trans hweak)]
    exact ⟨last_endWith hnoted u (by decide), fun v hv => gone_endWith hv⟩
  · obtain ⟨t, hend, heq⟩ := calReply_inTime (s := { s with bridgeDown := rest }) hs hu ht accept
    refine gives_calReply hr hdown ?_
    rw [heq]
    refine ⟨hend.pending, ?_, hend.last, rfl, hend.gone, hend.frame.memory⟩
    obtain ⟨_, _, _, _, rfl⟩ := hend.frame
    rfl
  · have hwrites := writesIn_runTo ((u.tov + 5000000) * unitsPerNs) s
    have hend := ended_calMissed (hwrites hs).1 hn
    have hcount := count_calMissed (hwrites hs).1 hn
    rw [hwrites.fget hs (by decide)] at hcount
    refine gives_onMain (f := calNoReply) rfl hr ?_
    simp only [calNoReply, hu]
    obtain ⟨_, _, _, _, hrun⟩ := runTo_shape ((u.tov + 5000000) * unitsPerNs) s
    rw [hrun] at hend hcount ⊢
    exact ⟨hcount, hend.pending, hend.last, hend.accepted, hend.frame.memory⟩

end Sys2Proof.Calibration
end
